-- ==== Sys2Proof/Word.lean ====
section
/-! DEFINITION. The word types of the model and the one container of sparse data. -/

namespace Sys2Proof

/-- R4: the addressable unit. -/
abbrev Byte := BitVec 8

/-- R8: a register, and a vector lane or accumulator element (R26, R27). -/
abbrev Word := BitVec 32

/-- Sparse data by a numeric key: (key, value) pairs with strictly rising keys, and no entry equal to what an
unlisted key reads as. Every register file, memory, plane and tag array of the model is one of these. -/
abbrev Sparse (α : Type) := List (Nat × α)

end Sys2Proof
end

