-- ==== Sys2Proof/Syntax.lean ====
section
/-! DEFINITION. The commands of the ZK96: one constructor of `Instr` per row of the spec's table of operations and
events, with the row's operands. A core command carries the fields its slot lays down (Tables 4.1, 4.7, 5.5, 3.6, R92)
and `At`, the core and the beat it acts in. -/

namespace Sys2Proof

/-- Where and when a core-slot field acts: the core NCn, the advancing beats its cluster has run since the cluster's
previous command, and the beat index j of R83 and R84. -/
structure At where
  core : Nat
  dt : Nat
  j : Nat
  deriving DecidableEq, Repr

/-- Where and when a cluster-slot field acts: the cluster and the advancing beats since its previous command. -/
structure CAt where
  cl : Nat
  dt : Nat
  deriving DecidableEq, Repr

/-- How a command of the host names its bank (R362): by its number, or in bank-group mode by BG and BA. -/
inductive Bank where
  | flat (b : Nat)
  | grouped (bg ba : Nat)
  deriving DecidableEq, Repr

/-- What of a READ is taken from SRAM (R365): a BL16 read, the first half of a BL32 read, or the second half of the channel's last
BL32 read. -/
inductive Burst where
  | bl16
  | bl32
  | rest
  deriving DecidableEq, Repr

/-- A power command of an LPDDR channel (R361): the state that it enters, 0 active, 1 power-down, 2 self-refresh, and whether it falls in
a refresh's timing window (R360). -/
structure PowerCmd where
  st : Nat
  early : Bool
  deriving DecidableEq, Repr

/-- The operands of the MX field (Table 4.1); `rows` and `cols` hold the field values, one less than the counts. -/
structure MxArgs where
  plane : Nat
  wfmt : Nat
  afmt : Nat
  rows : Nat
  cols : Nat
  rq : Nat
  sub32 : Bool
  auto : Bool
  deriving DecidableEq, Repr

/-- The operands of the VX field (Table 4.7). -/
structure VxArgs where
  vd : Nat
  va : Nat
  vb : Nat
  vc : Nat
  fmt : Nat
  mode : Nat
  sat : Bool
  mask : Nat
  arg : Nat
  deriving DecidableEq, Repr

/-- The operands of XFER and XPRE (Table 5.8); `len` and `rows` hold the field values. -/
structure XArgs where
  src : Nat
  dst : Nat
  len : Nat
  rows : Nat
  pf : Nat
  swait : Bool
  srel : Bool
  commit : Bool
  nomerge : Bool
  nest : Nat
  step : Nat
  deriving DecidableEq, Repr

/-- The operands of RING (R191) and HALO (R192): the member mask, the direction (RING), the streams, the length field,
the rows field (HALO) and the tag options. -/
structure RArgs where
  mask : Nat
  dir : Bool
  src : Nat
  dst : Nat
  len : Nat
  rows : Nat
  swait : Bool
  srel : Bool
  commit : Bool
  deriving DecidableEq, Repr

/-- A mailbox request (Table 13.5): its ring pair, its SEQ and its TAG. -/
structure Rq where
  pair : Nat
  seq : Nat
  tag : Nat
  deriving DecidableEq, Repr

/-- A segment of a DATA flit (Tables 15.3 and 15.4); `len` holds the bytes minus 1, `pois` the poison flag of each 32-byte
half, `data` the 64 bytes that follow the descriptor, if any. -/
structure Seg where
  addr : Nat
  len : Nat
  pois : Nat
  kind : Nat
  status : Nat
  tag : Nat
  epoch : Nat
  job : Nat
  src : Nat
  dst : Nat
  ttl : Nat
  code : Nat
  data : List Byte
  deriving DecidableEq, Repr

/-- The payload of a CTRL flit (Table 15.6). -/
structure Ctrl where
  role : Nat
  pref : Nat
  chip : Nat
  link : Nat
  serial : Nat
  hlSerial : Nat
  lanePar : List Nat
  retire : Nat
  deriving DecidableEq, Repr

/-- A flit (Table 15.2): its header fields, whether its CRC is good (R418), whether an encrypted payload authenticates
(R425), the segments of a DATA flit and the payload of a CTRL flit. -/
structure Flit where
  typ : Nat
  enc : Bool
  kid : Nat
  nak : Bool
  seq : Nat
  ack : Nat
  credit : List Nat
  crcOk : Bool
  authOk : Bool
  segs : List Seg
  ctrl : Option Ctrl
  deriving DecidableEq, Repr

/-- A CSI-2 packet (10 sections 1 and 2): its virtual channel and data type, the 16-bit data field of a short packet, the
payload of a long one, the outcome of the header ECC (0 clean, 1 corrected, 2 uncorrectable) and of the payload CRC. -/
structure CsiPkt where
  vc : Nat
  dt : Nat
  num : Nat
  data : List Byte
  hdr : Nat
  crcOk : Bool
  deriving DecidableEq, Repr

/-- A decoded picture (11 section 3): its size, sample depth, chroma format (0 4:0:0, 1 4:2:0, 2 4:2:2, 3 4:4:4), its planes in
raster order, and the raster positions of the luma samples, and of the chroma samples, that a poisoned reference or source word
contributed to. -/
structure Pic where
  w : Nat
  h : Nat
  depth : Nat
  chroma : Nat
  y : List Nat
  cb : List Nat
  cr : List Nat
  bad : List Nat
  badC : List Nat
  deriving DecidableEq, Repr

/-- A profile that a video stream claims (Table 11.1): Main (of HEVC or AV1), Main 10, High, or another. -/
inductive Profile where
  | main
  | main10
  | high
  | other
  deriving DecidableEq, Repr

/-- A JPEG coding process (Table 11.1, R306). -/
inductive JpegProcess where
  | baseline
  | extended
  | progressive
  | arithmetic
  | lossless
  | hierarchical
  deriving DecidableEq, Repr

/-- What a parameter set, sequence header or SOF claims (R306, R310): the picture's size, sample depth and reference count; profile and
level (ten times its number); the layers, and whether range or screen-content extensions are used (HEVC); frame_mbs_only_flag
(AVC); large-scale tile (AV1); the process, the components (JPEG), and the sampling (0 4:0:0, 1 4:2:0, 2 4:2:2, 3 4:4:4, or
another). A field of another codec is not looked at. -/
structure Claim where
  w : Nat
  h : Nat
  depth : Nat
  refs : Nat
  profile : Profile
  level : Nat
  layers : Nat
  extended : Bool
  frameMbsOnly : Bool
  largeTile : Bool
  process : JpegProcess
  comps : Nat
  sampling : Nat
  deriving DecidableEq, Repr

/-- What the bitstream of a unit holds, as the codec's standard reads it: the parameter sets it carries (identifier, claim), the
identifier of the set it refers to, its picture, if it codes one, the width and height of a block, the blocks that are
skipped (R311), in raster order, the byte offset of the first bitstream error, whether the data ends too early, the engine cycles
that its decoding takes, the picture slots whose pictures stay in the DPB, and whether its own picture joins them. -/
structure DecOut where
  sets : List (Nat × Claim)
  uses : Nat
  pic : Option Pic
  bw : Nat
  bh : Nat
  skip : List Nat
  err : Option Nat
  trunc : Bool
  cycles : Nat
  keep : List Nat
  ref : Bool
  deriving DecidableEq, Repr

/-- The commands (spec/opcode_table.json): one constructor per row, in the table's order. -/
inductive Instr where
  /-- REGISTER_WRITE (R20): A write to a register that has no row of its own lands field by field, with static fields kept and CFG_WR_DROP set while the block is enabled. -/
  | registerWrite (g a : Nat) (v : Word)
  /-- BAD_ACCESS (R8): An access of the wrong width, a misaligned access, or an access to an unassigned block or undefined offset reads zero, drops its write and advances TOP_BADACC_CNT. -/
  | badAccess (read : Bool)
  /-- READ_LO_LATCH (R9): A read of a _LO register returns its value and latches the matching _HI value for the next _HI read. -/
  | readLoLatch (a : Nat)
  /-- ENABLE_WRITE (R18): Writing 1 to an enable bit that reads 0 sets CHK_BUSY and starts the block's consistency check. -/
  | enableWrite (g a : Nat) (v : Word)
  /-- CONSISTENCY_CHECK_END (R18): The consistency check finishes within 64 block cycles: it writes REASON, clears CHK_BUSY, sets or refuses the enable, and lets held writes land. -/
  | consistencyCheckEnd (k : Nat)
  /-- DISABLE_WRITE (R21): Writing 0 to an enable bit stops new work in the block, lets issued operations complete, and keeps committed FIFO entries. -/
  | disableWrite (g a : Nat) (v : Word)
  /-- FIFO_WRITE (R16): An entry or packet word enters a FIFO; the entry is committed at the packet's last word, rewound on a CRC or ECC failure, or ignored with OVR set when the FIFO is full. -/
  | fifoWrite (a : Nat) (w : Word) (last bad : Bool)
  /-- FIFO_DATA_READ (R17): A read of a FIFO data port returns and removes the oldest entry, or stalls the on-chip reader while the FIFO is empty. -/
  | fifoDataRead (a : Nat)
  /-- FIFO_STALL_END (R17): A stalled FIFO read ends when an entry is committed, or returns zero and advances the empty-read counter when the FIFO is flushed or disabled. -/
  | fifoStallEnd (a : Nat)
  /-- ISLAND_CROSSING_DELIVER (R36): A value committed by one island becomes visible in the receiving island 2 to 3 receiving cycles later, in send order. -/
  | islandCrossingDeliver (src dst : Nat)
  /-- BLOCKED_BEAT (R37): In a beat where any slot cannot perform its laid-down action, the whole cluster island holds, and every cause that holds is recorded in the stall counters. -/
  | blockedBeat (c : CAt) (cs : List (Nat × Nat)) (acc : List (Nat × List Nat))
  /-- BAR_FETCH (R111): The fetch unit reads 64 B per beat of the cluster's bar store bank into the fetch buffer, running ahead of execution. -/
  | barFetch (c : CAt) (ups : List (Nat × Nat)) (take : Bool)
  /-- BAR_STORE_WRITE (R113): A write to a bar store bank is dropped while the engine is enabled; an accepted write clears ADMITTED and makes a running scan stale. -/
  | barStoreWrite (a : Nat) (bs : List Byte) (pois : Bool)
  /-- TIE_ARRIVAL (R41): A participating island sends its arrival to the tie hub after the last beat of a firing tie-point bar, after quiescing first if the tie-point is portable. -/
  | tieArrival (c : CAt)
  /-- TIE_RELEASE (R41): When arrivals from every participant are present, the tie hub sends the release, samples STOP at a portable tie-point, and updates ENG_TIE_STATUS and ENG_TIE_CNT. -/
  | tieRelease (b : Nat)
  /-- RELEASE_SEEN (R104): An island sees a release within 8 of its own cycles, applies armed commit groups, and either starts the next bar or parks. -/
  | releaseSeen (ix : Nat)
  /-- PROGRAM_STALL (R108): When the ENG_TIE_TIMEOUT watchdog expires, every cluster of the placement stops, ENABLE is cleared, ENG_FAULT is written and FILLING slots become INVALID. -/
  | programStall (late : Nat)
  /-- PROGRAM_SCAN_START (R122): A write of ENG_ADMIT.START while the engine is disabled and no scan runs starts the program scan of the placement's banks. -/
  | programScanStart
  /-- PROGRAM_SCAN_DONE (R541): The program scan finishes its bank-wide and per-bar checks, then sets ADMITTED and ENG_PROG_CLASS or records the first failure. -/
  | programScanDone (recs : List Nat)
  /-- ENGINE_ENABLE (R124): Writing ENG_CTL.ENABLE := 1 runs the engine consistency check and, if it passes, acts as an implicit tie-point release before ENG_START_BAR. -/
  | engineEnable (pl : Nat) (stop : Bool)
  /-- ENGINE_DISABLE (R124): Writing ENG_CTL.ENABLE := 0 stops every cluster before its next beat, lets in-flight operations complete, and invalidates FILLING slots. -/
  | engineDisable (wins : Bool)
  /-- ENG_STOP_SET (R105): Writing ENG_CTL.STOP := 1 orders a park at the next portable tie-point. -/
  | engStopSet
  /-- ENG_STOP_CLEAR (R105): Writing ENG_CTL.STOP := 0 while the engine is parked resumes every participant at the next bar. -/
  | engStopClear
  /-- NEST_STEP (R98): After each pass through a nest body, the cluster advances the level indices and either runs the body again or exits at BODY_LAST + 1. -/
  | nestStep (c : CAt)
  /-- SLOT_WAIT (R86): Beat 0 of the bar blocks until the named slot of the core's SPM is FULL. -/
  | slotWait (a : At) (slot : Nat) (par : Bool)
  /-- SLOT_RELEASE (R86): After the bar's last beat, the named slot goes from FULL to EMPTY, or RELEASE_BAD is set if it is not FULL. -/
  | slotRelease (a : At) (slot : Nat)
  /-- BOUND_LD (R90): The operation waits until the slot is FULL, then loads word 0 of the slot as the data-dependent bound of the next nest entered. -/
  | boundLd (a : At) (slot : Nat)
  /-- GUARD (R87): The slot's MX, VX and MV fields act only in beats where the level-index condition holds. -/
  | guard (a : At) (lvl mode v : Nat)
  /-- EVENT (R91): The operation pushes an event record into the ENG event FIFO without blocking the core. -/
  | event (a : At) (num : Nat)
  /-- NEST (R93): The cluster-slot NEST operation resolves the nest's bounds in beat 0, latches edge extents, and makes the nest active from the end of the bar. -/
  | nest (c : CAt) (n : Nat)
  /-- MMUL (R128): A matrix instruction adds its contribution to the named plane, starting a chain by the K index when AUTO is set. -/
  | mmul (a : At) (m : MxArgs) (flt : List (Nat × Int))
  /-- MMUL_START (R128): A matrix instruction starts a chain, replacing the plane, or its row quarter, with its valid contribution. -/
  | mmulStart (a : At) (m : MxArgs) (flt : List (Nat × Int))
  /-- VLD (R149): The vector unit loads 64 elements from the stream and widens them into VD, or decodes FRC units. -/
  | vld (a : At) (x : VxArgs)
  /-- VST (R149): The vector unit converts the 64 lanes of VA to FMT and stores them with the chosen rounding and saturation. -/
  | vst (a : At) (x : VxArgs) (par : Bool)
  /-- VLDR (R149): The vector unit loads 256 raw bytes into VD. -/
  | vldr (a : At) (x : VxArgs)
  /-- VSTR (R149): The vector unit stores the 256 raw bytes of VA. -/
  | vstr (a : At) (x : VxArgs) (par : Bool)
  /-- VGATH (R156): The vector unit gathers one element per lane at an indexed address, returning zero for out-of-range lanes. -/
  | vgath (a : At) (x : VxArgs)
  /-- VSCAT (R156): The vector unit converts and scatters one element per lane, with the highest lane winning on collisions. -/
  | vscat (a : At) (x : VxArgs) (par : Bool)
  /-- VBCAST (R149): The vector unit broadcasts one 32-bit word to every lane of VD. -/
  | vbcast (a : At) (x : VxArgs)
  /-- VPLD (R149): The vector unit loads the parameter block PB from 256 B. -/
  | vpld (a : At) (x : VxArgs)
  /-- VLUTLD (R151): The vector unit loads one chunk per beat of a function table. -/
  | vlutld (a : At) (x : VxArgs)
  /-- DRCFG (R141): The vector unit loads one 256-byte chunk per beat of the drain record, setting DRCFG_BAD on reserved values. -/
  | drcfg (a : At) (x : VxArgs)
  /-- DRAIN (R142): The drain converts one plane row per beat by the de-quantisation sequence and activation, and writes it to SPM or to VD. -/
  | drain (a : At) (x : VxArgs) (flt : List (Nat × Int))
  /-- VUNPK (R149): The vector unit unpacks bytes or halfwords of VA into INT32 lanes. -/
  | vunpk (a : At) (x : VxArgs)
  /-- VIOTA (R149): The vector unit writes lane 0 of VA plus the lane number into each lane of VD. -/
  | viota (a : At) (x : VxArgs)
  /-- VADD (R150): Elementwise addition in FP32 or INT32. -/
  | vadd (a : At) (x : VxArgs)
  /-- VSUB (R150): Elementwise subtraction. -/
  | vsub (a : At) (x : VxArgs)
  /-- VMUL (R150): Elementwise multiplication. -/
  | vmul (a : At) (x : VxArgs)
  /-- VFMA (R150): Elementwise fused multiply-add with one rounding. -/
  | vfma (a : At) (x : VxArgs)
  /-- VMIN (R150): Elementwise minimum. -/
  | vmin (a : At) (x : VxArgs)
  /-- VMAX (R150): Elementwise maximum. -/
  | vmax (a : At) (x : VxArgs)
  /-- VABS (R150): Elementwise absolute value. -/
  | vabs (a : At) (x : VxArgs)
  /-- VNEG (R150): Elementwise negation. -/
  | vneg (a : At) (x : VxArgs)
  /-- VAND (R149): Bitwise AND of lanes. -/
  | vand (a : At) (x : VxArgs)
  /-- VOR (R149): Bitwise OR of lanes. -/
  | vor (a : At) (x : VxArgs)
  /-- VXOR (R149): Bitwise XOR of lanes. -/
  | vxor (a : At) (x : VxArgs)
  /-- VSHL (R149): Shift left of lanes. -/
  | vshl (a : At) (x : VxArgs)
  /-- VSHR (R149): Logical or arithmetic shift right of lanes. -/
  | vshr (a : At) (x : VxArgs)
  /-- VCVT (R149): Conversion of lanes between FP32 and INT32. -/
  | vcvt (a : At) (x : VxArgs)
  /-- VCMP (R150): Comparison of lanes into a mask register. -/
  | vcmp (a : At) (x : VxArgs)
  /-- VSEL (R149): Selection of VA or VB per lane by a mask register. -/
  | vsel (a : At) (x : VxArgs)
  /-- VDOT4 (R158): Packed four-way dot product per lane, or a depthwise window quad. -/
  | vdot4 (a : At) (x : VxArgs)
  /-- VLUT (R151): Piecewise-linear table function per lane. -/
  | vlut (a : At) (x : VxArgs)
  /-- VRCP (R151): Correctly rounded reciprocal per lane. -/
  | vrcp (a : At) (x : VxArgs)
  /-- VRSQRT (R151): Correctly rounded reciprocal square root per lane. -/
  | vrsqrt (a : At) (x : VxArgs)
  /-- VEXP2 (R151): Base-2 exponential per lane through a table. -/
  | vexp2 (a : At) (x : VxArgs)
  /-- VRSUM (R153): Pairwise-tree lane sum into lane 0. -/
  | vrsum (a : At) (x : VxArgs)
  /-- VRMAX (R153): Lane maximum into lane 0. -/
  | vrmax (a : At) (x : VxArgs)
  /-- VRMIN (R153): Lane minimum into lane 0. -/
  | vrmin (a : At) (x : VxArgs)
  /-- VRARGMAX (R153): Lane maximum in lane 0 and its lowest lane index in lane 1. -/
  | vrargmax (a : At) (x : VxArgs)
  /-- VSORT (R154): Sort of 64 key-payload pairs from highest to lowest. -/
  | vsort (a : At) (x : VxArgs)
  /-- VMERGE (R155): The top 64 pairs of the union of two register pairs, sorted. -/
  | vmerge (a : At) (x : VxArgs)
  /-- VXFORM (R159): Rigid transform of points. -/
  | vxform (a : At) (x : VxArgs)
  /-- VPROJ (R159): Pinhole projection of points. -/
  | vproj (a : At) (x : VxArgs)
  /-- VDEPTH (R159): Conversion of depth to points. -/
  | vdepth (a : At) (x : VxArgs)
  /-- VVOX (R159): Voxel index of points. -/
  | vvox (a : At) (x : VxArgs)
  /-- VRSET (R255): Loads the generator state from PB and RI from VA. -/
  | vrset (a : At) (x : VxArgs)
  /-- VRAND (R256): Draws Philox words or slices per lane. -/
  | vrand (a : At) (x : VxArgs)
  /-- VDROP (R258): Applies dropout per lane by a generator slice. -/
  | vdrop (a : At) (x : VxArgs)
  /-- VGUMB (R261): Applies temperature scaling and Gumbel noise to scores. -/
  | vgumb (a : At) (x : VxArgs)
  /-- VOPTQ (R268): Block-quantises each half of VA with a UE5M3 scale and updates the overflow mask. -/
  | voptq (a : At) (x : VxArgs)
  /-- VOPTU (R271): Performs the fused moment, weight and requantisation update. -/
  | voptu (a : At) (x : VxArgs)
  /-- SCLAIM (R178): Claims an SPM slot for the core's bar, blocking beat 0 until the claim succeeds. -/
  | sclaim (a : At) (slot : Nat)
  /-- SCOMMIT (R179): Makes a slot FULL once every earlier bar-driven write to it has been written. -/
  | scommit (a : At) (slot : Nat)
  /-- MCOPY (R176): Copies 1 to 256 bytes within the SPM. -/
  | mcopy (a : At) (src dst len : Nat)
  /-- MTRANS (R177): Performs a strided read of N elements, written contiguously. -/
  | mtrans (a : At) (src dst e pitch cnt : Nat)
  /-- XFER (R181): Enters a row transfer, or a prefetch transfer, into the cluster's pending list. -/
  | xfer (c : CAt) (x : XArgs)
  /-- XPRE (R189): Enters the transfer of another nest's step for a prologue prefetch. -/
  | xpre (c : CAt) (x : XArgs)
  /-- RING (R191): Enters one weight-rotation transfer per member around the cluster ring. -/
  | ring (c : CAt) (r : RArgs)
  /-- HALO (R192): Enters one halo transfer per member to a neighbour's SPM. -/
  | halo (c : CAt) (r : RArgs)
  /-- QPOP_READ (R185): Blocks while the sample queue is empty, then enters a copy of the next sample and advances READ. -/
  | qpopRead (c : CAt) (q dst len : Nat) (commit : Bool)
  /-- QPOP_MARK (R321): Sets MARK to READ in a sample queue. -/
  | qpopMark (c : CAt) (q : Nat)
  /-- QPOP_REWIND (R321): Sets READ back to MARK in a sample queue. -/
  | qpopRewind (c : CAt) (q : Nat)
  /-- QPOP_RELEASE (R321): Sets MARK and the release target to READ so that FREE advances as copies complete. -/
  | qpopRelease (c : CAt) (q : Nat)
  /-- FENCE (R186): Blocks beat 0 until every earlier transfer of the cluster is complete. -/
  | fence (c : CAt)
  /-- TRANSFER_OPERATION_ISSUE (R183): The cluster DMA issues one 64-byte operation of a ready transfer when the charged core has budget. -/
  | transferOperationIssue (k x : Nat)
  /-- TRANSFER_WRITE_ARRIVE (R170): A transfer write reaches its destination memory, where it is epoch-checked, lands, begins a fill, or is held by the slot tag. -/
  | transferWriteArrive (k x ix : Nat) (par : Bool)
  /-- TRANSFER_READ_RETURN (R184): A transfer read returns its data, and after the last read SREL releases the source slots. -/
  | transferReadReturn (k x ix : Nat)
  /-- TRANSFER_COMMIT (R172): Once all of a transfer's writes are written and earlier transfers complete, its destination slots become FULL. -/
  | transferCommit (k x : Nat)
  /-- HOLD_STORE_LAND (R171): When a slot becomes EMPTY, the oldest held write for it begins a new fill and the same issuer's held writes land. -/
  | holdStoreLand (m slot : Nat)
  /-- SPM_SCRUB_READ (R167): Every INTERVAL beats, the scrubber reads the word at each memory pointer, corrects errors and advances the pointer. -/
  | spmScrubRead (c : CAt) (ups : List (Nat × Nat))
  /-- ECC_WRITE_BACK (R166): A corrected word is written back in the next free beat of its bank unless it has been written meanwhile. -/
  | eccWriteBack (w : Nat)
  /-- TAG_CMD (R198): Writing CLUk_TAG_CMD sets the tags and SRC classes of a range of slots when the cluster is outside a running placement or parked. -/
  | tagCmd (g k v : Nat) (par : Option Nat)
  /-- DMA_DESCRIPTOR (R199): A chip DMA channel takes the descriptor at TAIL while TAIL differs from HEAD and performs its transfer or fill. -/
  | dmaDescriptor (n : Nat)
  /-- DMA_WRITEBACK (R199): After a descriptor's transfer completes, the channel writes back RESULT, REASON and DONE, and advances TAIL and DONE_CNT. -/
  | dmaWriteback (n : Nat)
  /-- STAGED_REGISTER_WRITE (R205): A write to a shape argument, epoch or edge or window table register is accepted only outside a running placement or while parked. -/
  | stagedRegisterWrite (g a : Nat) (v : Word)
  /-- CSI_PACKET_RECEIVE (R278): A port checks an incoming CSI-2 packet's header and CRC and discards or enters it in the packet FIFO. -/
  | csiPacketReceive (p : Nat) (k : CsiPkt)
  /-- PORT_FLUSH (R281): Writing CSI_PORTp_CTL.FLUSH requests a flush at the next packet boundary. -/
  | portFlush (p : Nat)
  /-- FLUSH_BOUNDARY (R281): At the packet boundary, the FIFO discards unread packets, clears COUNT and advances FLUSH_CNT. -/
  | flushBoundary (p : Nat)
  /-- PORT_DISABLE (R282): Writing EN := 0 on a port flushes at the next packet boundary and closes open frames with NO_FE. -/
  | portDisable (p : Nat)
  /-- FRAME_START (R285): The router takes a frame start, takes a buffer or drops the frame, samples TS, and loads an armed ISP parameter set. -/
  | frameStart (p : Nat)
  /-- FRAME_END (R287): A frame end closes the open frame, padding missing lines and dropping it when damaged under DMG. -/
  | frameEnd (p : Nat) (chk : List Nat)
  /-- LINE_START (R288): A line start with a line number places the next long packet, padding or discarding lines. -/
  | lineStart (p : Nat)
  /-- LINE_PACKET (R287): A long packet's line is checked against WIDTH and staged for the ISP or written out on the RAW path. -/
  | linePacket (p : Nat)
  /-- EMBEDDED_DATA_PACKET (R283): An embedded-data packet is written to the stream's embedded area up to EMB_MAX bytes. -/
  | embeddedDataPacket (p : Nat)
  /-- PIPE_LINE (R290): At a line boundary, an ISP pipe takes the longest-waiting staged line among its streams and runs it through the stages. -/
  | pipeLine (q : Nat) (bad : Bool)
  /-- FRAME_DONE (R286): When every write of a frame is acknowledged, the device completes its header and offers the frame to its fusion group. -/
  | frameDone (m : Nat)
  /-- SET_TIMEOUT (R293): An open set whose WAIT has elapsed closes with TIMEOUT and is posted. -/
  | setTimeout (g : Nat)
  /-- BUFFER_RELEASE (R285): Writing CSI_STRm_REL releases the oldest buffers, or sets REL_BAD for an invalid value. -/
  | bufferRelease (m v : Nat)
  /-- ISP_ARM (R300): Writing an ISP_ARM bit checks the stream's shadow parameter set and arms it for the next frame start. -/
  | ispArm (m : Nat)
  /-- DECODE_UNIT (R309): A free engine takes a session's next unit descriptor and decodes it with claim checks and concealment. -/
  | decodeUnit (n : Nat) (o : DecOut)
  /-- BUDGET_EXCEEDED (R314): When a unit's budget expires, the engine stops at the next block boundary, conceals the rest and reports DEADLINE. -/
  | budgetExceeded (n : Nat) (skip : List Nat) (cycles : Nat)
  /-- ENCODE_UNIT (R316): An encode engine codes one frame as an I or P picture with a constant QP, truncating on overflow. -/
  | encodeUnit (n w h : Nat) (bytes : List Byte) (cycles : Nat)
  /-- SHAPE_SAMPLE (R318): When a picture is output, the shaper applies its augmentation record and commits the sample to its queue, or refuses or drops it. -/
  | shapeSample (n ix : Nat)
  /-- SESSION_DISABLE (R315): Writing a session's EN := 0 stops its engine at a block boundary and rewinds any partly written sample. -/
  | sessionDisable (n : Nat)
  /-- QUEUE_FLUSH (R321): Writing SHP_Qq_CTL.FLUSH discards every sample and ends a waiting QPOP READ. -/
  | queueFlush (q : Nat)
  /-- QUEUE_COPY_COMPLETE (R321): Completion of a sample copy lets FREE advance toward the release target. -/
  | queueCopyComplete (q : Nat)
  /-- FABRIC_ACCESS (R328): A fabric access is checked against the map, the firewall and the windows, and is served or refused with zero poisoned words. -/
  | fabricAccess (g job : Nat) (write : Bool) (ga n : Nat) (bs : List Byte) (ps : List Bool)
  /-- DRAM_READ (R341): A DRAM line read is decoded and delivered clean, corrected with write-back, or poisoned and rewritten as uncorrectable. -/
  | dramRead (l : Nat) (ups : List (Nat × Nat))
  /-- DRAM_WRITE (R342): A DRAM write replaces a whole line or merges a partial line, with a fresh tag and poison propagation. -/
  | dramWrite (a : Nat) (bs : List Byte) (ps : List Bool) (agent job : Nat) (fmt : Option Nat)
  /-- FALLBACK_TRAINING (R334): A passing MEM enable trains all subchannels at 4,800 MT/s. -/
  | fallbackTraining
  /-- FALLBACK_TRAINING_DONE (R334): Fallback training ends with STATE 2, or with STATE 0 and TRAIN_FAILED. -/
  | fallbackTrainingDone (fail : Option (Nat × Nat))
  /-- FULL_TRAINING (R335): Writing MEM_TRAIN_CTL.FULL while STATE = 2 starts full training at the target rate. -/
  | fullTraining
  /-- FULL_TRAINING_DONE (R335): Full training ends with STATE 3, or restores 4,800 MT/s with FULL_FAILED set. -/
  | fullTrainingDone (fail : Option (Nat × Nat))
  /-- MEM_DISABLE (R538): Writing MEM_CTL.ENABLE := 0 abandons training, places the ranks in self-refresh and takes DRAM offline. -/
  | memDisable
  /-- DRAM_REFRESH (R332): The controller refreshes each bank every tREFI and issues RFM at the activation threshold. -/
  | dramRefresh (sub bank : Nat)
  /-- DQS_OSCILLATOR_RUN (R335): Every 100 ms, the DQS interval oscillator runs on a subchannel and holds its requests for at most 1 µs. -/
  | dqsOscillatorRun (sub : Nat)
  /-- DDR_RATE_SWITCH (R335): A switch between trained rates requested by the power controller holds all DRAM requests for at most 20 µs. -/
  | ddrRateSwitch (rate : Nat)
  /-- PATROL_SCRUB (R348): The patrol scrubber reads RATE lines per ms per subchannel and advances EPOCH after each full pass. -/
  | patrolScrub (sub : Nat) (upsA upsB : List (Nat × Nat))
  /-- PSCAN_START (R347): Writing MEM_PSCAN_CTL.START begins a poison scan of a range, or ends at once with ERR set for a bad range. -/
  | pscanStart
  /-- PSCAN_DONE (R347): A poison scan ends with PCOUNT, the first address found, and BUSY clear. -/
  | pscanDone
  /-- FW_ENFORCE (R353): Writing MEM_FW_CTL.ENFORCE turns on firewall enforcement until a chip reset. -/
  | fwEnforce
  /-- REGION_LOCK (R353): Writing LOCK to an enabled region locks its registers until a chip reset. -/
  | regionLock (r : Nat)
  /-- WINDOW_CLOSE (R355): Writing a window's EN := 0 closes it for later operations, and BUSY stays set until earlier operations complete. -/
  | windowClose (w : Nat)
  /-- LPDDR_READ (R365): A host READ is answered from host-port SRAM at the programmed latency, or with 0xA5 bytes if the address is unbacked. -/
  | lpddrRead (c row : Nat) (bank : Bank) (col : Nat) (burst : Burst) (early : Bool)
  /-- LPDDR_WRITE (R367): A host WRITE lands in host-port SRAM, or is dropped if the address is unbacked. -/
  | lpddrWrite (c row : Nat) (bank : Bank) (col : Nat) (bs : List Byte) (mask : List Bool) (early : Bool)
  /-- LPDDR_REFRESH (R360): A REFab or REFpb command is timed, does nothing to data and advances HPT_REF_CNT. -/
  | lpddrRefresh (c : Nat) (early : Bool)
  /-- LPDDR_MODE_REGISTER_WRITE (R359): A mode-register write sets supported fields and ignores writes that enable unsupported features. -/
  | lpddrModeRegisterWrite (c ma : Nat) (v : Byte) (early : Bool)
  /-- LPDDR_MODE_REGISTER_READ (R359): A mode-register read returns identification and MR4 temperature codes. -/
  | lpddrModeRegisterRead (c ma : Nat) (early : Bool)
  /-- LPDDR_POWER_DOWN (R361): A channel enters or leaves power-down or self-refresh, keeping all host-port state. -/
  | lpddrPowerDown (c : Nat) (cmd : PowerCmd)
  /-- HOST_RESET_N (R361): The host's RESET_n returns the mode registers and training state to reset and sets IFRST. -/
  | hostResetN (asserted : Bool)
  /-- HOST_CK_SWITCH (R361): When host CK stops or starts, the host-port island switches between the internal clock and CK within 64 cycles. -/
  | hostCkSwitch (c : Nat) (on : Bool)
  /-- ATTN_SET (R380): Writing HPT_ATTN_SET sets attention bits 7:0. -/
  | attnSet (v : Nat)
  /-- ATTN_PIN_UPDATE (R379): HOST_ATTN_N and its mirror in the control page follow the masked pending bits within 8 cycles. -/
  | attnPinUpdate
  /-- RING_POLL (R373): At most every POLL_US, firmware reads each ring pair's REQ_PROD, detects overruns and takes new entries. -/
  | ringPoll (r : Nat)
  /-- RESULT_PUBLISH (R376): Once REL allows and the scan found no poison, firmware writes the slot header, payload, header again and PUB. -/
  | resultPublish (k : Nat)
  /-- RESULT_RELEASE (R378): Firmware takes a host REL write, ignoring an invalid one with RESULT_RELEASE_INVALID. -/
  | resultRelease (k : Nat)
  /-- NEGOTIATE (R387): Agrees a protocol version and a feature intersection for the ring pair. -/
  | negotiate (r : Nat)
  /-- GET_INFO (R389): Returns firmware version, state, chip, shape class, admitted jobs, energy and time. -/
  | getInfo (r : Nat)
  /-- SET_LOG (R413): Sets the log attention threshold and the trace mask. -/
  | setLog (r : Nat)
  /-- OBJ_OPEN (R389): Opens a firmware or bundle object of a given length. -/
  | objOpen (r base : Nat)
  /-- OBJ_WRITE (R389): Copies a chunk into an object with the chip DMA. -/
  | objWrite (r : Nat)
  /-- OBJ_CLOSE (R389): Closes an object, verifying a firmware image or pinning a DRAM payload. -/
  | objClose (r : Nat)
  /-- OBJ_FREE (R494): Frees an object, unpinning its region once its reads complete. -/
  | objFree (r : Nat)
  /-- FW_ACTIVATE (R411): Builds a commit group that activates firmware, or writes flash, or starts the service cores, according to the object's class. -/
  | fwActivate (r : Nat)
  /-- PROGRAM_START (R390): Loads a bundle as the engine's program, checks partitions, runs the scan, and enables the engine when the last bar has CG = 1. -/
  | programStart (r : Nat) (srcs : List (Nat × Nat))
  /-- PROGRAM_STOP (R392): Parks and disables the engine and aborts every job of the program. -/
  | programStop (r : Nat)
  /-- JOB_SUBMIT (R394): Admits a job to its partition's queue or refuses it. -/
  | jobSubmit (r : Nat)
  /-- JOB_ABORT (R398): Aborts a queued job at once, or a running job at the next pass boundary. -/
  | jobAbort (r : Nat)
  /-- JOB_QUERY (R396): Returns a job's state, passes, epoch and energy. -/
  | jobQuery (r : Nat)
  /-- JOB_BIND (R395): Sets the job register of a codec session, camera stream or DMA channel. -/
  | jobBind (r : Nat)
  /-- CG_OPEN (R405): Opens a commit group with a point and a timeout. -/
  | cgOpen (r : Nat)
  /-- CG_STAGE (R405): Adds one to three actions to an open commit group. -/
  | cgStage (r : Nat)
  /-- CG_COMMIT (R411): Prepares a commit group and answers when it is armed or aborted. -/
  | cgCommit (r : Nat)
  /-- CG_CANCEL (R410): Aborts a commit group that has not applied. -/
  | cgCancel (r : Nat)
  /-- DEBUG_SNAPSHOT (R460): Copies a killed job's held snapshot under the debug privilege. -/
  | debugSnapshot (r : Nat)
  /-- FLASH_READ (R505): Reads a partition of the boot flash to a destination. -/
  | flashRead (r : Nat)
  /-- ROLLBACK_ADVANCE (R496): Blows roll-back fuse bits up to the version of the class's image in use. -/
  | rollbackAdvance (r : Nat)
  /-- KEY_REVOKE (R497): Blows a key slot's REVOKE fuse from a signed revocation object. -/
  | keyRevoke (r : Nat)
  /-- ATTEST (R503): Writes a signed attestation report over a nonce. -/
  | attest (r : Nat)
  /-- DEBUG_GRANT (R504): Grants the debug privilege for this boot from a signed token. -/
  | debugGrant (r : Nat)
  /-- PASS_BOUNDARY (R397): At the last bar's release, firmware reads counters, publishes pass results, and switches or ends jobs. -/
  | passBoundary
  /-- JOB_SWITCH_IDLE (R391): With CG = 0, when the program is idle and a job is queued, firmware installs jobs per partition and enables the engine. -/
  | jobSwitchIdle
  /-- DEADLINE_TIMER (R399): When a pass's deadline timer fires before the pass meets its deadline, firmware logs, posts and counts the miss, and aborts the job if so set. -/
  | deadlineTimer (id : Nat)
  /-- JOB_KILL (R398): Firmware kills a job that consumed poison or owns a fault, starting its kill scrub. -/
  | jobKill (id code : Nat)
  /-- CG_PREPARE (R408): Writing CP_CGg_CTL.PREPARE sends each action to its island for checking. -/
  | cgPrepare (g : Nat)
  /-- CG_ISLAND_ANSWER (R408): An island checks its actions and acknowledges or refuses within 64 cycles; all acknowledgements arm the group. -/
  | cgIslandAnswer (g ix : Nat)
  /-- CG_PREPARE_TIMEOUT (R408): A group not fully answered 100 µs after PREPARE aborts. -/
  | cgPrepareTimeout (g : Nat)
  /-- CG_APPLY (R410): At its point, an armed group's actions apply in each island, and a COMMIT event is posted. -/
  | cgApply (g : Nat)
  /-- CG_POINT_TIMEOUT (R410): An armed group whose TIMEOUT_US elapses before its point aborts. -/
  | cgPointTimeout (g : Nat)
  /-- CG_CANCEL_WRITE (R410): Writing CP_CGg_CTL.CANCEL aborts a group that has not applied. -/
  | cgCancelWrite (g : Nat)
  /-- FLIT_RECEIVE (R423): A receiver checks a flit's CRC and sequence, accepts its segments, forwards or sinks them, or requests replay with NAK. -/
  | flitReceive (l : Nat) (f : Flit)
  /-- LINK_REPLAY (R423): On NAK, the transmitter resends from ACK + 1 and advances RETRY_CNT. -/
  | linkReplay (l : Nat)
  /-- LINK_DOWN (R424): On 10 µs without a good flit, repeated replays, lane loss or authentication failures, the link goes down, refuses held segments and retrains. -/
  | linkDown (l code : Nat)
  /-- LANE_RETIRE (R426): A lane that loses lock or shows parity errors is retired and the direction retrains on the remaining lanes. -/
  | laneRetire (l lane : Nat)
  /-- LINK_TRAINED (R428): When a link finishes training, it enters ELECT and the two chips resolve membership. -/
  | linkTrained (l lanes : Nat) (peer : Ctrl)
  /-- PROBE (R429): The Headland probes a new chip. -/
  | probe (via : Option Nat) (c : Nat)
  /-- IDENT (R429): A chip reports its serial, class, firmware and staging area to the Headland. -/
  | ident (via : Option Nat) (ver base mib : Nat)
  /-- ASSIGN (R430): The Headland assigns a chip number, which the chip accepts or defers while its engine runs. -/
  | assign (ix : Nat)
  /-- ROUTES (R430): The Headland sends the route table, which the chip writes to DDL_ROUTEc. -/
  | routes (c : Nat) (tbl : List Nat)
  /-- WIN_OPEN (R432): A chip grants a firewall region as target, or enables a window as source. -/
  | winOpen (src dst : Nat) (rd' wr' : Bool) (base size : Nat)
  /-- WIN_CLOSE (R432): A chip closes a window as source, or removes a grant as target. -/
  | winClose (src dst base size : Nat)
  /-- MGMT_ACK (R429): An acknowledgement of a MGMT message, with a code and an index. -/
  | mgmtAck
  /-- LEAVE (R431): A chip tells the Headland that it leaves the system. -/
  | leave
  /-- MGMT_RESEND (R429): A MGMT message not acknowledged within 1 ms is resent, up to 3 times. -/
  | mgmtResend (ix : Nat)
  /-- CHIP_DEPART (R431): After 10 ms without a route to a chip, the Headland removes it from routes and closes its windows. -/
  | chipDepart (c : Nat)
  /-- HEADLAND_ELECTION (R431): After 10 ms without a route to the Headland, the Skerries elect a new Headland. -/
  | headlandElection (cands : List (Nat × Nat × Nat))
  /-- LONE_TIMEOUT (R431): A chip with no active link for 10 ms closes its windows and becomes lone. -/
  | loneTimeout
  /-- OP_TIMEOUT (R433): A remote operation with no response within DDL_OPTO completes as refused. -/
  | opTimeout (tag : Nat)
  /-- KEY_SLOT_LOAD (R439): Writing KEYl_k_CTL.VALID loads the key slot and restarts its flit count. -/
  | keySlotLoad (l k : Nat)
  /-- CANARY_TILE (R444): Every INTERVAL, a canary tile runs on a candidate core and its plane is compared with a checker's golden plane. -/
  | canaryTile (n c : Nat) (col : Option Nat) (second : Option (Nat × Bool)) (left : List (Nat × Word))
  /-- DUAL_RUN_COMPARE (R447): After both passes complete, firmware compares the primary's and twin's results and posts events on a mismatch. -/
  | dualRunCompare (id : Nat)
  /-- EVENT_CLASSIFY (R452): Firmware classifies a health event against the journal and acts on a permanent class. -/
  | eventClassify
  /-- JOURNAL_WRITE (R449): The root core writes a handed record to the flash journal within 50 ms. -/
  | journalWrite
  /-- JOURNAL_SEAL (R450): The root core signs a segment when it is full. -/
  | journalSeal
  /-- RAS_RETIRE (R453): Writing a retire bit removes a core, cluster store or pipe from service and changes the shape class. -/
  | rasRetire (kind mask : Nat)
  /-- VARIANT_SWITCH (R454): A class change during a program makes firmware migrate to the new variant, or stop the program. -/
  | variantSwitch (srcs : List (Nat × Nat))
  /-- ISLAND_REJOIN (R457): An island that slept or was reset compares epochs, and rejoins or is quarantined. -/
  | islandRejoin (ix : Nat) (lost : Bool)
  /-- QUARANTINE_RELEASE (R457): Writing RAS_QUAR_REL releases an island if its epochs match. -/
  | quarantineRelease (mask : Nat)
  /-- KILL_SCRUB (R458): The RAS block zero-fills the killed partition's memories, optionally snapshotting them. -/
  | killScrub (m : Nat)
  /-- KILL_SCRUB_DONE (R458): When a memory's scrub completes, its slots become EMPTY and its RAS_KSCRUB bit clears. -/
  | killScrubDone (m : Nat)
  /-- SNAP_HELD_CLEAR (R460): Writing HELD := 0 frees the snapshot buffer. -/
  | snapHeldClear
  /-- CANARY_ENABLE (R463): Setting RAS_CANARY_CTL.EN draws a new canary seed and starts canary tiles. -/
  | canaryEnable (interval : Nat)
  /-- CMP_START (R464): Writing RAS_CMP_CTL.START compares two ranges word by word. -/
  | cmpStart
  /-- CMP_DONE (R464): The comparator ends, setting DIFF and FIRST. -/
  | cmpDone (far : List (Option (List Byte × Bool)))
  /-- LOCKSTEP_MISMATCH (R461): On a lockstep mismatch, the root core holds the control processor, stops the engine, enters Lowwater and starts the restart monitor. -/
  | lockstepMismatch
  /-- MODE_WRITE (R467): Writing PWR_CTL.MODE runs the mode check and applies the mode's cap, ceiling, clocks, links and DDR rate. -/
  | modeWrite (m : Nat)
  /-- TELEMETRY_SAMPLE (R469): Every 100 µs, the PWR block reads VOUT and IOUT of each rail and latches VR_FAULT on a fault bit. -/
  | telemetrySample (rails : List (Option (Nat × Nat) × Bool))
  /-- TELEMETRY_LOST (R470): A rail with no valid sample for 1 ms latches TELEMETRY. -/
  | telemetryLost (r : Nat)
  /-- CAPPING_LOOP_UPDATE (R472): Every 250 µs, the loop sets the issue rate R from mean power, the effective cap and observed demand. -/
  | cappingLoopUpdate (obs : Nat)
  /-- DROOP_TRIP (R473): A droop trip halves a cluster's rate and bucket within 3 ec. -/
  | droopTrip (k : Nat)
  /-- DROOP_RISE_STEP (R473): Every 62 beats after a trip, the droop rate rises by R >> 4. -/
  | droopRiseStep (k : Nat)
  /-- TEMPERATURE_SAMPLE (R474): Every 10 µs, the sensors are read, giving Tj, which drives the thermal cap and the THERMAL latch. -/
  | temperatureSample (temps : List Int)
  /-- THERMAL_TRIP (R475): At Tj of 115 °C or more, every island clock stops except root, and THERMTRIP_N goes low. -/
  | thermalTrip
  /-- EMERGENCY_LATCH (R476): An emergency condition latches a PWR_EMERG bit and forces every issue ceiling to 77. -/
  | emergencyLatch (ix : Nat)
  /-- EMERGENCY_CLEARABLE (R477): A latched bit becomes clearable after its condition has been absent for 10 ms. -/
  | emergencyClearable (ix : Nat)
  /-- EMERGENCY_CLEAR (R477): A W1C write clears clearable emergency bits. -/
  | emergencyClear (m : Nat)
  /-- ENERGY_RECONCILE (R479): Every 1 ms, firmware divides measured energy among jobs by activity. -/
  | energyReconcile
  /-- ROM_BOOT (R486): After every chip reset, the root ROM sets the firewall, tries boot sources, checks the image, derives the identity and releases the control processor. -/
  | romBoot
  /-- BOOT_REQ (R485): The ROM takes a host boot request, copies and checks the image, and answers in BOOT_STAT. -/
  | bootReq (tftp : Option Nat)
  /-- BOOT_SOURCE_TIMEOUT (R483): A boot source gives up after its time without a request, and the next source is tried. -/
  | bootSourceTimeout
  /-- RECOVERY_ACTIVATE (R501): The recovery monitor writes a checked boot image to flash and resets, or boots it directly. -/
  | recoveryActivate (r : Nat)
  /-- RESTART_ACTIVATE (R461): The restart monitor activates checked service firmware and releases the control processor. -/
  | restartActivate (r : Nat)
  /-- SERVICE_CORE_START (R511): Firmware copies a class 2 image and releases the 8 harts at entry 0. -/
  | serviceCoreStart
  /-- SVC_IRQ_SET (R512): Writing ETH_SVC_IRQ_SET raises interrupt source 1 of the service cores. -/
  | svcIrqSet
  /-- TIM_STEP (R514): Writing TIM_STEP_HI adds the signed step to the system time and sets STEPPED. -/
  | timStep (hi : Nat)
  /-- TSYNC_REQ (R515): Every PERIOD ms, a child sends a time request to its parent. -/
  | tsyncReq
  /-- TSYNC_RSP (R515): The child takes the parent's response and steps the time or adjusts RATE. -/
  | tsyncRsp
  /-- ETH_TX_DESCRIPTOR (R516): A port sends the frame of the next TX descriptor, with timestamping or one-step PTP, and writes it back. -/
  | ethTxDescriptor (p : Nat)
  /-- ETH_RX_FRAME (R516): A received frame is stored in the next RX descriptor with its timestamp, or dropped on a bad FCS or with no descriptor. -/
  | ethRxFrame (p : Nat) (f : List Byte) (badFcs : Bool) (ago : Nat)
  /-- TRIGGER_INPUT_EDGE (R518): A stable qualifying edge on an input records a timestamped event. -/
  | triggerInputEdge (ix : Nat) (rising : Bool) (ago : Nat)
  /-- TRIGGER_PULSE (R519): An output drives a scheduled or linked pulse at its time, or counts a miss. -/
  | triggerPulse (o : Nat)
  /-- TRIGGER_OUTPUT_ENABLE (R519): Enabling an output schedules its next pulse on the grid; disabling it takes effect at the end of a pulse. -/
  | triggerOutputEnable (o : Nat) (on : Bool)
  /-- SIO_START (R520): An I2C or SPI START command. -/
  | sioStart (ch : Nat) (err : Option Nat)
  /-- SIO_WRITE (R520): An I2C or SPI byte write command. -/
  | sioWrite (ch : Nat) (err : Option Nat)
  /-- SIO_READ (R520): An I2C or SPI byte read command, with its byte entering the RX FIFO. -/
  | sioRead (ch : Nat) (b : Byte) (err : Option Nat)
  /-- SIO_STOP (R520): An I2C or SPI STOP command. -/
  | sioStop (ch : Nat)
  /-- I2C_TIMEOUT (R520): A clock stretch beyond 25 ms sets TIMEOUT, discards commands up to the next START and issues STOP. -/
  | i2cTimeout (ch : Nat)
  /-- POWER_ON_RESET (R528): PORST_N low or loss of VDD_AON resets everything except the trip record. -/
  | powerOnReset (aon : Bool)
  /-- CHIP_RESET (R537): RST_N, TOP_RST_CTL.CHIP or REFCLK loss resets every island, zeroes the SRAMs, clears the locks and runs the reset sequence. -/
  | chipReset (pin : Bool)
  /-- CLK_LOST (R527): REFCLK missing for 2 µs causes a chip reset with cause CLK_LOST. -/
  | clkLost
  /-- PLL_LOCK_LOSS (R527): A PLL losing lock holds its island's beats until it relocks. -/
  | pllLockLoss (ix : Nat)
  /-- ISLAND_RESET (R530): Setting a TOP_ISL_RST bit holds an island in reset and initialises its state. -/
  | islandReset (mask : Nat)
  /-- ISLAND_RESET_RELEASE (R530): Clearing the bit lets the island leave reset within 60 µs and rejoin. -/
  | islandResetRelease (ix : Nat)
  /-- FLIT_TRANSMIT (R419): In each flit time the link transmitter forms and sends a DATA flit of queued segments for which it holds credit, or a CTRL flit after 59 DATA flits or when no DATA flit is ready. -/
  | flitTransmit (l : Nat)
  /-- LINK_TRAIN_FAILED (R417): A training attempt that does not complete logs LINK_TRAIN_FAILED, advances LINKl_TRAIN_FAIL_CNT, and training is repeated 100 ms later while EN = 1. -/
  | linkTrainFailed (l : Nat)
  /-- LINK_RETRAIN_DONE (R426): A direction that retrains on its remaining lanes after a lane retirement returns to ACTIVE with the new LANES value and the transmitter replays from ACK + 1. -/
  | linkRetrainDone (l : Nat)
  /-- ASSIGN_RETRY (R430): Every 100 ms the Headland retries ASSIGN to a chip that deferred it, or probes again a chip left unassigned while all 63 numbers were in use. -/
  | assignRetry (ix : Nat)
  /-- ETH_LINK_CHANGE (R516): An Ethernet port's link comes up, completing auto-negotiation where used, or goes down, updating ETH_Pp_STATUS.LINK and AN_DONE. -/
  | ethLinkChange (p : Nat) (up : Bool)
  /-- LPDDR_TRAINING_COMMAND (R358): A host training command (command-bus training, WCK2CK leveling, read DQ calibration, WRITE-FIFO or READ-FIFO) is answered, and completing WCK2CK leveling sets HPT_CHc_MODE.TRAINED. -/
  | lpddrTrainingCommand (c kind : Nat) (bs : List Byte) (early : Bool)
  /-- PLL_RELOCK (R527): A PLL that lost lock relocks, TOP_PLL_LOCK sets its bit again, and its island resumes advancing beats. -/
  | pllRelock (ix n : Nat)
  /-- REFCLK_RETURN (R527): Once REFCLK has run for 100 µs after a loss, the chip reset taken for CLK_LOST ends and the reset sequence proceeds. -/
  | refclkReturn
  /-- RESET_DEASSERT (R529): The rising edge of PORST_N or RST_N, the later one if both were low, latches the straps and starts the reset sequence that leads to reset release. -/
  | resetDeassert (straps : Nat) (testen : Bool)
  /-- SHALLOWS_START (R500): Boot firmware, once released, enables MEM, selects a healthy single-cluster variant of the Shallows bundle from DEST 2, refuses it with BUNDLE_FORMAT if it breaks the limits, or starts it. -/
  | shallowsStart (srcs : List (Nat × Nat)) (rsrc rlen : Nat)
  /-- MEM_CE_POLL (R448): At least every second, firmware reads the differences of MEM_CE_s_d and classifies the corrected DRAM symbols they count. -/
  | memCePoll
  deriving DecidableEq, Repr

end Sys2Proof
end

