-- ==== Sys2Proof/Decode.lean ====
section
/-! DEFINITION. The word that spells a command. The spec's table of operations gives its rows no bits (R82 and R128 lay
fields of a bar slot down; the commands of this block come from many senders), so no word spells a command. -/

namespace Sys2Proof

/-- The command that a word spells by the table's bits: none, for no row of the table has bits. -/
def decodeTableWord (_nbits _w : Nat) : Option Instr := none

end Sys2Proof
end

