-- ==== Sys2Proof/Config.lean ====
section
/-! DEFINITION. What an implementation fixes and the spec leaves open: constants without a body, so that nothing can
evaluate them and every statement holds whatever they are. -/

namespace Sys2Proof

/-- A free 32-bit value, fresh for each count of the state's counter.
Assumption log: 2 (DESIGN CHOICE). -/
opaque Config.freeWord : Nat → Word

/-- A free number, fresh for each count of the state's counter.
Assumption log: 2 (DESIGN CHOICE). -/
opaque Config.freeNat : Nat → Nat

/-- The bytes of the root ROM, which the spec does not list (R486).
Assumption log: 48 (DESIGN CHOICE). -/
opaque Config.romByte : Nat → Byte

/-- R346: how an event names its consumption point, in the order of Table 12.7; the spec gives the points no numbers.
Assumption log: 49 (DESIGN CHOICE). -/
opaque Config.pointCode : Nat → Nat

/-- R420: the issuer within its chip that an operation tag of another chip stands for; the spec gives TAG no layout.
Assumption log: 49 (DESIGN CHOICE). -/
opaque Config.tagIssuer : Nat → Nat

/-- R488, R489, R494: the first 64 bytes of SHAKE256 of a byte string.
Assumption log: 47 (DESIGN CHOICE). -/
opaque Config.shake : List Byte → List Byte

/-- R296: the fixed inverse of the CSC matrix, which the spec does not list: R, G and B of 16-bit Y, U and V.
Assumption log: 49 (DESIGN CHOICE). -/
opaque Config.yuvToRgb : Nat → Nat → Nat → Nat × Nat × Nat

/-- Table 11.5: the coefficients of MATRIX = 3, which the spec reserves.
Assumption log: 49 (DESIGN CHOICE). -/
opaque Config.matrix3 : Nat → Int

/-- R359: the bits of a mode register that enable a feature outside Table 13.1, by JESD209-5B.
Assumption log: 49 (DESIGN CHOICE). -/
opaque Config.mrUnsupported : Nat → Byte

/-- HPT_CHc_MODE but for TRAINED, as the mode registers of JESD209-5B set it.
Assumption log: 49 (DESIGN CHOICE). -/
opaque Config.modeOf : (Nat → Byte) → Word

/-- R359: MR8, and MR4 for normal and for twice the refresh rate, with TUF, by JESD209-5B.
Assumption log: 49 (DESIGN CHOICE). -/
opaque Config.mr8 : Byte

/-- R359: MR4: whether at or above 85 degrees, and TUF.
Assumption log: 49 (DESIGN CHOICE). -/
opaque Config.mr4 : Bool → Bool → Byte

/-- R484: what a byte of boot flash (false NOR, true eMMC) holds that the device has not written.
Assumption log: 48 (DESIGN CHOICE). -/
opaque Config.flashByte : Bool → Nat → Byte

/-- R489: KEY_DIGESTk, as Gelostoux blew it.
Assumption log: 48 (DESIGN CHOICE). -/
opaque Config.keyDigest : Nat → List Byte

/-- R489: KEY_PERMk.
Assumption log: 48 (DESIGN CHOICE). -/
opaque Config.keyPerm : Nat → Nat

/-- R482: the fuse BOOT_OVR: bit 3 VALID, bits 2:0 ORDER.
Assumption log: 48 (DESIGN CHOICE). -/
opaque Config.bootOvr : Nat

/-- R502: the device secret fuses.
Assumption log: 48 (DESIGN CHOICE). -/
opaque Config.deviceSecret : List Byte

/-- Falcon-1024: whether a signature (third) of a message (second) verifies under a public key (first).
Assumption log: 47 (DESIGN CHOICE). -/
opaque Config.falconVerify : List Byte → List Byte → List Byte → Bool

/-- Falcon-1024: the signature of a message (second) under the key pair of a seed (first).
Assumption log: 47 (DESIGN CHOICE). -/
opaque Config.falconSign : List Byte → List Byte → List Byte

/-- Falcon-1024: the public key of a seed.
Assumption log: 47 (DESIGN CHOICE). -/
opaque Config.falconPub : List Byte → List Byte

/-- R384: the feature map that the running service image supports.
Assumption log: 49 (DESIGN CHOICE). -/
opaque Config.imageFeatures : Nat

/-- R387: the protocol range of boot firmware and of the monitors, which the spec does not state.
Assumption log: 49 (DESIGN CHOICE). -/
opaque Config.bootProto : Nat × Nat

/-- R389: FW_VERSION of GET_INFO, for each FW_STATE.
Assumption log: 49 (DESIGN CHOICE). -/
opaque Config.fwVersion : Nat → Nat

/-- R251, R397: where the bundle of a program (its BUNDLE_ID) keeps the generator record of a partition's next job; the
spec does not say how the bundle names it.
Assumption log: 49 (DESIGN CHOICE). -/
opaque Config.genRecord : Nat → Nat → Nat

/-- R446: the twin of a partition and the offset of the twin's result address, as the symbol table of the bundle with a
BUNDLE_ID declares them; the spec gives the symbol table no layout.
Assumption log: 49 (DESIGN CHOICE). -/
opaque Config.twinOf : Nat → Nat → Option (Nat × Int)

/-- R479: COEF of the calibration record, in pJ per unit, for each mode and event.
Assumption log: 48 (DESIGN CHOICE). -/
opaque Config.energyCoef : Nat → Nat → Nat

/-- R479: IDLE of the calibration record, in nJ per ms, for each mode, over Tj.
Assumption log: 48 (DESIGN CHOICE). -/
opaque Config.energyIdle : Nat → Word → Nat

/-- R520: the entries of a serial controller's RX FIFO, which the spec does not state.
Assumption log: 49 (DESIGN CHOICE). -/
opaque Config.sioRxDepth : Nat

/-- R535: the order code of the part (0 ZK96-C, 1 ZK96-I), from fuses.
Assumption log: 48 (DESIGN CHOICE). -/
opaque Config.grade : Nat

/-- R427: the SERIAL of the part, from fuses.
Assumption log: 48 (DESIGN CHOICE). -/
opaque Config.serial : Nat

/-- The results channels and the result slots that firmware sets up, which the spec leaves to it (R375): how many channels, and
for each channel a number that fixes its NSLOT and one that fixes its SLOT_SIZE.
Assumption log: 43 (DESIGN CHOICE). -/
opaque Config.results : Nat
/-- See `results`.
Assumption log: 43 (DESIGN CHOICE). -/
opaque Config.slotsOf : Nat → Nat × Nat

end Sys2Proof
end

