-- ==== Sys2Proof/Machine/Bits.lean ====
section
/-! DEFINITION. Bit fields, sign extension and byte order (R4), the helpers every encoding uses. -/

namespace Sys2Proof.Machine

/-- Bits `lo .. lo+n-1` of a number. -/
def bitsN (x lo n : Nat) : Nat := x / 2 ^ lo % 2 ^ n

/-- Bit `i` of a number. -/
def bitN (x i : Nat) : Bool := x / 2 ^ i % 2 == 1

/-- A Bool as a bit. -/
def b2n (b : Bool) : Nat := if b then 1 else 0

/-- The field `[hi:lo]` of a register value. -/
def fld (w : Word) (hi lo : Nat) : Nat := w.toNat / 2 ^ lo % 2 ^ (hi + 1 - lo)

/-- One bit of a register value. -/
def bit (w : Word) (i : Nat) : Bool := w.toNat / 2 ^ i % 2 == 1

/-- A register value with the field `[hi:lo]` replaced. -/
def setFld (w : Word) (hi lo : Nat) (v : Nat) : Word :=
  let m := 2 ^ (hi + 1 - lo)
  BitVec.ofNat 32 (w.toNat - w.toNat / 2 ^ lo % m * 2 ^ lo + v % m * 2 ^ lo)

/-- A register value with one bit replaced. -/
def setBit (w : Word) (i : Nat) (b : Bool) : Word := setFld w i i (b2n b)

/-- The two's complement value of the low `n` bits of a number. -/
def sextN (n x : Nat) : Int :=
  let y := x % 2 ^ n
  if y < 2 ^ (n - 1) then (y : Int) else (y : Int) - (2 ^ n : Nat)

/-- The low `n` bits of an integer, as a number (two's complement). -/
def truncI (n : Nat) (x : Int) : Nat := (x % (2 ^ n : Nat)).toNat

/-- Little-endian bytes to a number (R4). -/
def leNat : List Byte → Nat
  | [] => 0
  | b :: bs => b.toNat + 256 * leNat bs

/-- A number as `n` little-endian bytes (R4). -/
def leBytes : Nat → Nat → List Byte
  | 0, _ => []
  | n + 1, x => BitVec.ofNat 8 x :: leBytes n (x / 256)

/-- The run `[a, a+n)` of a list. -/
def slice {α : Type} (l : List α) (a n : Nat) : List α := (l.drop a).take n

/-- Little-endian number at byte offset `off`, `n` bytes, of a record. -/
def leAt (l : List Byte) (off n : Nat) : Nat := leNat (slice l off n)

/-- A byte of a list, 0 past its end. -/
def byteAt (l : List Byte) (i : Nat) : Byte := l.getD i 0

/-- Least number of `q` steps covering `x`. -/
def cdiv (x q : Nat) : Nat := if q = 0 then 0 else (x + q - 1) / q

/-- The natural numbers below `n`, rising. -/
def upto (n : Nat) : List Nat := List.range n

/-- A list with element `i` replaced. -/
def setAt {α : Type} (l : List α) (i : Nat) (a : α) : List α := l.set i a

/-- A list with element `i` changed. -/
def modAt {α : Type} (l : List α) (i : Nat) (f : α → α) : List α := l.modify i f

/-- Reading little-endian words of 4 bytes. -/
def leWords : List Byte → List Nat
  | a :: b :: c :: d :: t => leNat [a, b, c, d] :: leWords t
  | _ => []

/-- The number of set bits among the low `n`. -/
def popN : Nat → Nat → Nat
  | 0, _ => 0
  | n + 1, x => x % 2 + popN n (x / 2)

/-- The lowest set bit among bits `i .. i+n-1`, if any. -/
def lowBit (x : Nat) : Nat → Nat → Option Nat
  | 0, _ => none
  | n + 1, i => if bitN x i then some i else lowBit x n (i + 1)

/-- The set bits among the low `n`, rising. -/
def bitList (n x : Nat) : List Nat := (List.range n).filter fun i => bitN x i

end Sys2Proof.Machine
end

