-- ==== Sys2Proof/Machine/RegMap.lean ====
section
/-! DEFINITION. The register map: one row per register of the spec's register tables (00 Table 0.4 and Table 0.5,
and the register section of every chapter), with the access type of each bit (R11) and the reset value. -/

namespace Sys2Proof.Machine

/-- One register row: its offset in the block, its array dimensions (stride, count) from the outermost inwards, the
offset of the enable register that guards its static fields where that is not `<BLK>_CTL` (bit 31 of the same
instance), the masks of its RW live, RW static, RW staged, W1C, W1S, WO and RO bits, and the reset value. -/
structure RegRow where
  off : Nat
  dims : List (Nat × Nat)
  guard : Option Nat
  live : Nat
  stat : Nat
  staged : Nat
  w1c : Nat
  w1s : Nat
  wo : Nat
  ro : Nat
  reset : Nat
  deriving DecidableEq, Repr

/-- The blocks of Table 0.4. -/
inductive Blk where
  | top
  | cp
  | eng
  | clu
  | nc
  | dma
  | mem
  | hpt
  | csi
  | isp
  | vid
  | shp
  | ddl
  | pwr
  | ras
  | sec
  | boot
  | eth
  | tim
  | trg
  | sio
  deriving DecidableEq, Repr

/-- Table 0.4: which block an index names. -/
def blkOf (k : Nat) : Option Blk :=
  if k = 0x0 then some .top else
  if k = 0x1 then some .cp else
  if k = 0x2 then some .eng else
  if 0x10 ≤ k ∧ k < 0x18 then some .clu else
  if 0x20 ≤ k ∧ k < 0x40 then some .nc else
  if k = 0x40 then some .dma else
  if k = 0x48 then some .mem else
  if k = 0x50 then some .hpt else
  if k = 0x58 then some .csi else
  if k = 0x5C then some .isp else
  if k = 0x60 then some .vid else
  if k = 0x64 then some .shp else
  if k = 0x68 then some .ddl else
  if k = 0x70 then some .pwr else
  if k = 0x74 then some .ras else
  if k = 0x78 then some .sec else
  if k = 0x79 then some .boot else
  if k = 0x7C then some .eth else
  if k = 0x7D then some .tim else
  if k = 0x7E then some .trg else
  if k = 0x7F then some .sio else
  none

/-- The rows of block TOP (chapter 00, R10). -/
def rowsTop : List RegRow :=
  [⟨0x4, [], none, 0x1, 0x0, 0x0, 0x0, 0x0, 0x0, 0x0, 0x0⟩ /- TOP_CTL -/,
   ⟨0x8, [], none, 0x0, 0x0, 0x0, 0x80000000, 0x0, 0x0, 0x4000FF00, 0x0⟩ /- TOP_STATUS -/,
   ⟨0x40, [], none, 0x0, 0x0, 0x0, 0x0, 0x0, 0x0, 0xFFFFFFFF, 0x0⟩ /- TOP_BADACC_CNT -/,
   ⟨0x10, [], none, 0x0, 0x0, 0x0, 0x0, 0x0, 0x0, 0x1F, 0x0⟩ /- TOP_RST_CAUSE -/,
   ⟨0x14, [], none, 0x2, 0x0, 0x0, 0x0, 0x0, 0xFFFF0001, 0x0, 0x0⟩ /- TOP_RST_CTL -/,
   ⟨0x18, [], none, 0x2FFF, 0x0, 0x0, 0x0, 0x0, 0x0, 0x0, 0x0⟩ /- TOP_ISL_RST -/,
   ⟨0x1C, [], none, 0x0, 0x0, 0x0, 0x0, 0x0, 0x0, 0x1, 0x0⟩ /- TOP_GRADE -/,
   ⟨0x20, [], none, 0x0, 0x0, 0x0, 0x0, 0x0, 0x0, 0x7FFF, 0x0⟩ /- TOP_PLL_LOCK -/]

/-- The rows of block CP (chapter 14, R10). -/
def rowsCp : List RegRow :=
  [⟨0x4, [], none, 0x1, 0x0, 0x0, 0x0, 0x0, 0x0, 0x0, 0x0⟩ /- CP_CTL -/,
   ⟨0x8, [], none, 0x0, 0x0, 0x0, 0x80000001, 0x0, 0x0, 0x4000FF00, 0x0⟩ /- CP_STATUS -/,
   ⟨0x10, [], none, 0x0, 0x0, 0x0, 0x0, 0x0, 0x0, 0xFFFFFFFF, 0x0⟩ /- CP_PASS_TS_LO -/,
   ⟨0x14, [], none, 0x0, 0x0, 0x0, 0x0, 0x0, 0x0, 0xFFFFFFFF, 0x0⟩ /- CP_PASS_TS_HI -/,
   ⟨0x18, [], none, 0x0, 0x0, 0x0, 0x0, 0x0, 0x0, 0xFFFFFFFF, 0x0⟩ /- CP_PASS_CNT -/,
   ⟨0x20, [], none, 0xFFFC0, 0x0, 0x0, 0x0, 0x0, 0x0, 0x0, 0x0⟩ /- CP_SVC_PAGE -/,
   ⟨0x30, [], none, 0x0, 0x0, 0x0, 0x0, 0x0, 0x0, 0xFFFFFFFF, 0x0⟩ /- CP_CG_APPLY_CNT -/,
   ⟨0x34, [], none, 0x0, 0x0, 0x0, 0x0, 0x0, 0x0, 0xFFFFFFFF, 0x0⟩ /- CP_CG_ABORT_CNT -/,
   ⟨0x40, [], none, 0x0, 0x0, 0x0, 0x0, 0x0, 0xFFFF, 0x0, 0x0⟩ /- CP_FW_ACT -/,
   ⟨0x400, [(0x4, 8)], none, 0xFFF, 0x0, 0x0, 0x0, 0x0, 0x0, 0x0, 0x0⟩ /- CP_JOB_CLk -/,
   ⟨0x420, [(0x4, 8)], none, 0xFFF, 0x0, 0x0, 0x0, 0x0, 0x0, 0x0, 0x0⟩ /- CP_JOB_DMAn -/,
   ⟨0x440, [(0x4, 32)], none, 0xFFF, 0x0, 0x0, 0x0, 0x0, 0x0, 0x0, 0x0⟩ /- CP_JOB_VIDs -/,
   ⟨0x4C0, [(0x4, 48)], none, 0xFFF, 0x0, 0x0, 0x0, 0x0, 0x0, 0x0, 0x0⟩ /- CP_JOB_CSIm -/,
   ⟨0x1000, [(0x400, 16)], none, 0x3F, 0x0, 0x0, 0x0, 0xC0000000, 0x0, 0x38FF0F00, 0xF00⟩ /- CP_CGg_CTL -/,
   ⟨0x1004, [(0x400, 16)], none, 0xC00FFFFF, 0x0, 0x0, 0x0, 0x0, 0x0, 0x0, 0x0⟩ /- CP_CGg_POINT -/,
   ⟨0x1008, [(0x400, 16)], none, 0xFFFFFF, 0x0, 0x0, 0x0, 0x0, 0x0, 0x0, 0x0⟩ /- CP_CGg_TIMEOUT -/,
   ⟨0x1010, [(0x400, 16)], none, 0x0, 0x0, 0x0, 0x0, 0x0, 0x0, 0xFFFFFFFF, 0x0⟩ /- CP_CGg_TS_LO -/,
   ⟨0x1014, [(0x400, 16)], none, 0x0, 0x0, 0x0, 0x0, 0x0, 0x0, 0xFFFFFFFF, 0x0⟩ /- CP_CGg_TS_HI -/,
   ⟨0x1100, [(0x400, 16), (0xC, 64)], none, 0x7FFFFFC, 0x0, 0x0, 0x0, 0x0, 0x0, 0x0, 0x0⟩ /- CP_CGg_ADDRi -/,
   ⟨0x1104, [(0x400, 16), (0xC, 64)], none, 0xFFFFFFFF, 0x0, 0x0, 0x0, 0x0, 0x0, 0x0, 0x0⟩ /- CP_CGg_VALUEi -/] ++
  [⟨0x1108, [(0x400, 16), (0xC, 64)], none, 0xFFFFFFFF, 0x0, 0x0, 0x0, 0x0, 0x0, 0x0, 0x0⟩ /- CP_CGg_MASKi -/]

/-- The rows of block ENG (chapter 03, R10). -/
def rowsEng : List RegRow :=
  [⟨0x4, [], none, 0x5, 0xFF00, 0x0, 0x0, 0x0, 0x0, 0x0, 0x0⟩ /- ENG_CTL -/,
   ⟨0x8, [], none, 0x0, 0x0, 0x0, 0x80000000, 0x0, 0x0, 0x4000FF07, 0x0⟩ /- ENG_STATUS -/,
   ⟨0x10, [], none, 0x0, 0x0, 0x0, 0x0, 0x0, 0x0, 0xFFFFFFFF, 0x16674110⟩ /- ENG_SHAPE_CLASS -/,
   ⟨0x14, [], none, 0x0, 0x0, 0x0, 0x0, 0x0, 0x0, 0xFFFFFFFF, 0x0⟩ /- ENG_PROG_CLASS -/,
   ⟨0x18, [], none, 0x0, 0x0, 0x0, 0x0, 0x0, 0x1, 0x0, 0x0⟩ /- ENG_ADMIT -/,
   ⟨0x1C, [], none, 0x0, 0x0, 0x0, 0x0, 0x0, 0x0, 0xCF0FFFFF, 0x0⟩ /- ENG_ADMIT_STATUS -/,
   ⟨0x20, [], none, 0x0, 0xFFFFF, 0x0, 0x0, 0x0, 0x0, 0x0, 0x0⟩ /- ENG_START_BAR -/,
   ⟨0x24, [], none, 0x0, 0x0, 0x0, 0x0, 0x0, 0x0, 0xFF1FFFFF, 0x0⟩ /- ENG_TIE_STATUS -/,
   ⟨0x28, [], none, 0x0, 0x0, 0x0, 0x0, 0x0, 0x0, 0xFFFFFFFF, 0x0⟩ /- ENG_TIE_CNT -/,
   ⟨0x2C, [], none, 0xFFFFFF, 0x0, 0x0, 0x0, 0x0, 0x0, 0x0, 0x3E8⟩ /- ENG_TIE_TIMEOUT -/,
   ⟨0x30, [], none, 0x0, 0x0, 0x0, 0x0, 0x0, 0x0, 0xFFFFFFFF, 0x0⟩ /- ENG_FAULT -/,
   ⟨0x40, [], none, 0x0, 0x0, 0x0, 0x80000000, 0x0, 0x0, 0x40FFFFFF, 0x0⟩ /- ENG_EVENT_COUNT -/,
   ⟨0x44, [], none, 0x0, 0x0, 0x0, 0x0, 0x0, 0x0, 0xFFFFFFFF, 0x0⟩ /- ENG_EVENT_DATA -/,
   ⟨0x100, [(0x4, 8)], none, 0x0, 0x0, 0x0, 0x0, 0x0, 0x0, 0x800FFFFF, 0x0⟩ /- ENG_CLk_BAR -/]

/-- The rows of block CLU (chapter 05, R10). -/
def rowsClu : List RegRow :=
  [⟨0x4, [], none, 0x1, 0x0, 0x0, 0x0, 0x0, 0x0, 0x0, 0x0⟩ /- CLU_CTL -/,
   ⟨0x8, [], none, 0x0, 0x0, 0x0, 0x80000000, 0x0, 0x0, 0x4000FF01, 0x1⟩ /- CLU_STATUS -/,
   ⟨0x100, [], none, 0x701FF, 0x0, 0x0, 0x0, 0x0, 0x0, 0x0, 0x0⟩ /- CLUk_TAG_SEL -/,
   ⟨0x104, [], none, 0x0, 0x0, 0x0, 0x0, 0x0, 0x30301FF, 0x0, 0x0⟩ /- CLUk_TAG_CMD -/,
   ⟨0x108, [], none, 0x0, 0x0, 0x0, 0x0, 0x0, 0x0, 0x33000, 0x0⟩ /- CLUk_TAG_READ -/,
   ⟨0x10C, [], none, 0x0, 0x0, 0x0, 0xF, 0x0, 0x0, 0x0, 0x0⟩ /- CLUk_TAG_STATUS -/,
   ⟨0x110, [], none, 0x0, 0x0, 0x0, 0x0, 0x0, 0x0, 0xFFFFFFFF, 0x0⟩ /- CLUk_TAG_ERR_CNT -/,
   ⟨0x120, [], none, 0xFFFF, 0x0, 0x0, 0x0, 0x0, 0x0, 0x0, 0x40⟩ /- CLUk_SCRUB_CTL -/,
   ⟨0x124, [], none, 0x0, 0x0, 0x0, 0x0, 0x0, 0x0, 0xFFFFFFFF, 0x0⟩ /- CLUk_ECC_CE_CNT -/,
   ⟨0x128, [], none, 0x0, 0x0, 0x0, 0x0, 0x0, 0x0, 0xFFFFFFFF, 0x0⟩ /- CLUk_ECC_UE_CNT -/,
   ⟨0x12C, [], none, 0x0, 0x0, 0x0, 0x0, 0x0, 0x0, 0xFFFFFFFF, 0x0⟩ /- CLUk_PAR_CNT -/,
   ⟨0x130, [], none, 0x0, 0x0, 0x0, 0x0, 0x0, 0x0, 0xFFFFFFFF, 0x0⟩ /- CLUk_CONFLICT_CNT -/,
   ⟨0x134, [], none, 0x0, 0x0, 0x0, 0x0, 0x0, 0x0, 0xFFFFFFFF, 0x0⟩ /- CLUk_HOLD_CNT -/,
   ⟨0x138, [], none, 0x0, 0x0, 0x0, 0x0, 0x0, 0x0, 0xFFFFFFFF, 0x0⟩ /- CLUk_MERGE_CNT -/,
   ⟨0x140, [], none, 0x0, 0x0, 0x0, 0x0, 0x0, 0x0, 0xFFFFFFFF, 0x0⟩ /- CLUk_BLOCKED_CNT -/,
   ⟨0x144, [], none, 0x0, 0x0, 0x0, 0x0, 0x0, 0x0, 0xFFFFFFFF, 0x0⟩ /- CLUk_ADV_CNT -/,
   ⟨0x200, [(0x40, 5), (0x4, 9)], none, 0x0, 0x0, 0x0, 0x0, 0x0, 0x0, 0xFFFFFFFF, 0x0⟩ /- CLUk_STALL_s_c -/,
   ⟨0x400, [(0x4, 14)], none, 0x0, 0x0, 0xFFFFFF, 0x0, 0x0, 0x0, 0x0, 0x0⟩ /- CLUk_SHAPE_ARGj -/,
   ⟨0x440, [], none, 0x0, 0x0, 0x0, 0x7, 0x0, 0x0, 0x0, 0x0⟩ /- CLUk_SHAPE_STATUS -/,
   ⟨0x444, [], none, 0x0, 0x0, 0x0, 0x0, 0x0, 0x0, 0xFFFF0700, 0x0⟩ /- CLUk_SHAPE_LOG -/] ++
  [⟨0x448, [], none, 0x0, 0x0, 0x0, 0x0, 0x0, 0x0, 0xFFFFFFFF, 0x0⟩ /- CLUk_EMPTY_CNT -/,
   ⟨0x44C, [], none, 0x0, 0x0, 0x0, 0x0, 0x0, 0x0, 0xFFFFFFFF, 0x0⟩ /- CLUk_TRUNC_CNT -/,
   ⟨0x450, [], none, 0x0, 0x0, 0x0, 0x0, 0x0, 0x0, 0xFFFFFFFF, 0x0⟩ /- CLUk_STALE_CNT -/,
   ⟨0x460, [], none, 0x0, 0x0, 0xFFFF, 0x0, 0x0, 0x0, 0x0, 0x0⟩ /- CLUk_EPOCH -/,
   ⟨0x4000, [(0x40, 256), (0x4, 16)], none, 0x0, 0x0, 0xFFFFFFFF, 0x0, 0x0, 0x0, 0x0, 0x0⟩ /- CLUk_EDGE_n_w -/,
   ⟨0x8000, [(0x20, 256), (0x4, 8)], none, 0x0, 0x0, 0xFFFFFFFF, 0x0, 0x0, 0x0, 0x0, 0x0⟩ /- CLUk_WIN_n_w -/]

/-- The rows of block NC (chapter 04, R10). -/
def rowsNc : List RegRow :=
  [⟨0x4, [], none, 0x1, 0x0, 0x0, 0x0, 0x0, 0x0, 0x0, 0x0⟩ /- NC_CTL -/,
   ⟨0x8, [], none, 0x0, 0x0, 0x0, 0x80000000, 0x0, 0x0, 0x4000FF00, 0x0⟩ /- NC_STATUS -/,
   ⟨0x100, [], none, 0x0, 0x0, 0x0, 0x1F, 0x0, 0x0, 0x0, 0x0⟩ /- NCn_ARITH_STATUS -/,
   ⟨0x104, [], none, 0x0, 0x0, 0x0, 0x0, 0x0, 0x0, 0xFFFFFFFF, 0x0⟩ /- NCn_ACC_SAT_CNT -/,
   ⟨0x108, [], none, 0x0, 0x0, 0x0, 0x0, 0x0, 0x0, 0xFFFFFFFF, 0x0⟩ /- NCn_CVT_SAT_CNT -/,
   ⟨0x110, [], none, 0x0, 0x0, 0x0, 0x3, 0x0, 0x0, 0x0, 0x0⟩ /- NCn_RES_STATUS -/,
   ⟨0x114, [], none, 0x0, 0x0, 0x0, 0x0, 0x0, 0x0, 0xFFFFFFFF, 0x0⟩ /- NCn_RES_CNT -/,
   ⟨0x118, [], none, 0x0, 0x0, 0x0, 0x0, 0x0, 0x0, 0xCF3F3F00, 0x0⟩ /- NCn_RES_LOG -/,
   ⟨0x120, [], none, 0x0, 0x0, 0x0, 0xF, 0x0, 0x0, 0x0, 0x0⟩ /- NCn_VEC_STATUS -/,
   ⟨0x124, [], none, 0x0, 0x0, 0x0, 0x0, 0x0, 0x0, 0xFFFFFFFF, 0x0⟩ /- NCn_VEC_OOB_CNT -/,
   ⟨0x130, [], none, 0x0, 0x0, 0x0, 0x3, 0x0, 0x0, 0x0, 0x0⟩ /- NCn_WIN_STATUS -/,
   ⟨0x134, [], none, 0x0, 0x0, 0x0, 0x0, 0x0, 0x0, 0xFFFFFFFF, 0x0⟩ /- NCn_PAD_TAP_CNT -/,
   ⟨0x138, [], none, 0x0, 0x0, 0x0, 0x0, 0x0, 0x0, 0xFFFFFFFF, 0x0⟩ /- NCn_WIN_MISS_CNT -/]

/-- The rows of block DMA (chapter 05, R10). -/
def rowsDma : List RegRow :=
  [⟨0x4, [], none, 0x1, 0x0, 0x0, 0x0, 0x0, 0x0, 0x0, 0x0⟩ /- DMA_CTL -/,
   ⟨0x8, [], none, 0x0, 0x0, 0x0, 0x80000000, 0x0, 0x0, 0x4000FF00, 0x0⟩ /- DMA_STATUS -/,
   ⟨0x100, [(0x40, 8)], none, 0x0, 0xFFFFFFC0, 0x0, 0x0, 0x0, 0x0, 0x0, 0x0⟩ /- DMA_CHn_BASE_LO -/,
   ⟨0x104, [(0x40, 8)], none, 0x0, 0x3FFF, 0x0, 0x0, 0x0, 0x0, 0x0, 0x0⟩ /- DMA_CHn_BASE_HI -/,
   ⟨0x108, [(0x40, 8)], none, 0x0, 0x3, 0x0, 0x0, 0x0, 0x0, 0x0, 0x0⟩ /- DMA_CHn_CFG -/,
   ⟨0x10C, [(0x40, 8)], none, 0x3FF, 0x0, 0x0, 0x0, 0x0, 0x0, 0x0, 0x0⟩ /- DMA_CHn_HEAD -/,
   ⟨0x110, [(0x40, 8)], none, 0x0, 0x0, 0x0, 0x0, 0x0, 0x0, 0x3FF, 0x0⟩ /- DMA_CHn_TAIL -/,
   ⟨0x114, [(0x40, 8)], none, 0x0, 0x0, 0x0, 0x0, 0x0, 0x0, 0xFFFFFFFF, 0x0⟩ /- DMA_CHn_DONE_CNT -/]

/-- The rows of block MEM (chapter 12, R10). -/
def rowsMem : List RegRow :=
  [⟨0x4, [], none, 0x1, 0x0, 0x0, 0x0, 0x0, 0x0, 0x0, 0x0⟩ /- MEM_CTL -/,
   ⟨0x8, [], none, 0x0, 0x0, 0x0, 0x80000000, 0x0, 0x0, 0x4000FF00, 0x0⟩ /- MEM_STATUS -/,
   ⟨0x10, [], none, 0x0, 0x717, 0x0, 0x0, 0x0, 0x0, 0x0, 0x501⟩ /- MEM_DDR_CFG -/,
   ⟨0x14, [], none, 0x0, 0x0, 0x0, 0x0, 0x1, 0x0, 0x0, 0x0⟩ /- MEM_TRAIN_CTL -/,
   ⟨0x18, [], none, 0x0, 0x0, 0x0, 0x0, 0x0, 0x0, 0xE0F70700, 0x0⟩ /- MEM_TRAIN_STATUS -/,
   ⟨0x1C, [], none, 0x0, 0x0, 0x0, 0x0, 0x0, 0x0, 0x1FFFF, 0x0⟩ /- MEM_CAP -/,
   ⟨0x30, [], none, 0xFFFF, 0x0, 0x0, 0x0, 0x0, 0x0, 0xF0000, 0x400⟩ /- MEM_SCRUB_CTL -/,
   ⟨0x40, [], none, 0x0, 0x0, 0x0, 0x0, 0x0, 0x0, 0xFFFFFFC0, 0x0⟩ /- MEM_UE_ADDR_LO -/,
   ⟨0x44, [], none, 0x0, 0x0, 0x0, 0x0, 0x0, 0x0, 0xFF, 0x0⟩ /- MEM_UE_ADDR_HI -/,
   ⟨0x48, [], none, 0x0, 0x0, 0x0, 0x80000000, 0x0, 0x0, 0x7EFFFF1F, 0x0⟩ /- MEM_UE_INFO -/,
   ⟨0x60, [], none, 0x0, 0x0, 0x0, 0x0, 0x0, 0x0, 0xFFFFFFFF, 0x0⟩ /- MEM_CE_CNT -/,
   ⟨0x64, [], none, 0x0, 0x0, 0x0, 0x0, 0x0, 0x0, 0xFFFFFFFF, 0x0⟩ /- MEM_UE_CNT -/,
   ⟨0x68, [], none, 0x0, 0x0, 0x0, 0x0, 0x0, 0x0, 0xFFFFFFFF, 0x0⟩ /- MEM_DENY_CNT -/,
   ⟨0x6C, [], none, 0x0, 0x0, 0x0, 0x0, 0x0, 0x0, 0xFFFFFFFF, 0x0⟩ /- MEM_CONSUME_CNT -/,
   ⟨0x70, [], none, 0x0, 0x0, 0x0, 0x0, 0x0, 0x0, 0xFFFFFFFF, 0x0⟩ /- MEM_REFUSE_CNT -/,
   ⟨0x74, [], none, 0x0, 0x0, 0x0, 0x0, 0x0, 0x0, 0xFFFFFFFF, 0x0⟩ /- MEM_SCRUB_PASS_CNT -/,
   ⟨0x80, [], none, 0xFFFFFFE0, 0x0, 0x0, 0x0, 0x0, 0x0, 0x0, 0x0⟩ /- MEM_PSCAN_BASE_LO -/,
   ⟨0x84, [], none, 0xFF, 0x0, 0x0, 0x0, 0x0, 0x0, 0x0, 0x0⟩ /- MEM_PSCAN_BASE_HI -/,
   ⟨0x88, [], none, 0xFFFFFFFF, 0x0, 0x0, 0x0, 0x0, 0x0, 0x0, 0x0⟩ /- MEM_PSCAN_LEN -/,
   ⟨0x8C, [], none, 0x0, 0x0, 0x0, 0x0, 0x1, 0x0, 0x80000002, 0x0⟩ /- MEM_PSCAN_CTL -/] ++
  [⟨0x90, [], none, 0x0, 0x0, 0x0, 0x0, 0x0, 0x0, 0xFFFFFFFF, 0x0⟩ /- MEM_PSCAN_PCOUNT -/,
   ⟨0x94, [], none, 0x0, 0x0, 0x0, 0x0, 0x0, 0x0, 0xFFFFFFE0, 0x0⟩ /- MEM_PSCAN_FIRST_LO -/,
   ⟨0x98, [], none, 0x0, 0x0, 0x0, 0x0, 0x0, 0x0, 0xFF, 0x0⟩ /- MEM_PSCAN_FIRST_HI -/,
   ⟨0x100, [], none, 0x0, 0x0, 0x0, 0x0, 0x1, 0x0, 0x0, 0x0⟩ /- MEM_FW_CTL -/,
   ⟨0x200, [(0x20, 6), (0x4, 5)], none, 0x0, 0x0, 0x0, 0x0, 0x0, 0x0, 0xFFFFFFFF, 0x0⟩ /- MEM_CE_s_d -/,
   ⟨0x1000, [(0x20, 64)], some 0x1000, 0x80000000, 0x2F000000, 0x0, 0x0, 0x40000000, 0x0, 0x0, 0x0⟩ /- MEM_RGNr_CTL -/,
   ⟨0x1004, [(0x20, 64)], some 0x1000, 0x0, 0xFFFFFF, 0x0, 0x0, 0x0, 0x0, 0x0, 0x0⟩ /- MEM_RGNr_BASE -/,
   ⟨0x1008, [(0x20, 64)], some 0x1000, 0x0, 0xFFFFFF, 0x0, 0x0, 0x0, 0x0, 0x0, 0x0⟩ /- MEM_RGNr_SIZE -/,
   ⟨0x100C, [(0x20, 64)], some 0x1000, 0x0, 0xFFFFFFFF, 0x0, 0x0, 0x0, 0x0, 0x0, 0x0⟩ /- MEM_RGNr_MASK -/,
   ⟨0x2000, [(0x20, 32)], some 0x2000, 0x80000000, 0x3000003F, 0x0, 0x0, 0x0, 0x0, 0x40000000, 0x0⟩ /- MEM_WINw_CTL -/,
   ⟨0x2004, [(0x20, 32)], some 0x2000, 0x0, 0xFFFFFF, 0x0, 0x0, 0x0, 0x0, 0x0, 0x0⟩ /- MEM_WINw_BASE -/,
   ⟨0x2008, [(0x20, 32)], some 0x2000, 0x0, 0xFFFFFF, 0x0, 0x0, 0x0, 0x0, 0x0, 0x0⟩ /- MEM_WINw_SIZE -/]

/-- The rows of block HPT (chapter 13, R10). -/
def rowsHpt : List RegRow :=
  [⟨0x4, [], none, 0x1, 0x36, 0x0, 0x0, 0x0, 0x0, 0x0, 0x6⟩ /- HPT_CTL -/,
   ⟨0x8, [], none, 0x0, 0x0, 0x0, 0x80000000, 0x0, 0x0, 0x4000FF3F, 0x0⟩ /- HPT_STATUS -/,
   ⟨0x10, [], none, 0x0, 0x0, 0x0, 0x0, 0x0, 0x0, 0xFFFF, 0x0⟩ /- HPT_ATTN_PEND -/,
   ⟨0x14, [], none, 0x0, 0x0, 0x0, 0x0, 0xFF, 0x0, 0x0, 0x0⟩ /- HPT_ATTN_SET -/,
   ⟨0x18, [], none, 0xFFFF, 0x0, 0x0, 0x0, 0x0, 0x0, 0x0, 0xFFFF⟩ /- HPT_ATTN_MASK -/,
   ⟨0x40, [], none, 0x0, 0x0, 0x0, 0x0, 0x0, 0x0, 0xFFFFFFFF, 0x0⟩ /- HPT_UNBACKED_RD_CNT -/,
   ⟨0x44, [], none, 0x0, 0x0, 0x0, 0x0, 0x0, 0x0, 0xFFFFFFFF, 0x0⟩ /- HPT_UNBACKED_WR_CNT -/,
   ⟨0x48, [], none, 0x0, 0x0, 0x0, 0x0, 0x0, 0x0, 0xFFFFFFFF, 0x0⟩ /- HPT_PROTO_ERR_CNT -/,
   ⟨0x4C, [], none, 0x0, 0x0, 0x0, 0x0, 0x0, 0x0, 0xFFFFFFFF, 0x0⟩ /- HPT_MRW_IGN_CNT -/,
   ⟨0x50, [], none, 0x0, 0x0, 0x0, 0x0, 0x0, 0x0, 0xFFFFFFFF, 0x0⟩ /- HPT_REF_CNT -/,
   ⟨0x54, [], none, 0x0, 0x0, 0x0, 0x0, 0x0, 0x0, 0xFFFFFFFF, 0x0⟩ /- HPT_IFRST_CNT -/,
   ⟨0x58, [], none, 0x0, 0x0, 0x0, 0x0, 0x0, 0x0, 0xFFFFFFFF, 0x0⟩ /- HPT_POISON_DROP_CNT -/,
   ⟨0x100, [(0x20, 2)], none, 0x0, 0x0, 0x0, 0x0, 0x0, 0x0, 0xFFFF003E, 0x0⟩ /- HPT_CHc_MODE -/]

/-- The rows of block CSI (chapter 10, R10). -/
def rowsCsi : List RegRow :=
  [⟨0x4, [], none, 0x1, 0x0, 0x0, 0x0, 0x0, 0x0, 0x0, 0x0⟩ /- CSI_CTL -/,
   ⟨0x8, [], none, 0x0, 0x0, 0x0, 0x80000000, 0x0, 0x0, 0x4000FF00, 0x0⟩ /- CSI_STATUS -/,
   ⟨0x100, [(0x20, 12)], some 0x100, 0x80000000, 0xF00FFFF, 0x0, 0x0, 0x40000000, 0x0, 0x0, 0x4000000⟩ /- CSI_PORTp_CTL -/,
   ⟨0x104, [(0x20, 12)], some 0x100, 0x0, 0x0, 0x0, 0x80000000, 0x0, 0x0, 0x40FFFFFF, 0x0⟩ /- CSI_PORTp_PKT_COUNT -/,
   ⟨0x108, [(0x20, 12)], some 0x100, 0x0, 0x0, 0x0, 0x1F, 0x0, 0x0, 0x0, 0x0⟩ /- CSI_PORTp_ERR -/,
   ⟨0x10C, [(0x20, 12)], some 0x100, 0x0, 0x0, 0x0, 0x0, 0x0, 0x0, 0xFFFFFFFF, 0x0⟩ /- CSI_PORTp_CRC_CNT -/,
   ⟨0x110, [(0x20, 12)], some 0x100, 0x0, 0x0, 0x0, 0x0, 0x0, 0x0, 0xFFFFFFFF, 0x0⟩ /- CSI_PORTp_HDR_CNT -/,
   ⟨0x114, [(0x20, 12)], some 0x100, 0x0, 0x0, 0x0, 0x0, 0x0, 0x0, 0xFFFFFFFF, 0x0⟩ /- CSI_PORTp_DROP_CNT -/,
   ⟨0x118, [(0x20, 12)], some 0x100, 0x0, 0x0, 0x0, 0x0, 0x0, 0x0, 0xFFFFFFFF, 0x0⟩ /- CSI_PORTp_OVR_CNT -/,
   ⟨0x11C, [(0x20, 12)], some 0x100, 0x0, 0x0, 0x0, 0x0, 0x0, 0x0, 0xFFFFFFFF, 0x0⟩ /- CSI_PORTp_FLUSH_CNT -/,
   ⟨0x400, [(0x4, 12)], some 0x100, 0x0, 0x0, 0x0, 0x0, 0x0, 0x0, 0xFFFFFFFF, 0x0⟩ /- CSI_PORTp_HDR_CORR_CNT -/,
   ⟨0x1000, [(0x80, 48)], some 0x1000, 0x88000000, 0x70FFFF1F, 0x0, 0x0, 0x0, 0x0, 0x0, 0x10⟩ /- CSI_STRm_CFG -/,
   ⟨0x1004, [(0x80, 48)], some 0x1000, 0x0, 0xFFFFFFFF, 0x0, 0x0, 0x0, 0x0, 0x0, 0x0⟩ /- CSI_STRm_GEOM -/,
   ⟨0x1008, [(0x80, 48)], some 0x1000, 0x0, 0xFFFFFFFF, 0x0, 0x0, 0x0, 0x0, 0x0, 0x40000⟩ /- CSI_STRm_OUT -/,
   ⟨0x100C, [(0x80, 48)], some 0x1000, 0x0, 0xFFFF, 0x0, 0x0, 0x0, 0x0, 0x0, 0x0⟩ /- CSI_STRm_PADPIX -/,
   ⟨0x1010, [(0x80, 48)], some 0x1000, 0x0, 0xFFFFFFC0, 0x0, 0x0, 0x0, 0x0, 0x0, 0x0⟩ /- CSI_STRm_BUF_LO -/,
   ⟨0x1014, [(0x80, 48)], some 0x1000, 0x0, 0x3FFF, 0x0, 0x0, 0x0, 0x0, 0x0, 0x0⟩ /- CSI_STRm_BUF_HI -/,
   ⟨0x1018, [(0x80, 48)], some 0x1000, 0x0, 0xFFFFFFC0, 0x0, 0x0, 0x0, 0x0, 0x0, 0x0⟩ /- CSI_STRm_BUF_STRIDE -/,
   ⟨0x101C, [(0x80, 48)], some 0x1000, 0x0, 0xF07FFFE0, 0x0, 0x0, 0x0, 0x0, 0x0, 0x0⟩ /- CSI_STRm_HDR -/,
   ⟨0x1020, [(0x80, 48)], some 0x1000, 0xFFFFFFFF, 0x0, 0x0, 0x0, 0x0, 0x0, 0x0, 0x0⟩ /- CSI_STRm_TS_OFFSET -/] ++
  [⟨0x1024, [(0x80, 48)], some 0x1000, 0x0, 0xFFFFFFFF, 0x0, 0x0, 0x0, 0x0, 0x0, 0x0⟩ /- CSI_STRm_EMB -/,
   ⟨0x1028, [(0x80, 48)], some 0x1000, 0x0, 0xF07FE000, 0x0, 0x0, 0x0, 0x0, 0x0, 0x0⟩ /- CSI_STRm_STATS -/,
   ⟨0x102C, [(0x80, 48)], some 0x1000, 0x0, 0x0, 0x0, 0x0, 0x0, 0x0, 0xFF, 0x0⟩ /- CSI_STRm_WR -/,
   ⟨0x1030, [(0x80, 48)], some 0x1000, 0xFF, 0x0, 0x0, 0x0, 0x0, 0x0, 0x0, 0x0⟩ /- CSI_STRm_REL -/,
   ⟨0x1034, [(0x80, 48)], some 0x1000, 0x0, 0x0, 0x0, 0xFFF, 0x0, 0x0, 0x0, 0x0⟩ /- CSI_STRm_STATUS -/,
   ⟨0x1038, [(0x80, 48)], some 0x1000, 0x0, 0x0, 0x0, 0x0, 0x0, 0x0, 0xFFFFFFFF, 0x0⟩ /- CSI_STRm_FRAME_CNT -/,
   ⟨0x103C, [(0x80, 48)], some 0x1000, 0x0, 0x0, 0x0, 0x0, 0x0, 0x0, 0xFFFFFFFF, 0x0⟩ /- CSI_STRm_DROP_CNT -/,
   ⟨0x1040, [(0x80, 48)], some 0x1000, 0x0, 0x0, 0x0, 0x0, 0x0, 0x0, 0xFFFFFFFF, 0x0⟩ /- CSI_STRm_DMG_CNT -/,
   ⟨0x1044, [(0x80, 48)], some 0x1000, 0x0, 0x0, 0x0, 0x0, 0x0, 0x0, 0xFFFFFFFF, 0x0⟩ /- CSI_STRm_NOFS_CNT -/,
   ⟨0x1048, [(0x80, 48)], some 0x1000, 0x0, 0x0, 0x0, 0x0, 0x0, 0x0, 0xFFFFFFFF, 0x0⟩ /- CSI_STRm_LDROP_CNT -/,
   ⟨0x3000, [(0x40, 16)], some 0x3000, 0x80000000, 0x0, 0x0, 0x0, 0x0, 0x0, 0x0, 0x0⟩ /- CSI_FGg_CTL -/,
   ⟨0x3400, [], none, 0x80000000, 0x0, 0x0, 0x0, 0x0, 0x0, 0x0, 0x80000000⟩ /- CSI_FG16_CTL -/,
   ⟨0x3004, [(0x40, 17)], some 0x3000, 0x0, 0xFFFFFFFF, 0x0, 0x0, 0x0, 0x0, 0x0, 0x0⟩ /- CSI_FGg_TOL -/,
   ⟨0x3008, [(0x40, 17)], some 0x3000, 0x0, 0xFFFFF, 0x0, 0x0, 0x0, 0x0, 0x0, 0x0⟩ /- CSI_FGg_WAIT -/,
   ⟨0x300C, [(0x40, 17)], some 0x3000, 0x0, 0x0, 0x0, 0x80000000, 0x0, 0x0, 0x40FFFFFF, 0x0⟩ /- CSI_FGg_SETQ_COUNT -/,
   ⟨0x3010, [(0x40, 17)], some 0x3000, 0x0, 0x0, 0x0, 0x0, 0x0, 0x0, 0xFFFFFFFF, 0x0⟩ /- CSI_FGg_SETQ_DATA -/,
   ⟨0x3014, [(0x40, 17)], some 0x3000, 0x0, 0x0, 0x0, 0x0, 0x0, 0x0, 0xFFFFFFFF, 0x0⟩ /- CSI_FGg_PARTIAL_CNT -/,
   ⟨0x3018, [(0x40, 17)], some 0x3000, 0x0, 0x0, 0x0, 0x0, 0x0, 0x0, 0xFFFFFFFF, 0x0⟩ /- CSI_FGg_OOW_CNT -/,
   ⟨0x301C, [(0x40, 17)], some 0x3000, 0x0, 0x0, 0x0, 0x0, 0x0, 0x0, 0xFFFFFFFF, 0x0⟩ /- CSI_FGg_OVR_CNT -/]

/-- The rows of block ISP (chapter 10, R10). -/
def rowsIsp : List RegRow :=
  [⟨0x4, [], none, 0x1, 0x0, 0x0, 0x0, 0x0, 0x0, 0x0, 0x0⟩ /- ISP_CTL -/,
   ⟨0x8, [], none, 0x0, 0x0, 0x0, 0x80000000, 0x0, 0x0, 0x4000FF00, 0x0⟩ /- ISP_STATUS -/,
   ⟨0x100, [], none, 0x0, 0x0, 0x0, 0x0, 0xFFFFFFFF, 0x0, 0x0, 0x0⟩ /- ISP_ARM_LO -/,
   ⟨0x104, [], none, 0x0, 0x0, 0x0, 0x0, 0xFFFF, 0x0, 0x0, 0x0⟩ /- ISP_ARM_HI -/,
   ⟨0x200, [(0x10, 3)], none, 0x0, 0x0, 0x0, 0x0, 0x0, 0x0, 0xFFFFFFFF, 0x0⟩ /- ISP_PIPEq_PIX_CNT -/,
   ⟨0x10000, [(0x1000, 48), (0x4, 1024)], none, 0xFFFFFFFF, 0x0, 0x0, 0x0, 0x0, 0x0, 0x0, 0x0⟩ /- ISP_STRm_PARAM_w -/]

/-- The rows of block VID (chapter 11, R10). -/
def rowsVid : List RegRow :=
  [⟨0x4, [], none, 0x1, 0x0, 0x0, 0x0, 0x0, 0x0, 0x0, 0x0⟩ /- VID_CTL -/,
   ⟨0x8, [], none, 0x0, 0x0, 0x0, 0x80000000, 0x0, 0x0, 0x4000FF00, 0x0⟩ /- VID_STATUS -/,
   ⟨0x1000, [(0x80, 32)], some 0x1000, 0x8000FFFF, 0x7EFF0000, 0x0, 0x0, 0x0, 0x0, 0x0, 0x80000⟩ /- VID_SESs_CTL -/,
   ⟨0x1004, [(0x80, 32)], some 0x1000, 0x0, 0xFFFFFFFF, 0x0, 0x0, 0x0, 0x0, 0x0, 0x0⟩ /- VID_SESs_CAP -/,
   ⟨0x1008, [(0x80, 32)], some 0x1000, 0x0, 0xFFFFF000, 0x0, 0x0, 0x0, 0x0, 0x0, 0x0⟩ /- VID_SESs_MEM_LO -/,
   ⟨0x100C, [(0x80, 32)], some 0x1000, 0x0, 0x3FFF, 0x0, 0x0, 0x0, 0x0, 0x0, 0x0⟩ /- VID_SESs_MEM_HI -/,
   ⟨0x1010, [(0x80, 32)], some 0x1000, 0x0, 0xFFFFFFFF, 0x0, 0x0, 0x0, 0x0, 0x0, 0x0⟩ /- VID_SESs_MEM_SIZE -/,
   ⟨0x1014, [(0x80, 32)], some 0x1000, 0x0, 0xFFFFFFC0, 0x0, 0x0, 0x0, 0x0, 0x0, 0x0⟩ /- VID_SESs_RING_LO -/,
   ⟨0x1018, [(0x80, 32)], some 0x1000, 0x0, 0x3FFF, 0x0, 0x0, 0x0, 0x0, 0x0, 0x0⟩ /- VID_SESs_RING_HI -/,
   ⟨0x101C, [(0x80, 32)], some 0x1000, 0x0, 0x3, 0x0, 0x0, 0x0, 0x0, 0x0, 0x0⟩ /- VID_SESs_RING_CFG -/,
   ⟨0x1020, [(0x80, 32)], some 0x1000, 0x3FF, 0x0, 0x0, 0x0, 0x0, 0x0, 0x0, 0x0⟩ /- VID_SESs_HEAD -/,
   ⟨0x1024, [(0x80, 32)], some 0x1000, 0x0, 0x0, 0x0, 0x0, 0x0, 0x0, 0x3FF, 0x0⟩ /- VID_SESs_TAIL -/,
   ⟨0x1028, [(0x80, 32)], some 0x1000, 0x0, 0xFFFFFF, 0x0, 0x0, 0x0, 0x0, 0x0, 0x0⟩ /- VID_SESs_CAP_BYTES -/,
   ⟨0x102C, [(0x80, 32)], some 0x1000, 0x0, 0x0, 0x0, 0x80000000, 0x0, 0x0, 0x40FFFFFF, 0x0⟩ /- VID_SESs_REP_COUNT -/,
   ⟨0x1030, [(0x80, 32)], some 0x1000, 0x0, 0x0, 0x0, 0x0, 0x0, 0x0, 0xFFFFFFFF, 0x0⟩ /- VID_SESs_REP_DATA -/,
   ⟨0x1034, [(0x80, 32)], some 0x1000, 0x0, 0x0, 0x0, 0x7F, 0x0, 0x0, 0x0, 0x0⟩ /- VID_SESs_STATUS -/,
   ⟨0x1038, [(0x80, 32)], some 0x1000, 0x0, 0x0, 0x0, 0x0, 0x0, 0x0, 0xFFFFFFFF, 0x0⟩ /- VID_SESs_DONE_CNT -/,
   ⟨0x103C, [(0x80, 32)], some 0x1000, 0x0, 0x0, 0x0, 0x0, 0x0, 0x0, 0xFFFFFFFF, 0x0⟩ /- VID_SESs_CONCEAL_CNT -/,
   ⟨0x1040, [(0x80, 32)], some 0x1000, 0x0, 0x0, 0x0, 0x0, 0x0, 0x0, 0xFFFFFFFF, 0x0⟩ /- VID_SESs_DEADLINE_CNT -/,
   ⟨0x1044, [(0x80, 32)], some 0x1000, 0x0, 0x0, 0x0, 0x0, 0x0, 0x0, 0xFFFFFFFF, 0x0⟩ /- VID_SESs_REFUSE_CNT -/]

/-- The rows of block SHP (chapter 11, R10). -/
def rowsShp : List RegRow :=
  [⟨0x4, [], none, 0x1, 0x0, 0x0, 0x0, 0x0, 0x0, 0x0, 0x0⟩ /- SHP_CTL -/,
   ⟨0x8, [], none, 0x0, 0x0, 0x0, 0x80000000, 0x0, 0x0, 0x4000FF00, 0x0⟩ /- SHP_STATUS -/,
   ⟨0x1000, [(0x40, 64)], some 0x1000, 0x80000000, 0x0, 0x0, 0x0, 0x40000000, 0x0, 0x0, 0x0⟩ /- SHP_Qq_CTL -/,
   ⟨0x1004, [(0x40, 64)], some 0x1000, 0x0, 0xFFFFF000, 0x0, 0x0, 0x0, 0x0, 0x0, 0x0⟩ /- SHP_Qq_BASE_LO -/,
   ⟨0x1008, [(0x40, 64)], some 0x1000, 0x0, 0x3FFF, 0x0, 0x0, 0x0, 0x0, 0x0, 0x0⟩ /- SHP_Qq_BASE_HI -/,
   ⟨0x100C, [(0x40, 64)], some 0x1000, 0x0, 0xFFFFFFFF, 0x0, 0x0, 0x0, 0x0, 0x0, 0x0⟩ /- SHP_Qq_GEOM -/,
   ⟨0x1010, [(0x40, 64)], some 0x1000, 0x0, 0x0, 0x0, 0x80000000, 0x0, 0x0, 0x40FFFFFF, 0x0⟩ /- SHP_Qq_COUNT -/,
   ⟨0x1014, [(0x40, 64)], some 0x1000, 0x0, 0x0, 0x0, 0x0, 0x0, 0x0, 0xFFFFFFFF, 0x0⟩ /- SHP_Qq_PTR_A -/,
   ⟨0x1018, [(0x40, 64)], some 0x1000, 0x0, 0x0, 0x0, 0x0, 0x0, 0x0, 0xFFFFFFFF, 0x0⟩ /- SHP_Qq_PTR_B -/,
   ⟨0x101C, [(0x40, 64)], some 0x1000, 0x0, 0x0, 0x0, 0x0, 0x0, 0x0, 0xFFFFFFFF, 0x0⟩ /- SHP_Qq_COMMIT_CNT -/,
   ⟨0x1020, [(0x40, 64)], some 0x1000, 0x0, 0x0, 0x0, 0x0, 0x0, 0x0, 0xFFFFFFFF, 0x0⟩ /- SHP_Qq_OVR_CNT -/,
   ⟨0x1024, [(0x40, 64)], some 0x1000, 0x0, 0x0, 0x0, 0x0, 0x0, 0x0, 0xFFFFFFFF, 0x0⟩ /- SHP_Qq_REWIND_CNT -/]

/-- The rows of block DDL (chapter 15, R10). -/
def rowsDdl : List RegRow :=
  [⟨0x4, [], none, 0x1, 0x0, 0x0, 0x0, 0x0, 0x0, 0x0, 0x0⟩ /- DDL_CTL -/,
   ⟨0x8, [], none, 0x0, 0x0, 0x0, 0x80000000, 0x0, 0x0, 0x4000FF00, 0x0⟩ /- DDL_STATUS -/,
   ⟨0x10, [], none, 0x0, 0x0, 0x0, 0x0, 0x0, 0x0, 0xC03F003F, 0x0⟩ /- DDL_CHIP -/,
   ⟨0x14, [], none, 0x0, 0xF, 0x0, 0x0, 0x0, 0x0, 0x0, 0x8⟩ /- DDL_PREF -/,
   ⟨0x18, [], none, 0x0, 0x0, 0x0, 0x0, 0x0, 0x0, 0xFFFFFFFF, 0x0⟩ /- DDL_SERIAL_LO -/,
   ⟨0x1C, [], none, 0x0, 0x0, 0x0, 0x0, 0x0, 0x0, 0xFFFFFFFF, 0x0⟩ /- DDL_SERIAL_HI -/,
   ⟨0x20, [], none, 0xFFFF, 0x0, 0x0, 0x0, 0x0, 0x0, 0x0, 0x1F4⟩ /- DDL_OPTO -/,
   ⟨0x40, [], none, 0x0, 0x0, 0x0, 0x0, 0x0, 0x0, 0xFFFFFFFF, 0x0⟩ /- DDL_HOP_CNT -/,
   ⟨0x44, [], none, 0x0, 0x0, 0x0, 0x0, 0x0, 0x0, 0xFFFFFFFF, 0x0⟩ /- DDL_UNREACH_CNT -/,
   ⟨0x48, [], none, 0x0, 0x0, 0x0, 0x0, 0x0, 0x0, 0xFFFFFFFF, 0x0⟩ /- DDL_OPTO_CNT -/,
   ⟨0x100, [(0x40, 6)], some 0x100, 0xA0000000, 0x500000FF, 0x0, 0x0, 0x0, 0x0, 0x0, 0x10000000⟩ /- LINKl_CTL -/,
   ⟨0x104, [(0x40, 6)], some 0x100, 0x0, 0x0, 0x0, 0x0, 0x0, 0x0, 0xF0FF3F70, 0x0⟩ /- LINKl_STATUS -/,
   ⟨0x108, [(0x40, 6)], some 0x100, 0x0, 0x0, 0x0, 0x3F, 0x0, 0x0, 0x0, 0x0⟩ /- LINKl_FLAGS -/,
   ⟨0x10C, [(0x40, 6)], some 0x100, 0x0, 0x0, 0x0, 0x0, 0x0, 0x0, 0xFF, 0x0⟩ /- LINKl_REASON -/,
   ⟨0x110, [(0x40, 6)], some 0x100, 0x0, 0x0, 0x0, 0x0, 0x0, 0x0, 0xFFFFFFFF, 0x0⟩ /- LINKl_CRC_CNT -/,
   ⟨0x114, [(0x40, 6)], some 0x100, 0x0, 0x0, 0x0, 0x0, 0x0, 0x0, 0xFFFFFFFF, 0x0⟩ /- LINKl_RETRY_CNT -/,
   ⟨0x118, [(0x40, 6)], some 0x100, 0x0, 0x0, 0x0, 0x0, 0x0, 0x0, 0xFFFFFFFF, 0x0⟩ /- LINKl_AUTH_CNT -/,
   ⟨0x11C, [(0x40, 6)], some 0x100, 0x0, 0x0, 0x0, 0x0, 0x0, 0x0, 0xFFFFFFFF, 0x0⟩ /- LINKl_SPARE_CNT -/,
   ⟨0x120, [(0x40, 6)], some 0x100, 0x0, 0x0, 0x0, 0x0, 0x0, 0x0, 0xFFFFFFFF, 0x0⟩ /- LINKl_DOWN_CNT -/,
   ⟨0x124, [(0x40, 6)], some 0x100, 0x0, 0x0, 0x0, 0x0, 0x0, 0x0, 0xFFFFFFFF, 0x0⟩ /- LINKl_TRAIN_FAIL_CNT -/] ++
  [⟨0x128, [(0x40, 6)], some 0x100, 0x0, 0x0, 0x0, 0x0, 0x0, 0x0, 0xFFFFFFFF, 0x0⟩ /- LINKl_TX_CNT -/,
   ⟨0x12C, [(0x40, 6)], some 0x100, 0x0, 0x0, 0x0, 0x0, 0x0, 0x0, 0xFFFFFFFF, 0x0⟩ /- LINKl_RX_CNT -/,
   ⟨0x400, [(0x4, 64)], none, 0x80000007, 0x0, 0x0, 0x0, 0x0, 0x0, 0x0, 0x0⟩ /- DDL_ROUTEc -/,
   ⟨0x1000, [(0x100, 6), (0x40, 2), (0x4, 8)], none, 0x0, 0x0, 0x0, 0x0, 0x0, 0xFFFFFFFF, 0x0, 0x0⟩ /- KEYl_k_Wi -/,
   ⟨0x1020, [(0x100, 6), (0x40, 2)], none, 0x0, 0x0, 0x0, 0x0, 0x0, 0xFFFFFFFF, 0x0, 0x0⟩ /- KEYl_k_SALT -/,
   ⟨0x1024, [(0x100, 6), (0x40, 2)], none, 0x1, 0x0, 0x0, 0x0, 0x0, 0x0, 0x0, 0x0⟩ /- KEYl_k_CTL -/]

/-- The rows of block PWR (chapter 17, R10). -/
def rowsPwr : List RegRow :=
  [⟨0x4, [], none, 0x31, 0x0, 0x0, 0x0, 0x0, 0x0, 0x0, 0x0⟩ /- PWR_CTL -/,
   ⟨0x8, [], none, 0x0, 0x0, 0x0, 0x80000000, 0x0, 0x0, 0x4000FF1F, 0x0⟩ /- PWR_STATUS -/,
   ⟨0x10, [], none, 0x0, 0x0, 0x0, 0xF, 0x0, 0x0, 0xF0000, 0x0⟩ /- PWR_EMERG -/,
   ⟨0x14, [], none, 0x1FFFF, 0x0, 0x0, 0x0, 0x0, 0x0, 0x0, 0x124F8⟩ /- PWR_CAP_LIM -/,
   ⟨0x18, [], none, 0x3F, 0x0, 0x0, 0x0, 0x0, 0x0, 0x0, 0x0⟩ /- PWR_NEAP_LINKS -/,
   ⟨0x1C, [], none, 0xFFFF, 0x0, 0x0, 0x0, 0x0, 0x0, 0x0, 0x1F0⟩ /- PWR_KP -/,
   ⟨0x20, [], none, 0x1FF, 0x0, 0x0, 0x0, 0x0, 0x0, 0x0, 0x10⟩ /- PWR_RMIN -/,
   ⟨0x24, [], none, 0x0, 0x0, 0x0, 0x0, 0x0, 0x0, 0x1FF, 0x40⟩ /- PWR_R -/,
   ⟨0x28, [], none, 0x0, 0x0, 0x0, 0x0, 0x0, 0x0, 0x1FFFF, 0x0⟩ /- PWR_P_MW -/,
   ⟨0x2C, [], none, 0x0, 0x0, 0x0, 0x0, 0x0, 0x0, 0x1FFFF, 0x0⟩ /- PWR_CAP_EFF -/,
   ⟨0x30, [], none, 0x0, 0x0, 0x0, 0x0, 0x0, 0x0, 0xFFFF, 0x0⟩ /- PWR_TJ -/,
   ⟨0x40, [(0x4, 14)], none, 0x0, 0x0, 0x0, 0x0, 0x0, 0x0, 0xFFFF, 0x0⟩ /- PWR_TEMPi -/,
   ⟨0x80, [], none, 0x0, 0xFF, 0x0, 0x0, 0x0, 0x0, 0x0, 0x28⟩ /- PWR_DROOP_MV -/,
   ⟨0x100, [(0x4, 8)], none, 0x0, 0xC0FF007F, 0x0, 0x0, 0x0, 0x0, 0x0, 0x0⟩ /- PWR_RAILr -/,
   ⟨0x200, [(0x4, 8)], none, 0x0, 0x0, 0x0, 0x0, 0x0, 0x0, 0xFFFFFFFF, 0x0⟩ /- PWR_DROOP_CNTk -/,
   ⟨0x4000, [(0x20, 96), (0x4, 8)], none, 0x0, 0x0, 0x0, 0x0, 0x0, 0x0, 0xFFFFFFFF, 0x0⟩ /- PWR_ACT_s_e -/]

/-- The rows of block RAS (chapter 16, R10). -/
def rowsRas : List RegRow :=
  [⟨0x4, [], none, 0x3, 0x0, 0x0, 0x0, 0x0, 0x0, 0x0, 0x0⟩ /- RAS_CTL -/,
   ⟨0x8, [], none, 0x0, 0x0, 0x0, 0x80000000, 0x0, 0x0, 0x4000FF00, 0x0⟩ /- RAS_STATUS -/,
   ⟨0x10, [], none, 0x800FFFFF, 0x0, 0x0, 0x0, 0x0, 0x0, 0x0, 0x3E8⟩ /- RAS_CANARY_CTL -/,
   ⟨0x20, [], none, 0xC0000000, 0x0, 0x0, 0x0, 0x0, 0x0, 0xFFF, 0x0⟩ /- RAS_SNAP_CTL -/,
   ⟨0x24, [], none, 0x0, 0xFFE00000, 0x0, 0x0, 0x0, 0x0, 0x0, 0x0⟩ /- RAS_SNAP_BASE_LO -/,
   ⟨0x28, [], none, 0x0, 0x3FFF, 0x0, 0x0, 0x0, 0x0, 0x0, 0x0⟩ /- RAS_SNAP_BASE_HI -/,
   ⟨0x30, [], none, 0x0, 0x0, 0x0, 0x80000000, 0x0, 0x0, 0x40FFFFFF, 0x0⟩ /- RAS_EVT_COUNT -/,
   ⟨0x34, [], none, 0x0, 0x0, 0x0, 0x0, 0x0, 0x0, 0xFFFFFFFF, 0x0⟩ /- RAS_EVT_DATA -/,
   ⟨0x38, [], none, 0xFFFF, 0x0, 0x0, 0x0, 0x0, 0x0, 0x0, 0x0⟩ /- RAS_DUAL_N -/,
   ⟨0x3C, [], none, 0xFF, 0x0, 0x0, 0x0, 0x0, 0x0, 0x0, 0x0⟩ /- RAS_SUSPECT -/,
   ⟨0x40, [], none, 0x0, 0x0, 0x0, 0x0, 0xFFFFFFFF, 0x0, 0x0, 0x0⟩ /- RAS_RETIRE_CORES -/,
   ⟨0x44, [], none, 0x0, 0x0, 0x0, 0x0, 0xFF, 0x0, 0x0, 0x0⟩ /- RAS_RETIRE_CSTORE -/,
   ⟨0x48, [], none, 0x0, 0x0, 0x0, 0x0, 0x7, 0x0, 0x0, 0x0⟩ /- RAS_RETIRE_PIPE -/,
   ⟨0x50, [], none, 0xFFFF, 0x0, 0x0, 0x0, 0x0, 0x0, 0x0, 0x1⟩ /- RAS_CFG_EPOCH -/,
   ⟨0x54, [], none, 0x0, 0x0, 0x0, 0x0, 0x0, 0x0, 0x7FFF, 0x0⟩ /- RAS_QUAR -/,
   ⟨0x58, [], none, 0x0, 0x0, 0x0, 0x0, 0x7FFF, 0x0, 0x0, 0x0⟩ /- RAS_QUAR_REL -/,
   ⟨0x5C, [], none, 0x0, 0x0, 0x0, 0x0, 0x0, 0x0, 0xFF, 0x0⟩ /- RAS_KSCRUB -/,
   ⟨0x80, [(0x4, 15)], none, 0xFFFF, 0x0, 0x0, 0x0, 0x0, 0x0, 0x0, 0x1⟩ /- RAS_ISL_EPOCHi -/,
   ⟨0x100, [], none, 0xFFFFFFE0, 0x0, 0x0, 0x0, 0x0, 0x0, 0x0, 0x0⟩ /- RAS_CMP_A_LO -/,
   ⟨0x104, [], none, 0x3FFF, 0x0, 0x0, 0x0, 0x0, 0x0, 0x0, 0x0⟩ /- RAS_CMP_A_HI -/] ++
  [⟨0x108, [], none, 0xFFFFFFE0, 0x0, 0x0, 0x0, 0x0, 0x0, 0x0, 0x0⟩ /- RAS_CMP_B_LO -/,
   ⟨0x10C, [], none, 0x3FFF, 0x0, 0x0, 0x0, 0x0, 0x0, 0x0, 0x0⟩ /- RAS_CMP_B_HI -/,
   ⟨0x110, [], none, 0xFFFFFFFF, 0x0, 0x0, 0x0, 0x0, 0x0, 0x0, 0x0⟩ /- RAS_CMP_LEN -/,
   ⟨0x114, [], none, 0x0, 0x0, 0x0, 0x0, 0x1, 0x0, 0xC0000000, 0x0⟩ /- RAS_CMP_CTL -/,
   ⟨0x118, [], none, 0x0, 0x0, 0x0, 0x0, 0x0, 0x0, 0xFFFFFFFF, 0x0⟩ /- RAS_CMP_FIRST -/,
   ⟨0x200, [(0x4, 12)], none, 0x0, 0x0, 0x0, 0x0, 0x0, 0x0, 0xFFFFFFFF, 0x0⟩ /- RAS_DETc_CNT -/,
   ⟨0x240, [], none, 0x0, 0x0, 0x0, 0x0, 0x0, 0x0, 0xFFFFFFFF, 0x0⟩ /- RAS_CANARY_CNT -/,
   ⟨0x244, [], none, 0x0, 0x0, 0x0, 0x0, 0x0, 0x0, 0xFFFFFFFF, 0x0⟩ /- RAS_DUAL_CNT -/,
   ⟨0x248, [], none, 0x0, 0x0, 0x0, 0x0, 0x0, 0x0, 0xFFFFFFFF, 0x0⟩ /- RAS_KILL_CNT -/]

/-- The rows of block SEC (chapter 18, R10). -/
def rowsSec : List RegRow :=
  [⟨0x4, [], none, 0x1, 0x0, 0x0, 0x0, 0x0, 0x0, 0x0, 0x0⟩ /- SEC_CTL -/,
   ⟨0x8, [], none, 0x0, 0x0, 0x0, 0x80000000, 0x0, 0x0, 0x4000FF00, 0x0⟩ /- SEC_STATUS -/,
   ⟨0x10, [], none, 0x0, 0x0, 0x0, 0x0, 0xF, 0x0, 0x10, 0x0⟩ /- SEC_LOCK -/,
   ⟨0x14, [], none, 0x0, 0x0, 0x0, 0x0, 0x0, 0x0, 0xFFFFFFF, 0x0⟩ /- SEC_KEYS -/,
   ⟨0x18, [], none, 0x0, 0x0, 0x0, 0x0, 0x0, 0x0, 0xFFFFFFFF, 0x0⟩ /- SEC_RB -/,
   ⟨0x1C, [], none, 0x1, 0x0, 0x0, 0x0, 0x0, 0x0, 0x0, 0x0⟩ /- SEC_BANK -/,
   ⟨0x20, [], none, 0x0, 0x0, 0x0, 0x0, 0x0, 0x0, 0x1FFF, 0x0⟩ /- SEC_VP_BLOCKS -/,
   ⟨0x30, [], none, 0x0, 0x0, 0x0, 0x80000000, 0x0, 0x0, 0x40FFFFFF, 0x0⟩ /- SEC_TRNG_COUNT -/,
   ⟨0x34, [], none, 0x0, 0x0, 0x0, 0x0, 0x0, 0x0, 0xFFFFFFFF, 0x0⟩ /- SEC_TRNG_DATA -/,
   ⟨0x40, [], none, 0x0, 0x0, 0x0, 0x0, 0x0, 0x0, 0xFFFFFFFF, 0x0⟩ /- SEC_BLKFAIL_CNT -/,
   ⟨0x80, [(0x4, 8)], none, 0x0, 0x0, 0x0, 0x0, 0x0, 0x0, 0xFFFFFFFF, 0x0⟩ /- SEC_BOOT_NONCEw -/]

/-- The rows of block BOOT (chapter 18, R10). -/
def rowsBoot : List RegRow :=
  [⟨0x4, [], none, 0x1, 0x0, 0x0, 0x0, 0x0, 0x0, 0x0, 0x0⟩ /- BOOT_CTL -/,
   ⟨0x8, [], none, 0x0, 0x0, 0x0, 0x80000000, 0x0, 0x0, 0x4000FFFC, 0x0⟩ /- BOOT_STATUS -/,
   ⟨0x10, [], none, 0x0, 0x0, 0x0, 0x0, 0x0, 0x0, 0x77F, 0x0⟩ /- BOOT_ORDER -/,
   ⟨0x20, [(0x4, 10)], none, 0x0, 0x0, 0x0, 0x0, 0x0, 0x0, 0xFF3C, 0x0⟩ /- BOOT_TRYk -/,
   ⟨0x50, [], none, 0x0, 0x0, 0x0, 0x0, 0x0, 0x0, 0xFFFFFFFF, 0x0⟩ /- BOOT_TIME -/]

/-- The rows of block ETH (chapter 19, R10). -/
def rowsEth : List RegRow :=
  [⟨0x4, [], none, 0x1, 0x0, 0x0, 0x0, 0x0, 0x0, 0x0, 0x0⟩ /- ETH_CTL -/,
   ⟨0x8, [], none, 0x0, 0x0, 0x0, 0x80000000, 0x0, 0x0, 0x4000FF00, 0x0⟩ /- ETH_STATUS -/,
   ⟨0x10, [], none, 0x2, 0x0, 0x0, 0x0, 0x0, 0x0, 0xFF00, 0x0⟩ /- ETH_SVC_CTL -/,
   ⟨0x14, [], none, 0x0, 0x0, 0x0, 0x1, 0x0, 0x0, 0x0, 0x0⟩ /- ETH_SVC_IRQ -/,
   ⟨0x18, [], none, 0x0, 0x0, 0x0, 0x0, 0x1, 0x0, 0x0, 0x0⟩ /- ETH_SVC_IRQ_SET -/,
   ⟨0x1000, [(0x400, 2)], some 0x1000, 0x80000000, 0x3003FFF, 0x0, 0x0, 0x0, 0x0, 0x0, 0x2400⟩ /- ETH_Pp_CTL -/,
   ⟨0x1004, [(0x400, 2)], some 0x1000, 0x0, 0x0, 0x0, 0x0, 0x0, 0x0, 0x3, 0x0⟩ /- ETH_Pp_STATUS -/,
   ⟨0x1008, [(0x400, 2)], some 0x1000, 0x0, 0xFFFFFFC0, 0x0, 0x0, 0x0, 0x0, 0x0, 0x0⟩ /- ETH_Pp_TX_BASE_LO -/,
   ⟨0x100C, [(0x400, 2)], some 0x1000, 0x0, 0x3FFF, 0x0, 0x0, 0x0, 0x0, 0x0, 0x0⟩ /- ETH_Pp_TX_BASE_HI -/,
   ⟨0x1010, [(0x400, 2)], some 0x1000, 0x0, 0x3, 0x0, 0x0, 0x0, 0x0, 0x0, 0x0⟩ /- ETH_Pp_TX_CFG -/,
   ⟨0x1014, [(0x400, 2)], some 0x1000, 0x3FF, 0x0, 0x0, 0x0, 0x0, 0x0, 0x0, 0x0⟩ /- ETH_Pp_TX_HEAD -/,
   ⟨0x1018, [(0x400, 2)], some 0x1000, 0x0, 0x0, 0x0, 0x0, 0x0, 0x0, 0x3FF, 0x0⟩ /- ETH_Pp_TX_TAIL -/,
   ⟨0x1020, [(0x400, 2)], some 0x1000, 0x0, 0xFFFFFFC0, 0x0, 0x0, 0x0, 0x0, 0x0, 0x0⟩ /- ETH_Pp_RX_BASE_LO -/,
   ⟨0x1024, [(0x400, 2)], some 0x1000, 0x0, 0x3FFF, 0x0, 0x0, 0x0, 0x0, 0x0, 0x0⟩ /- ETH_Pp_RX_BASE_HI -/,
   ⟨0x1028, [(0x400, 2)], some 0x1000, 0x0, 0x3, 0x0, 0x0, 0x0, 0x0, 0x0, 0x0⟩ /- ETH_Pp_RX_CFG -/,
   ⟨0x102C, [(0x400, 2)], some 0x1000, 0x3FF, 0x0, 0x0, 0x0, 0x0, 0x0, 0x0, 0x0⟩ /- ETH_Pp_RX_HEAD -/,
   ⟨0x1030, [(0x400, 2)], some 0x1000, 0x0, 0x0, 0x0, 0x0, 0x0, 0x0, 0x3FF, 0x0⟩ /- ETH_Pp_RX_TAIL -/,
   ⟨0x1040, [(0x400, 2)], some 0x1000, 0x0, 0x0, 0x0, 0x0, 0x0, 0x0, 0xFFFFFFFF, 0x0⟩ /- ETH_Pp_TX_CNT -/,
   ⟨0x1044, [(0x400, 2)], some 0x1000, 0x0, 0x0, 0x0, 0x0, 0x0, 0x0, 0xFFFFFFFF, 0x0⟩ /- ETH_Pp_RX_CNT -/,
   ⟨0x1048, [(0x400, 2)], some 0x1000, 0x0, 0x0, 0x0, 0x0, 0x0, 0x0, 0xFFFFFFFF, 0x0⟩ /- ETH_Pp_FCS_CNT -/] ++
  [⟨0x104C, [(0x400, 2)], some 0x1000, 0x0, 0x0, 0x0, 0x0, 0x0, 0x0, 0xFFFFFFFF, 0x0⟩ /- ETH_Pp_NOBUF_CNT -/,
   ⟨0x1050, [(0x400, 2)], some 0x1000, 0x0, 0x0, 0x0, 0x0, 0x0, 0x0, 0xFFFFFFFF, 0x0⟩ /- ETH_Pp_TX_POISON_CNT -/]

/-- The rows of block TIM (chapter 19, R10). -/
def rowsTim : List RegRow :=
  [⟨0x4, [], none, 0x3, 0x0, 0x0, 0x0, 0x0, 0x0, 0x0, 0x0⟩ /- TIM_CTL -/,
   ⟨0x8, [], none, 0x0, 0x0, 0x0, 0x80000001, 0x0, 0x0, 0x4000FF06, 0x0⟩ /- TIM_STATUS -/,
   ⟨0x10, [], none, 0x0, 0x0, 0x0, 0x0, 0x0, 0x0, 0xFFFFFFFF, 0x0⟩ /- TIM_NOW_LO -/,
   ⟨0x14, [], none, 0x0, 0x0, 0x0, 0x0, 0x0, 0x0, 0xFFFFFFFF, 0x0⟩ /- TIM_NOW_HI -/,
   ⟨0x18, [], none, 0xFFFFFFFF, 0x0, 0x0, 0x0, 0x0, 0x0, 0x0, 0x0⟩ /- TIM_RATE -/,
   ⟨0x20, [], none, 0x0, 0x0, 0x0, 0x0, 0x0, 0xFFFFFFFF, 0x0, 0x0⟩ /- TIM_STEP_LO -/,
   ⟨0x24, [], none, 0x0, 0x0, 0x0, 0x0, 0x0, 0xFFFFFFFF, 0x0, 0x0⟩ /- TIM_STEP_HI -/,
   ⟨0x28, [], none, 0x0, 0xFFFF03FF, 0x0, 0x0, 0x0, 0x0, 0x0, 0x3E80010⟩ /- TIM_LINK_CFG -/,
   ⟨0x2C, [], none, 0x0, 0x0, 0x0, 0x0, 0x0, 0x0, 0xFFFFFFFF, 0x0⟩ /- TIM_OFFSET -/,
   ⟨0x30, [], none, 0x0, 0x0, 0x0, 0x0, 0x0, 0x0, 0xFFFFFFFF, 0x0⟩ /- TIM_DELAY -/,
   ⟨0x40, [], none, 0x0, 0x0, 0x0, 0x0, 0x0, 0x0, 0xFFFFFFFF, 0x0⟩ /- TIM_STEP_CNT -/,
   ⟨0x44, [], none, 0x0, 0x0, 0x0, 0x0, 0x0, 0x0, 0xFFFFFFFF, 0x0⟩ /- TIM_SYNC_CNT -/,
   ⟨0x48, [], none, 0x0, 0x0, 0x0, 0x0, 0x0, 0x0, 0xFFFFFFFF, 0x0⟩ /- TIM_SYNC_SKIP_CNT -/]

/-- The rows of block TRG (chapter 19, R10). -/
def rowsTrg : List RegRow :=
  [⟨0x4, [], none, 0x1, 0x0, 0x0, 0x0, 0x0, 0x0, 0x0, 0x0⟩ /- TRG_CTL -/,
   ⟨0x8, [], none, 0x0, 0x0, 0x0, 0x80000000, 0x0, 0x0, 0x4000FF00, 0x0⟩ /- TRG_STATUS -/,
   ⟨0x10, [], none, 0x0, 0x0, 0x0, 0x0, 0x0, 0x0, 0xFFFFFF, 0x0⟩ /- TRG_IN_LEVEL -/,
   ⟨0x20, [], none, 0x0, 0x0, 0x0, 0x80000000, 0x0, 0x0, 0x40FFFFFF, 0x0⟩ /- TRG_EVT_COUNT -/,
   ⟨0x24, [], none, 0x0, 0x0, 0x0, 0x0, 0x0, 0x0, 0xFFFFFFFF, 0x0⟩ /- TRG_EVT_DATA -/,
   ⟨0x100, [(0x4, 24)], none, 0xE00000FF, 0x0, 0x0, 0x0, 0x0, 0x0, 0x0, 0x0⟩ /- TRG_INi_CFG -/,
   ⟨0x1000, [(0x40, 24)], some 0x1000, 0x88000000, 0x701F0000, 0x0, 0x0, 0x0, 0x0, 0x0, 0x0⟩ /- TRG_OUTo_CTL -/,
   ⟨0x1004, [(0x40, 24)], some 0x1000, 0x0, 0xFFFFFFFF, 0x0, 0x0, 0x0, 0x0, 0x0, 0x0⟩ /- TRG_OUTo_START_LO -/,
   ⟨0x1008, [(0x40, 24)], some 0x1000, 0x0, 0xFFFFFFFF, 0x0, 0x0, 0x0, 0x0, 0x0, 0x0⟩ /- TRG_OUTo_START_HI -/,
   ⟨0x100C, [(0x40, 24)], some 0x1000, 0x0, 0xFFFFFFFF, 0x0, 0x0, 0x0, 0x0, 0x0, 0x0⟩ /- TRG_OUTo_PERIOD -/,
   ⟨0x1010, [(0x40, 24)], some 0x1000, 0x0, 0xFFFFFF, 0x0, 0x0, 0x0, 0x0, 0x0, 0x0⟩ /- TRG_OUTo_WIDTH -/,
   ⟨0x1014, [(0x40, 24)], some 0x1000, 0x0, 0xFFFFFFFF, 0x0, 0x0, 0x0, 0x0, 0x0, 0x0⟩ /- TRG_OUTo_COUNT -/,
   ⟨0x1018, [(0x40, 24)], some 0x1000, 0x0, 0xFFFFFFFF, 0x0, 0x0, 0x0, 0x0, 0x0, 0x0⟩ /- TRG_OUTo_DELAY -/,
   ⟨0x101C, [(0x40, 24)], some 0x1000, 0x0, 0x0, 0x0, 0x0, 0x0, 0x0, 0xFFFFFFFF, 0x0⟩ /- TRG_OUTo_PULSE_CNT -/,
   ⟨0x1020, [(0x40, 24)], some 0x1000, 0x0, 0x0, 0x0, 0x0, 0x0, 0x0, 0xFFFFFFFF, 0x0⟩ /- TRG_OUTo_MISS_CNT -/,
   ⟨0x1024, [(0x40, 24)], some 0x1000, 0x0, 0x0, 0x0, 0x0, 0x0, 0x0, 0xFFFFFFFF, 0x0⟩ /- TRG_OUTo_BUSY_CNT -/]

/-- The rows of block SIO (chapter 19, R10). -/
def rowsSio : List RegRow :=
  [⟨0x4, [], none, 0x1, 0x0, 0x0, 0x0, 0x0, 0x0, 0x0, 0x0⟩ /- SIO_CTL -/,
   ⟨0x8, [], none, 0x0, 0x0, 0x0, 0x80000000, 0x0, 0x0, 0x4000FF00, 0x0⟩ /- SIO_STATUS -/,
   ⟨0x1000, [(0x100, 6)], none, 0x80000000, 0x0, 0x0, 0x0, 0x0, 0x0, 0x0, 0x0⟩ /- SIO_I2Cn_CTL -/,
   ⟨0x1004, [(0x100, 6)], none, 0x0, 0x0, 0x0, 0x0, 0x0, 0xFFFFFFFF, 0x0, 0x0⟩ /- SIO_I2Cn_CMD -/,
   ⟨0x1008, [(0x100, 6)], none, 0x0, 0x0, 0x0, 0x80000000, 0x0, 0x0, 0x40FFFFFF, 0x0⟩ /- SIO_I2Cn_CMD_COUNT -/,
   ⟨0x100C, [(0x100, 6)], none, 0x0, 0x0, 0x0, 0x80000000, 0x0, 0x0, 0x40FFFFFF, 0x0⟩ /- SIO_I2Cn_RX_COUNT -/,
   ⟨0x1010, [(0x100, 6)], none, 0x0, 0x0, 0x0, 0x0, 0x0, 0x0, 0xFFFFFFFF, 0x0⟩ /- SIO_I2Cn_RX_DATA -/,
   ⟨0x1014, [(0x100, 6)], none, 0x0, 0x0, 0x0, 0x7, 0x0, 0x0, 0x0, 0x0⟩ /- SIO_I2Cn_STATUS -/,
   ⟨0x2000, [(0x100, 2)], none, 0x80000000, 0x0, 0x0, 0x0, 0x0, 0x0, 0x0, 0x0⟩ /- SIO_SPIn_CTL -/,
   ⟨0x2004, [(0x100, 2)], none, 0x0, 0x0, 0x0, 0x0, 0x0, 0xFFFFFFFF, 0x0, 0x0⟩ /- SIO_SPIn_CMD -/,
   ⟨0x2008, [(0x100, 2)], none, 0x0, 0x0, 0x0, 0x80000000, 0x0, 0x0, 0x40FFFFFF, 0x0⟩ /- SIO_SPIn_CMD_COUNT -/,
   ⟨0x200C, [(0x100, 2)], none, 0x0, 0x0, 0x0, 0x80000000, 0x0, 0x0, 0x40FFFFFF, 0x0⟩ /- SIO_SPIn_RX_COUNT -/,
   ⟨0x2010, [(0x100, 2)], none, 0x0, 0x0, 0x0, 0x0, 0x0, 0x0, 0xFFFFFFFF, 0x0⟩ /- SIO_SPIn_RX_DATA -/,
   ⟨0x2014, [(0x100, 2)], none, 0x0, 0x0, 0x0, 0x7, 0x0, 0x0, 0x0, 0x0⟩ /- SIO_SPIn_STATUS -/,
   ⟨0x3000, [(0x100, 2)], none, 0x80000000, 0x0, 0x0, 0x0, 0x0, 0x0, 0x0, 0x0⟩ /- SIO_UARTn_CTL -/,
   ⟨0x3004, [(0x100, 2)], none, 0x0, 0x0, 0x0, 0x0, 0x0, 0xFFFFFFFF, 0x0, 0x0⟩ /- SIO_UARTn_CMD -/,
   ⟨0x3008, [(0x100, 2)], none, 0x0, 0x0, 0x0, 0x80000000, 0x0, 0x0, 0x40FFFFFF, 0x0⟩ /- SIO_UARTn_CMD_COUNT -/,
   ⟨0x300C, [(0x100, 2)], none, 0x0, 0x0, 0x0, 0x80000000, 0x0, 0x0, 0x40FFFFFF, 0x0⟩ /- SIO_UARTn_RX_COUNT -/,
   ⟨0x3010, [(0x100, 2)], none, 0x0, 0x0, 0x0, 0x0, 0x0, 0x0, 0xFFFFFFFF, 0x0⟩ /- SIO_UARTn_RX_DATA -/,
   ⟨0x3014, [(0x100, 2)], none, 0x0, 0x0, 0x0, 0x7, 0x0, 0x0, 0x0, 0x0⟩ /- SIO_UARTn_STATUS -/] ++
  [⟨0x4000, [], none, 0x80000000, 0x0, 0x0, 0x0, 0x0, 0x0, 0x0, 0x0⟩ /- SIO_GPIO_CTL -/]

/-- The rows of a block. -/
def blkRows : Blk → List RegRow
  | .top => rowsTop
  | .cp => rowsCp
  | .eng => rowsEng
  | .clu => rowsClu
  | .nc => rowsNc
  | .dma => rowsDma
  | .mem => rowsMem
  | .hpt => rowsHpt
  | .csi => rowsCsi
  | .isp => rowsIsp
  | .vid => rowsVid
  | .shp => rowsShp
  | .ddl => rowsDdl
  | .pwr => rowsPwr
  | .ras => rowsRas
  | .sec => rowsSec
  | .boot => rowsBoot
  | .eth => rowsEth
  | .tim => rowsTim
  | .trg => rowsTrg
  | .sio => rowsSio

/-- Whether the offset `rel` from an array's first element is a multiple of the strides within the counts. -/
def dimsMatch : List (Nat × Nat) → Nat → Bool
  | [], rel => rel == 0
  | (st, n) :: ds, rel => rel / st < n && dimsMatch ds (rel % st)

/-- The row of an offset. -/
def findRow (off : Nat) : List RegRow → Option RegRow
  | [] => none
  | r :: rs => if r.off ≤ off && dimsMatch r.dims (off - r.off) then some r else findRow off rs

/-- R7: the registers occupy the region from here, 1 MiB a block. -/
def regBase : Nat := 0x3000000000

/-- The block index of a register address. -/
def regBlk (a : Nat) : Nat := if a / 0x1000000000 = 3 then a % 0x1000000000 / 0x100000 else 0

/-- The row of `<BLK>_ID` (R10): read-only, PART 0x0096, STEP 0xB1 and the block index. -/
def idRow (k : Nat) : RegRow := ⟨0, [], none, 0, 0, 0, 0, 0, 0, 0xFFFFFFFF, 0x0096B100 + k⟩

/-- R8: the register at an address, or none where no chapter defines one. -/
def regRow (a : Nat) : Option RegRow :=
  if a < regBase ∨ regBase + 0x10000000 ≤ a ∨ a % 4 ≠ 0 then none
  else
    let k := regBlk a
    let off := a % 0x100000
    match blkOf k with
    | none => none
    | some b => if off = 0 then some (idRow k) else findRow off (blkRows b)

/-- The value a register reads when nothing has written it: its reset value (R11). Those of TOP_GRADE and DDL_SERIAL are the
part's fuses (R427, R535). -/
def regReset (a : Nat) : BitVec 32 :=
  if a = 0x300000001C then BitVec.ofNat 32 (Config.grade % 2)
  else if a = 0x3006800018 then BitVec.ofNat 32 Config.serial
  else if a = 0x300680001C then BitVec.ofNat 32 (Config.serial / 0x100000000)
  else match regRow a with
  | none => 0
  | some r => BitVec.ofNat 32 r.reset

end Sys2Proof.Machine
end

