-- ==== Sys2Proof/Machine/RegAddr.lean ====
section
/-! DEFINITION. The local addresses of the registers, under their spec names (R7 and the register table of each
chapter); an array register takes its indices in the order of the name. -/

namespace Sys2Proof.Machine

/-- TOP_ID (R10). -/
def rTopId : Nat := 0x3000000000
/-- TOP_CTL (R10). -/
def rTopCtl : Nat := 0x3000000004
/-- TOP_STATUS (R10). -/
def rTopStatus : Nat := 0x3000000008
/-- TOP_BADACC_CNT (R9). -/
def rTopBadaccCnt : Nat := 0x3000000040
/-- TOP_RST_CAUSE (R535). -/
def rTopRstCause : Nat := 0x3000000010
/-- TOP_RST_CTL (R535). -/
def rTopRstCtl : Nat := 0x3000000014
/-- TOP_ISL_RST (R535). -/
def rTopIslRst : Nat := 0x3000000018
/-- TOP_GRADE (R535). -/
def rTopGrade : Nat := 0x300000001C
/-- TOP_PLL_LOCK (R535). -/
def rTopPllLock : Nat := 0x3000000020
/-- CP_ID (R10). -/
def rCpId : Nat := 0x3000100000
/-- CP_CTL (R10). -/
def rCpCtl : Nat := 0x3000100004
/-- CP_STATUS (R10). -/
def rCpStatus : Nat := 0x3000100008
/-- CP_PASS_TS_LO (R415). -/
def rCpPassTsLo : Nat := 0x3000100010
/-- CP_PASS_TS_HI (R415). -/
def rCpPassTsHi : Nat := 0x3000100014
/-- CP_PASS_CNT (R415). -/
def rCpPassCnt : Nat := 0x3000100018
/-- CP_SVC_PAGE (R415). -/
def rCpSvcPage : Nat := 0x3000100020
/-- CP_CG_APPLY_CNT (R415). -/
def rCpCgApplyCnt : Nat := 0x3000100030
/-- CP_CG_ABORT_CNT (R415). -/
def rCpCgAbortCnt : Nat := 0x3000100034
/-- CP_FW_ACT (R415). -/
def rCpFwAct : Nat := 0x3000100040
/-- CP_JOB_CLk (R415). -/
def rCpJobCl (i : Nat) : Nat := 0x3000100400 + 0x4 * i
/-- CP_JOB_DMAn (R415). -/
def rCpJobDma (i : Nat) : Nat := 0x3000100420 + 0x4 * i
/-- CP_JOB_VIDs (R415). -/
def rCpJobVid (i : Nat) : Nat := 0x3000100440 + 0x4 * i
/-- CP_JOB_CSIm (R415). -/
def rCpJobCsi (i : Nat) : Nat := 0x30001004C0 + 0x4 * i
/-- CP_CGg_CTL (R415). -/
def rCpCgCtl (i : Nat) : Nat := 0x3000101000 + 0x400 * i
/-- CP_CGg_POINT (R415). -/
def rCpCgPoint (i : Nat) : Nat := 0x3000101004 + 0x400 * i
/-- CP_CGg_TIMEOUT (R415). -/
def rCpCgTimeout (i : Nat) : Nat := 0x3000101008 + 0x400 * i
/-- CP_CGg_TS_LO (R415). -/
def rCpCgTsLo (i : Nat) : Nat := 0x3000101010 + 0x400 * i
/-- CP_CGg_TS_HI (R415). -/
def rCpCgTsHi (i : Nat) : Nat := 0x3000101014 + 0x400 * i
/-- CP_CGg_ADDRi (R415). -/
def rCpCgAddr (i j : Nat) : Nat := 0x3000101100 + 0x400 * i + 0xC * j
/-- CP_CGg_VALUEi (R415). -/
def rCpCgValue (i j : Nat) : Nat := 0x3000101104 + 0x400 * i + 0xC * j
/-- CP_CGg_MASKi (R415). -/
def rCpCgMask (i j : Nat) : Nat := 0x3000101108 + 0x400 * i + 0xC * j
/-- ENG_ID (R10). -/
def rEngId : Nat := 0x3000200000
/-- ENG_CTL (R10). -/
def rEngCtl : Nat := 0x3000200004
/-- ENG_STATUS (R10). -/
def rEngStatus : Nat := 0x3000200008
/-- ENG_SHAPE_CLASS (R126). -/
def rEngShapeClass : Nat := 0x3000200010
/-- ENG_PROG_CLASS (R126). -/
def rEngProgClass : Nat := 0x3000200014
/-- ENG_ADMIT (R126). -/
def rEngAdmit : Nat := 0x3000200018
/-- ENG_ADMIT_STATUS (R126). -/
def rEngAdmitStatus : Nat := 0x300020001C
/-- ENG_START_BAR (R126). -/
def rEngStartBar : Nat := 0x3000200020
/-- ENG_TIE_STATUS (R126). -/
def rEngTieStatus : Nat := 0x3000200024
/-- ENG_TIE_CNT (R126). -/
def rEngTieCnt : Nat := 0x3000200028
/-- ENG_TIE_TIMEOUT (R126). -/
def rEngTieTimeout : Nat := 0x300020002C
/-- ENG_FAULT (R126). -/
def rEngFault : Nat := 0x3000200030
/-- ENG_EVENT_COUNT (R126). -/
def rEngEventCount : Nat := 0x3000200040
/-- ENG_EVENT_DATA (R126). -/
def rEngEventData : Nat := 0x3000200044
/-- ENG_CLk_BAR (R126). -/
def rEngClBar (i : Nat) : Nat := 0x3000200100 + 0x4 * i
/-- CLU_ID (R10). -/
def rCluId (k : Nat) : Nat := 0x3001000000 + 0x100000 * k
/-- CLU_CTL (R10). -/
def rCluCtl (k : Nat) : Nat := 0x3001000004 + 0x100000 * k
/-- CLU_STATUS (R10). -/
def rCluStatus (k : Nat) : Nat := 0x3001000008 + 0x100000 * k
/-- CLUk_TAG_SEL (R198). -/
def rCluTagSel (k : Nat) : Nat := 0x3001000100 + 0x100000 * k
/-- CLUk_TAG_CMD (R198). -/
def rCluTagCmd (k : Nat) : Nat := 0x3001000104 + 0x100000 * k
/-- CLUk_TAG_READ (R198). -/
def rCluTagRead (k : Nat) : Nat := 0x3001000108 + 0x100000 * k
/-- CLUk_TAG_STATUS (R198). -/
def rCluTagStatus (k : Nat) : Nat := 0x300100010C + 0x100000 * k
/-- CLUk_TAG_ERR_CNT (R198). -/
def rCluTagErrCnt (k : Nat) : Nat := 0x3001000110 + 0x100000 * k
/-- CLUk_SCRUB_CTL (R198). -/
def rCluScrubCtl (k : Nat) : Nat := 0x3001000120 + 0x100000 * k
/-- CLUk_ECC_CE_CNT (R198). -/
def rCluEccCeCnt (k : Nat) : Nat := 0x3001000124 + 0x100000 * k
/-- CLUk_ECC_UE_CNT (R198). -/
def rCluEccUeCnt (k : Nat) : Nat := 0x3001000128 + 0x100000 * k
/-- CLUk_PAR_CNT (R198). -/
def rCluParCnt (k : Nat) : Nat := 0x300100012C + 0x100000 * k
/-- CLUk_CONFLICT_CNT (R198). -/
def rCluConflictCnt (k : Nat) : Nat := 0x3001000130 + 0x100000 * k
/-- CLUk_HOLD_CNT (R198). -/
def rCluHoldCnt (k : Nat) : Nat := 0x3001000134 + 0x100000 * k
/-- CLUk_MERGE_CNT (R198). -/
def rCluMergeCnt (k : Nat) : Nat := 0x3001000138 + 0x100000 * k
/-- CLUk_BLOCKED_CNT (R198). -/
def rCluBlockedCnt (k : Nat) : Nat := 0x3001000140 + 0x100000 * k
/-- CLUk_ADV_CNT (R198). -/
def rCluAdvCnt (k : Nat) : Nat := 0x3001000144 + 0x100000 * k
/-- CLUk_STALL_s_c (R198). -/
def rCluStall (k i j : Nat) : Nat := 0x3001000200 + 0x100000 * k + 0x40 * i + 0x4 * j
/-- CLUk_SHAPE_ARGj (R223). -/
def rCluShapeArg (k i : Nat) : Nat := 0x3001000400 + 0x100000 * k + 0x4 * i
/-- CLUk_SHAPE_STATUS (R223). -/
def rCluShapeStatus (k : Nat) : Nat := 0x3001000440 + 0x100000 * k
/-- CLUk_SHAPE_LOG (R223). -/
def rCluShapeLog (k : Nat) : Nat := 0x3001000444 + 0x100000 * k
/-- CLUk_EMPTY_CNT (R223). -/
def rCluEmptyCnt (k : Nat) : Nat := 0x3001000448 + 0x100000 * k
/-- CLUk_TRUNC_CNT (R223). -/
def rCluTruncCnt (k : Nat) : Nat := 0x300100044C + 0x100000 * k
/-- CLUk_STALE_CNT (R223). -/
def rCluStaleCnt (k : Nat) : Nat := 0x3001000450 + 0x100000 * k
/-- CLUk_EPOCH (R223). -/
def rCluEpoch (k : Nat) : Nat := 0x3001000460 + 0x100000 * k
/-- CLUk_EDGE_n_w (R223). -/
def rCluEdge (k i j : Nat) : Nat := 0x3001004000 + 0x100000 * k + 0x40 * i + 0x4 * j
/-- CLUk_WIN_n_w (R245). -/
def rCluWin (k i j : Nat) : Nat := 0x3001008000 + 0x100000 * k + 0x20 * i + 0x4 * j
/-- NC_ID (R10). -/
def rNcId (k : Nat) : Nat := 0x3002000000 + 0x100000 * k
/-- NC_CTL (R10). -/
def rNcCtl (k : Nat) : Nat := 0x3002000004 + 0x100000 * k
/-- NC_STATUS (R10). -/
def rNcStatus (k : Nat) : Nat := 0x3002000008 + 0x100000 * k
/-- NCn_ARITH_STATUS (R57). -/
def rNcArithStatus (k : Nat) : Nat := 0x3002000100 + 0x100000 * k
/-- NCn_ACC_SAT_CNT (R61). -/
def rNcAccSatCnt (k : Nat) : Nat := 0x3002000104 + 0x100000 * k
/-- NCn_CVT_SAT_CNT (R57). -/
def rNcCvtSatCnt (k : Nat) : Nat := 0x3002000108 + 0x100000 * k
/-- NCn_RES_STATUS (R160). -/
def rNcResStatus (k : Nat) : Nat := 0x3002000110 + 0x100000 * k
/-- NCn_RES_CNT (R160). -/
def rNcResCnt (k : Nat) : Nat := 0x3002000114 + 0x100000 * k
/-- NCn_RES_LOG (R160). -/
def rNcResLog (k : Nat) : Nat := 0x3002000118 + 0x100000 * k
/-- NCn_VEC_STATUS (R160). -/
def rNcVecStatus (k : Nat) : Nat := 0x3002000120 + 0x100000 * k
/-- NCn_VEC_OOB_CNT (R160). -/
def rNcVecOobCnt (k : Nat) : Nat := 0x3002000124 + 0x100000 * k
/-- NCn_WIN_STATUS (R245). -/
def rNcWinStatus (k : Nat) : Nat := 0x3002000130 + 0x100000 * k
/-- NCn_PAD_TAP_CNT (R245). -/
def rNcPadTapCnt (k : Nat) : Nat := 0x3002000134 + 0x100000 * k
/-- NCn_WIN_MISS_CNT (R245). -/
def rNcWinMissCnt (k : Nat) : Nat := 0x3002000138 + 0x100000 * k
/-- DMA_ID (R10). -/
def rDmaId : Nat := 0x3004000000
/-- DMA_CTL (R10). -/
def rDmaCtl : Nat := 0x3004000004
/-- DMA_STATUS (R10). -/
def rDmaStatus : Nat := 0x3004000008
/-- DMA_CHn_BASE_LO (R199). -/
def rDmaChBaseLo (i : Nat) : Nat := 0x3004000100 + 0x40 * i
/-- DMA_CHn_BASE_HI (R199). -/
def rDmaChBaseHi (i : Nat) : Nat := 0x3004000104 + 0x40 * i
/-- DMA_CHn_CFG (R199). -/
def rDmaChCfg (i : Nat) : Nat := 0x3004000108 + 0x40 * i
/-- DMA_CHn_HEAD (R199). -/
def rDmaChHead (i : Nat) : Nat := 0x300400010C + 0x40 * i
/-- DMA_CHn_TAIL (R199). -/
def rDmaChTail (i : Nat) : Nat := 0x3004000110 + 0x40 * i
/-- DMA_CHn_DONE_CNT (R199). -/
def rDmaChDoneCnt (i : Nat) : Nat := 0x3004000114 + 0x40 * i
/-- MEM_ID (R10). -/
def rMemId : Nat := 0x3004800000
/-- MEM_CTL (R10). -/
def rMemCtl : Nat := 0x3004800004
/-- MEM_STATUS (R10). -/
def rMemStatus : Nat := 0x3004800008
/-- MEM_DDR_CFG (R356). -/
def rMemDdrCfg : Nat := 0x3004800010
/-- MEM_TRAIN_CTL (R356). -/
def rMemTrainCtl : Nat := 0x3004800014
/-- MEM_TRAIN_STATUS (R356). -/
def rMemTrainStatus : Nat := 0x3004800018
/-- MEM_CAP (R356). -/
def rMemCap : Nat := 0x300480001C
/-- MEM_SCRUB_CTL (R356). -/
def rMemScrubCtl : Nat := 0x3004800030
/-- MEM_UE_ADDR_LO (R356). -/
def rMemUeAddrLo : Nat := 0x3004800040
/-- MEM_UE_ADDR_HI (R356). -/
def rMemUeAddrHi : Nat := 0x3004800044
/-- MEM_UE_INFO (R356). -/
def rMemUeInfo : Nat := 0x3004800048
/-- MEM_CE_CNT (R356). -/
def rMemCeCnt : Nat := 0x3004800060
/-- MEM_UE_CNT (R356). -/
def rMemUeCnt : Nat := 0x3004800064
/-- MEM_DENY_CNT (R356). -/
def rMemDenyCnt : Nat := 0x3004800068
/-- MEM_CONSUME_CNT (R356). -/
def rMemConsumeCnt : Nat := 0x300480006C
/-- MEM_REFUSE_CNT (R356). -/
def rMemRefuseCnt : Nat := 0x3004800070
/-- MEM_SCRUB_PASS_CNT (R356). -/
def rMemScrubPassCnt : Nat := 0x3004800074
/-- MEM_PSCAN_BASE_LO (R356). -/
def rMemPscanBaseLo : Nat := 0x3004800080
/-- MEM_PSCAN_BASE_HI (R356). -/
def rMemPscanBaseHi : Nat := 0x3004800084
/-- MEM_PSCAN_LEN (R356). -/
def rMemPscanLen : Nat := 0x3004800088
/-- MEM_PSCAN_CTL (R356). -/
def rMemPscanCtl : Nat := 0x300480008C
/-- MEM_PSCAN_PCOUNT (R356). -/
def rMemPscanPcount : Nat := 0x3004800090
/-- MEM_PSCAN_FIRST_LO (R356). -/
def rMemPscanFirstLo : Nat := 0x3004800094
/-- MEM_PSCAN_FIRST_HI (R356). -/
def rMemPscanFirstHi : Nat := 0x3004800098
/-- MEM_FW_CTL (R356). -/
def rMemFwCtl : Nat := 0x3004800100
/-- MEM_CE_s_d (R356). -/
def rMemCe (i j : Nat) : Nat := 0x3004800200 + 0x20 * i + 0x4 * j
/-- MEM_RGNr_CTL (R356). -/
def rMemRgnCtl (i : Nat) : Nat := 0x3004801000 + 0x20 * i
/-- MEM_RGNr_BASE (R356). -/
def rMemRgnBase (i : Nat) : Nat := 0x3004801004 + 0x20 * i
/-- MEM_RGNr_SIZE (R356). -/
def rMemRgnSize (i : Nat) : Nat := 0x3004801008 + 0x20 * i
/-- MEM_RGNr_MASK (R356). -/
def rMemRgnMask (i : Nat) : Nat := 0x300480100C + 0x20 * i
/-- MEM_WINw_CTL (R356). -/
def rMemWinCtl (i : Nat) : Nat := 0x3004802000 + 0x20 * i
/-- MEM_WINw_BASE (R356). -/
def rMemWinBase (i : Nat) : Nat := 0x3004802004 + 0x20 * i
/-- MEM_WINw_SIZE (R356). -/
def rMemWinSize (i : Nat) : Nat := 0x3004802008 + 0x20 * i
/-- HPT_ID (R10). -/
def rHptId : Nat := 0x3005000000
/-- HPT_CTL (R10). -/
def rHptCtl : Nat := 0x3005000004
/-- HPT_STATUS (R10). -/
def rHptStatus : Nat := 0x3005000008
/-- HPT_ATTN_PEND (R381). -/
def rHptAttnPend : Nat := 0x3005000010
/-- HPT_ATTN_SET (R381). -/
def rHptAttnSet : Nat := 0x3005000014
/-- HPT_ATTN_MASK (R381). -/
def rHptAttnMask : Nat := 0x3005000018
/-- HPT_UNBACKED_RD_CNT (R381). -/
def rHptUnbackedRdCnt : Nat := 0x3005000040
/-- HPT_UNBACKED_WR_CNT (R381). -/
def rHptUnbackedWrCnt : Nat := 0x3005000044
/-- HPT_PROTO_ERR_CNT (R381). -/
def rHptProtoErrCnt : Nat := 0x3005000048
/-- HPT_MRW_IGN_CNT (R381). -/
def rHptMrwIgnCnt : Nat := 0x300500004C
/-- HPT_REF_CNT (R381). -/
def rHptRefCnt : Nat := 0x3005000050
/-- HPT_IFRST_CNT (R381). -/
def rHptIfrstCnt : Nat := 0x3005000054
/-- HPT_POISON_DROP_CNT (R381). -/
def rHptPoisonDropCnt : Nat := 0x3005000058
/-- HPT_CHc_MODE (R381). -/
def rHptChMode (i : Nat) : Nat := 0x3005000100 + 0x20 * i
/-- CSI_ID (R10). -/
def rCsiId : Nat := 0x3005800000
/-- CSI_CTL (R10). -/
def rCsiCtl : Nat := 0x3005800004
/-- CSI_STATUS (R10). -/
def rCsiStatus : Nat := 0x3005800008
/-- CSI_PORTp_CTL (R302). -/
def rCsiPortCtl (i : Nat) : Nat := 0x3005800100 + 0x20 * i
/-- CSI_PORTp_PKT_COUNT (R302). -/
def rCsiPortPktCount (i : Nat) : Nat := 0x3005800104 + 0x20 * i
/-- CSI_PORTp_ERR (R302). -/
def rCsiPortErr (i : Nat) : Nat := 0x3005800108 + 0x20 * i
/-- CSI_PORTp_CRC_CNT (R302). -/
def rCsiPortCrcCnt (i : Nat) : Nat := 0x300580010C + 0x20 * i
/-- CSI_PORTp_HDR_CNT (R302). -/
def rCsiPortHdrCnt (i : Nat) : Nat := 0x3005800110 + 0x20 * i
/-- CSI_PORTp_DROP_CNT (R302). -/
def rCsiPortDropCnt (i : Nat) : Nat := 0x3005800114 + 0x20 * i
/-- CSI_PORTp_OVR_CNT (R302). -/
def rCsiPortOvrCnt (i : Nat) : Nat := 0x3005800118 + 0x20 * i
/-- CSI_PORTp_FLUSH_CNT (R302). -/
def rCsiPortFlushCnt (i : Nat) : Nat := 0x300580011C + 0x20 * i
/-- CSI_PORTp_HDR_CORR_CNT (R302). -/
def rCsiPortHdrCorrCnt (i : Nat) : Nat := 0x3005800400 + 0x4 * i
/-- CSI_STRm_CFG (R302). -/
def rCsiStrCfg (i : Nat) : Nat := 0x3005801000 + 0x80 * i
/-- CSI_STRm_GEOM (R302). -/
def rCsiStrGeom (i : Nat) : Nat := 0x3005801004 + 0x80 * i
/-- CSI_STRm_OUT (R302). -/
def rCsiStrOut (i : Nat) : Nat := 0x3005801008 + 0x80 * i
/-- CSI_STRm_PADPIX (R302). -/
def rCsiStrPadpix (i : Nat) : Nat := 0x300580100C + 0x80 * i
/-- CSI_STRm_BUF_LO (R302). -/
def rCsiStrBufLo (i : Nat) : Nat := 0x3005801010 + 0x80 * i
/-- CSI_STRm_BUF_HI (R302). -/
def rCsiStrBufHi (i : Nat) : Nat := 0x3005801014 + 0x80 * i
/-- CSI_STRm_BUF_STRIDE (R302). -/
def rCsiStrBufStride (i : Nat) : Nat := 0x3005801018 + 0x80 * i
/-- CSI_STRm_HDR (R302). -/
def rCsiStrHdr (i : Nat) : Nat := 0x300580101C + 0x80 * i
/-- CSI_STRm_TS_OFFSET (R302). -/
def rCsiStrTsOffset (i : Nat) : Nat := 0x3005801020 + 0x80 * i
/-- CSI_STRm_EMB (R302). -/
def rCsiStrEmb (i : Nat) : Nat := 0x3005801024 + 0x80 * i
/-- CSI_STRm_STATS (R302). -/
def rCsiStrStats (i : Nat) : Nat := 0x3005801028 + 0x80 * i
/-- CSI_STRm_WR (R302). -/
def rCsiStrWr (i : Nat) : Nat := 0x300580102C + 0x80 * i
/-- CSI_STRm_REL (R302). -/
def rCsiStrRel (i : Nat) : Nat := 0x3005801030 + 0x80 * i
/-- CSI_STRm_STATUS (R302). -/
def rCsiStrStatus (i : Nat) : Nat := 0x3005801034 + 0x80 * i
/-- CSI_STRm_FRAME_CNT (R302). -/
def rCsiStrFrameCnt (i : Nat) : Nat := 0x3005801038 + 0x80 * i
/-- CSI_STRm_DROP_CNT (R302). -/
def rCsiStrDropCnt (i : Nat) : Nat := 0x300580103C + 0x80 * i
/-- CSI_STRm_DMG_CNT (R302). -/
def rCsiStrDmgCnt (i : Nat) : Nat := 0x3005801040 + 0x80 * i
/-- CSI_STRm_NOFS_CNT (R302). -/
def rCsiStrNofsCnt (i : Nat) : Nat := 0x3005801044 + 0x80 * i
/-- CSI_STRm_LDROP_CNT (R302). -/
def rCsiStrLdropCnt (i : Nat) : Nat := 0x3005801048 + 0x80 * i
/-- CSI_FGg_CTL (R302). -/
def rCsiFgCtl (i : Nat) : Nat := 0x3005803000 + 0x40 * i
/-- CSI_FGg_TOL (R302). -/
def rCsiFgTol (i : Nat) : Nat := 0x3005803004 + 0x40 * i
/-- CSI_FGg_WAIT (R302). -/
def rCsiFgWait (i : Nat) : Nat := 0x3005803008 + 0x40 * i
/-- CSI_FGg_SETQ_COUNT (R302). -/
def rCsiFgSetqCount (i : Nat) : Nat := 0x300580300C + 0x40 * i
/-- CSI_FGg_SETQ_DATA (R302). -/
def rCsiFgSetqData (i : Nat) : Nat := 0x3005803010 + 0x40 * i
/-- CSI_FGg_PARTIAL_CNT (R302). -/
def rCsiFgPartialCnt (i : Nat) : Nat := 0x3005803014 + 0x40 * i
/-- CSI_FGg_OOW_CNT (R302). -/
def rCsiFgOowCnt (i : Nat) : Nat := 0x3005803018 + 0x40 * i
/-- CSI_FGg_OVR_CNT (R302). -/
def rCsiFgOvrCnt (i : Nat) : Nat := 0x300580301C + 0x40 * i
/-- ISP_ID (R10). -/
def rIspId : Nat := 0x3005C00000
/-- ISP_CTL (R10). -/
def rIspCtl : Nat := 0x3005C00004
/-- ISP_STATUS (R10). -/
def rIspStatus : Nat := 0x3005C00008
/-- ISP_ARM_LO (R303). -/
def rIspArmLo : Nat := 0x3005C00100
/-- ISP_ARM_HI (R303). -/
def rIspArmHi : Nat := 0x3005C00104
/-- ISP_PIPEq_PIX_CNT (R303). -/
def rIspPipePixCnt (i : Nat) : Nat := 0x3005C00200 + 0x10 * i
/-- ISP_STRm_PARAM_w (R303). -/
def rIspStrParam (i j : Nat) : Nat := 0x3005C10000 + 0x1000 * i + 0x4 * j
/-- VID_ID (R10). -/
def rVidId : Nat := 0x3006000000
/-- VID_CTL (R10). -/
def rVidCtl : Nat := 0x3006000004
/-- VID_STATUS (R10). -/
def rVidStatus : Nat := 0x3006000008
/-- VID_SESs_CTL (R323). -/
def rVidSesCtl (i : Nat) : Nat := 0x3006001000 + 0x80 * i
/-- VID_SESs_CAP (R323). -/
def rVidSesCap (i : Nat) : Nat := 0x3006001004 + 0x80 * i
/-- VID_SESs_MEM_LO (R323). -/
def rVidSesMemLo (i : Nat) : Nat := 0x3006001008 + 0x80 * i
/-- VID_SESs_MEM_HI (R323). -/
def rVidSesMemHi (i : Nat) : Nat := 0x300600100C + 0x80 * i
/-- VID_SESs_MEM_SIZE (R323). -/
def rVidSesMemSize (i : Nat) : Nat := 0x3006001010 + 0x80 * i
/-- VID_SESs_RING_LO (R323). -/
def rVidSesRingLo (i : Nat) : Nat := 0x3006001014 + 0x80 * i
/-- VID_SESs_RING_HI (R323). -/
def rVidSesRingHi (i : Nat) : Nat := 0x3006001018 + 0x80 * i
/-- VID_SESs_RING_CFG (R323). -/
def rVidSesRingCfg (i : Nat) : Nat := 0x300600101C + 0x80 * i
/-- VID_SESs_HEAD (R323). -/
def rVidSesHead (i : Nat) : Nat := 0x3006001020 + 0x80 * i
/-- VID_SESs_TAIL (R323). -/
def rVidSesTail (i : Nat) : Nat := 0x3006001024 + 0x80 * i
/-- VID_SESs_CAP_BYTES (R323). -/
def rVidSesCapBytes (i : Nat) : Nat := 0x3006001028 + 0x80 * i
/-- VID_SESs_REP_COUNT (R323). -/
def rVidSesRepCount (i : Nat) : Nat := 0x300600102C + 0x80 * i
/-- VID_SESs_REP_DATA (R323). -/
def rVidSesRepData (i : Nat) : Nat := 0x3006001030 + 0x80 * i
/-- VID_SESs_STATUS (R323). -/
def rVidSesStatus (i : Nat) : Nat := 0x3006001034 + 0x80 * i
/-- VID_SESs_DONE_CNT (R323). -/
def rVidSesDoneCnt (i : Nat) : Nat := 0x3006001038 + 0x80 * i
/-- VID_SESs_CONCEAL_CNT (R323). -/
def rVidSesConcealCnt (i : Nat) : Nat := 0x300600103C + 0x80 * i
/-- VID_SESs_DEADLINE_CNT (R323). -/
def rVidSesDeadlineCnt (i : Nat) : Nat := 0x3006001040 + 0x80 * i
/-- VID_SESs_REFUSE_CNT (R323). -/
def rVidSesRefuseCnt (i : Nat) : Nat := 0x3006001044 + 0x80 * i
/-- SHP_ID (R10). -/
def rShpId : Nat := 0x3006400000
/-- SHP_CTL (R10). -/
def rShpCtl : Nat := 0x3006400004
/-- SHP_STATUS (R10). -/
def rShpStatus : Nat := 0x3006400008
/-- SHP_Qq_CTL (R324). -/
def rShpQCtl (i : Nat) : Nat := 0x3006401000 + 0x40 * i
/-- SHP_Qq_BASE_LO (R324). -/
def rShpQBaseLo (i : Nat) : Nat := 0x3006401004 + 0x40 * i
/-- SHP_Qq_BASE_HI (R324). -/
def rShpQBaseHi (i : Nat) : Nat := 0x3006401008 + 0x40 * i
/-- SHP_Qq_GEOM (R324). -/
def rShpQGeom (i : Nat) : Nat := 0x300640100C + 0x40 * i
/-- SHP_Qq_COUNT (R324). -/
def rShpQCount (i : Nat) : Nat := 0x3006401010 + 0x40 * i
/-- SHP_Qq_PTR_A (R324). -/
def rShpQPtrA (i : Nat) : Nat := 0x3006401014 + 0x40 * i
/-- SHP_Qq_PTR_B (R324). -/
def rShpQPtrB (i : Nat) : Nat := 0x3006401018 + 0x40 * i
/-- SHP_Qq_COMMIT_CNT (R324). -/
def rShpQCommitCnt (i : Nat) : Nat := 0x300640101C + 0x40 * i
/-- SHP_Qq_OVR_CNT (R324). -/
def rShpQOvrCnt (i : Nat) : Nat := 0x3006401020 + 0x40 * i
/-- SHP_Qq_REWIND_CNT (R324). -/
def rShpQRewindCnt (i : Nat) : Nat := 0x3006401024 + 0x40 * i
/-- DDL_ID (R10). -/
def rDdlId : Nat := 0x3006800000
/-- DDL_CTL (R10). -/
def rDdlCtl : Nat := 0x3006800004
/-- DDL_STATUS (R10). -/
def rDdlStatus : Nat := 0x3006800008
/-- DDL_CHIP (R439). -/
def rDdlChip : Nat := 0x3006800010
/-- DDL_PREF (R439). -/
def rDdlPref : Nat := 0x3006800014
/-- DDL_SERIAL_LO (R439). -/
def rDdlSerialLo : Nat := 0x3006800018
/-- DDL_SERIAL_HI (R439). -/
def rDdlSerialHi : Nat := 0x300680001C
/-- DDL_OPTO (R439). -/
def rDdlOpto : Nat := 0x3006800020
/-- DDL_HOP_CNT (R439). -/
def rDdlHopCnt : Nat := 0x3006800040
/-- DDL_UNREACH_CNT (R439). -/
def rDdlUnreachCnt : Nat := 0x3006800044
/-- DDL_OPTO_CNT (R439). -/
def rDdlOptoCnt : Nat := 0x3006800048
/-- LINKl_CTL (R439). -/
def rLinkCtl (i : Nat) : Nat := 0x3006800100 + 0x40 * i
/-- LINKl_STATUS (R439). -/
def rLinkStatus (i : Nat) : Nat := 0x3006800104 + 0x40 * i
/-- LINKl_FLAGS (R439). -/
def rLinkFlags (i : Nat) : Nat := 0x3006800108 + 0x40 * i
/-- LINKl_REASON (R439). -/
def rLinkReason (i : Nat) : Nat := 0x300680010C + 0x40 * i
/-- LINKl_CRC_CNT (R439). -/
def rLinkCrcCnt (i : Nat) : Nat := 0x3006800110 + 0x40 * i
/-- LINKl_RETRY_CNT (R439). -/
def rLinkRetryCnt (i : Nat) : Nat := 0x3006800114 + 0x40 * i
/-- LINKl_AUTH_CNT (R439). -/
def rLinkAuthCnt (i : Nat) : Nat := 0x3006800118 + 0x40 * i
/-- LINKl_SPARE_CNT (R439). -/
def rLinkSpareCnt (i : Nat) : Nat := 0x300680011C + 0x40 * i
/-- LINKl_DOWN_CNT (R439). -/
def rLinkDownCnt (i : Nat) : Nat := 0x3006800120 + 0x40 * i
/-- LINKl_TRAIN_FAIL_CNT (R439). -/
def rLinkTrainFailCnt (i : Nat) : Nat := 0x3006800124 + 0x40 * i
/-- LINKl_TX_CNT (R439). -/
def rLinkTxCnt (i : Nat) : Nat := 0x3006800128 + 0x40 * i
/-- LINKl_RX_CNT (R439). -/
def rLinkRxCnt (i : Nat) : Nat := 0x300680012C + 0x40 * i
/-- DDL_ROUTEc (R439). -/
def rDdlRoute (i : Nat) : Nat := 0x3006800400 + 0x4 * i
/-- KEYl_k_Wi (R439). -/
def rKeyW (i j m : Nat) : Nat := 0x3006801000 + 0x100 * i + 0x40 * j + 0x4 * m
/-- KEYl_k_SALT (R439). -/
def rKeySalt (i j : Nat) : Nat := 0x3006801020 + 0x100 * i + 0x40 * j
/-- KEYl_k_CTL (R439). -/
def rKeyCtl (i j : Nat) : Nat := 0x3006801024 + 0x100 * i + 0x40 * j
/-- PWR_ID (R10). -/
def rPwrId : Nat := 0x3007000000
/-- PWR_CTL (R10). -/
def rPwrCtl : Nat := 0x3007000004
/-- PWR_STATUS (R10). -/
def rPwrStatus : Nat := 0x3007000008
/-- PWR_EMERG (R480). -/
def rPwrEmerg : Nat := 0x3007000010
/-- PWR_CAP_LIM (R480). -/
def rPwrCapLim : Nat := 0x3007000014
/-- PWR_NEAP_LINKS (R480). -/
def rPwrNeapLinks : Nat := 0x3007000018
/-- PWR_KP (R480). -/
def rPwrKp : Nat := 0x300700001C
/-- PWR_RMIN (R480). -/
def rPwrRmin : Nat := 0x3007000020
/-- PWR_R (R480). -/
def rPwrR : Nat := 0x3007000024
/-- PWR_P_MW (R480). -/
def rPwrPMw : Nat := 0x3007000028
/-- PWR_CAP_EFF (R480). -/
def rPwrCapEff : Nat := 0x300700002C
/-- PWR_TJ (R480). -/
def rPwrTj : Nat := 0x3007000030
/-- PWR_TEMPi (R480). -/
def rPwrTemp (i : Nat) : Nat := 0x3007000040 + 0x4 * i
/-- PWR_DROOP_MV (R480). -/
def rPwrDroopMv : Nat := 0x3007000080
/-- PWR_RAILr (R480). -/
def rPwrRail (i : Nat) : Nat := 0x3007000100 + 0x4 * i
/-- PWR_DROOP_CNTk (R480). -/
def rPwrDroopCnt (i : Nat) : Nat := 0x3007000200 + 0x4 * i
/-- PWR_ACT_s_e (R480). -/
def rPwrAct (i j : Nat) : Nat := 0x3007004000 + 0x20 * i + 0x4 * j
/-- RAS_ID (R10). -/
def rRasId : Nat := 0x3007400000
/-- RAS_CTL (R10). -/
def rRasCtl : Nat := 0x3007400004
/-- RAS_STATUS (R10). -/
def rRasStatus : Nat := 0x3007400008
/-- RAS_CANARY_CTL (R463). -/
def rRasCanaryCtl : Nat := 0x3007400010
/-- RAS_SNAP_CTL (R463). -/
def rRasSnapCtl : Nat := 0x3007400020
/-- RAS_SNAP_BASE_LO (R463). -/
def rRasSnapBaseLo : Nat := 0x3007400024
/-- RAS_SNAP_BASE_HI (R463). -/
def rRasSnapBaseHi : Nat := 0x3007400028
/-- RAS_EVT_COUNT (R463). -/
def rRasEvtCount : Nat := 0x3007400030
/-- RAS_EVT_DATA (R463). -/
def rRasEvtData : Nat := 0x3007400034
/-- RAS_DUAL_N (R463). -/
def rRasDualN : Nat := 0x3007400038
/-- RAS_SUSPECT (R463). -/
def rRasSuspect : Nat := 0x300740003C
/-- RAS_RETIRE_CORES (R463). -/
def rRasRetireCores : Nat := 0x3007400040
/-- RAS_RETIRE_CSTORE (R463). -/
def rRasRetireCstore : Nat := 0x3007400044
/-- RAS_RETIRE_PIPE (R463). -/
def rRasRetirePipe : Nat := 0x3007400048
/-- RAS_CFG_EPOCH (R463). -/
def rRasCfgEpoch : Nat := 0x3007400050
/-- RAS_QUAR (R463). -/
def rRasQuar : Nat := 0x3007400054
/-- RAS_QUAR_REL (R463). -/
def rRasQuarRel : Nat := 0x3007400058
/-- RAS_KSCRUB (R463). -/
def rRasKscrub : Nat := 0x300740005C
/-- RAS_ISL_EPOCHi (R463). -/
def rRasIslEpoch (i : Nat) : Nat := 0x3007400080 + 0x4 * i
/-- RAS_CMP_A_LO (R463). -/
def rRasCmpALo : Nat := 0x3007400100
/-- RAS_CMP_A_HI (R463). -/
def rRasCmpAHi : Nat := 0x3007400104
/-- RAS_CMP_B_LO (R463). -/
def rRasCmpBLo : Nat := 0x3007400108
/-- RAS_CMP_B_HI (R463). -/
def rRasCmpBHi : Nat := 0x300740010C
/-- RAS_CMP_LEN (R463). -/
def rRasCmpLen : Nat := 0x3007400110
/-- RAS_CMP_CTL (R463). -/
def rRasCmpCtl : Nat := 0x3007400114
/-- RAS_CMP_FIRST (R463). -/
def rRasCmpFirst : Nat := 0x3007400118
/-- RAS_DETc_CNT (R463). -/
def rRasDetCnt (i : Nat) : Nat := 0x3007400200 + 0x4 * i
/-- RAS_CANARY_CNT (R463). -/
def rRasCanaryCnt : Nat := 0x3007400240
/-- RAS_DUAL_CNT (R463). -/
def rRasDualCnt : Nat := 0x3007400244
/-- RAS_KILL_CNT (R463). -/
def rRasKillCnt : Nat := 0x3007400248
/-- SEC_ID (R10). -/
def rSecId : Nat := 0x3007800000
/-- SEC_CTL (R10). -/
def rSecCtl : Nat := 0x3007800004
/-- SEC_STATUS (R10). -/
def rSecStatus : Nat := 0x3007800008
/-- SEC_LOCK (R506). -/
def rSecLock : Nat := 0x3007800010
/-- SEC_KEYS (R506). -/
def rSecKeys : Nat := 0x3007800014
/-- SEC_RB (R506). -/
def rSecRb : Nat := 0x3007800018
/-- SEC_BANK (R506). -/
def rSecBank : Nat := 0x300780001C
/-- SEC_VP_BLOCKS (R506). -/
def rSecVpBlocks : Nat := 0x3007800020
/-- SEC_TRNG_COUNT (R506). -/
def rSecTrngCount : Nat := 0x3007800030
/-- SEC_TRNG_DATA (R506). -/
def rSecTrngData : Nat := 0x3007800034
/-- SEC_BLKFAIL_CNT (R506). -/
def rSecBlkfailCnt : Nat := 0x3007800040
/-- SEC_BOOT_NONCEw (R506). -/
def rSecBootNonce (i : Nat) : Nat := 0x3007800080 + 0x4 * i
/-- BOOT_ID (R10). -/
def rBootId : Nat := 0x3007900000
/-- BOOT_CTL (R10). -/
def rBootCtl : Nat := 0x3007900004
/-- BOOT_STATUS (R10). -/
def rBootStatus : Nat := 0x3007900008
/-- BOOT_ORDER (R507). -/
def rBootOrder : Nat := 0x3007900010
/-- BOOT_TRYk (R507). -/
def rBootTry (i : Nat) : Nat := 0x3007900020 + 0x4 * i
/-- BOOT_TIME (R507). -/
def rBootTime : Nat := 0x3007900050
/-- ETH_ID (R10). -/
def rEthId : Nat := 0x3007C00000
/-- ETH_CTL (R10). -/
def rEthCtl : Nat := 0x3007C00004
/-- ETH_STATUS (R10). -/
def rEthStatus : Nat := 0x3007C00008
/-- ETH_SVC_CTL (R521). -/
def rEthSvcCtl : Nat := 0x3007C00010
/-- ETH_SVC_IRQ (R521). -/
def rEthSvcIrq : Nat := 0x3007C00014
/-- ETH_SVC_IRQ_SET (R521). -/
def rEthSvcIrqSet : Nat := 0x3007C00018
/-- ETH_Pp_CTL (R521). -/
def rEthPCtl (i : Nat) : Nat := 0x3007C01000 + 0x400 * i
/-- ETH_Pp_STATUS (R521). -/
def rEthPStatus (i : Nat) : Nat := 0x3007C01004 + 0x400 * i
/-- ETH_Pp_TX_BASE_LO (R521). -/
def rEthPTxBaseLo (i : Nat) : Nat := 0x3007C01008 + 0x400 * i
/-- ETH_Pp_TX_BASE_HI (R521). -/
def rEthPTxBaseHi (i : Nat) : Nat := 0x3007C0100C + 0x400 * i
/-- ETH_Pp_TX_CFG (R521). -/
def rEthPTxCfg (i : Nat) : Nat := 0x3007C01010 + 0x400 * i
/-- ETH_Pp_TX_HEAD (R521). -/
def rEthPTxHead (i : Nat) : Nat := 0x3007C01014 + 0x400 * i
/-- ETH_Pp_TX_TAIL (R521). -/
def rEthPTxTail (i : Nat) : Nat := 0x3007C01018 + 0x400 * i
/-- ETH_Pp_RX_BASE_LO (R521). -/
def rEthPRxBaseLo (i : Nat) : Nat := 0x3007C01020 + 0x400 * i
/-- ETH_Pp_RX_BASE_HI (R521). -/
def rEthPRxBaseHi (i : Nat) : Nat := 0x3007C01024 + 0x400 * i
/-- ETH_Pp_RX_CFG (R521). -/
def rEthPRxCfg (i : Nat) : Nat := 0x3007C01028 + 0x400 * i
/-- ETH_Pp_RX_HEAD (R521). -/
def rEthPRxHead (i : Nat) : Nat := 0x3007C0102C + 0x400 * i
/-- ETH_Pp_RX_TAIL (R521). -/
def rEthPRxTail (i : Nat) : Nat := 0x3007C01030 + 0x400 * i
/-- ETH_Pp_TX_CNT (R521). -/
def rEthPTxCnt (i : Nat) : Nat := 0x3007C01040 + 0x400 * i
/-- ETH_Pp_RX_CNT (R521). -/
def rEthPRxCnt (i : Nat) : Nat := 0x3007C01044 + 0x400 * i
/-- ETH_Pp_FCS_CNT (R521). -/
def rEthPFcsCnt (i : Nat) : Nat := 0x3007C01048 + 0x400 * i
/-- ETH_Pp_NOBUF_CNT (R521). -/
def rEthPNobufCnt (i : Nat) : Nat := 0x3007C0104C + 0x400 * i
/-- ETH_Pp_TX_POISON_CNT (R521). -/
def rEthPTxPoisonCnt (i : Nat) : Nat := 0x3007C01050 + 0x400 * i
/-- TIM_ID (R10). -/
def rTimId : Nat := 0x3007D00000
/-- TIM_CTL (R10). -/
def rTimCtl : Nat := 0x3007D00004
/-- TIM_STATUS (R10). -/
def rTimStatus : Nat := 0x3007D00008
/-- TIM_NOW_LO (R521). -/
def rTimNowLo : Nat := 0x3007D00010
/-- TIM_NOW_HI (R521). -/
def rTimNowHi : Nat := 0x3007D00014
/-- TIM_RATE (R521). -/
def rTimRate : Nat := 0x3007D00018
/-- TIM_STEP_LO (R521). -/
def rTimStepLo : Nat := 0x3007D00020
/-- TIM_STEP_HI (R521). -/
def rTimStepHi : Nat := 0x3007D00024
/-- TIM_LINK_CFG (R521). -/
def rTimLinkCfg : Nat := 0x3007D00028
/-- TIM_OFFSET (R521). -/
def rTimOffset : Nat := 0x3007D0002C
/-- TIM_DELAY (R521). -/
def rTimDelay : Nat := 0x3007D00030
/-- TIM_STEP_CNT (R521). -/
def rTimStepCnt : Nat := 0x3007D00040
/-- TIM_SYNC_CNT (R521). -/
def rTimSyncCnt : Nat := 0x3007D00044
/-- TIM_SYNC_SKIP_CNT (R521). -/
def rTimSyncSkipCnt : Nat := 0x3007D00048
/-- TRG_ID (R10). -/
def rTrgId : Nat := 0x3007E00000
/-- TRG_CTL (R10). -/
def rTrgCtl : Nat := 0x3007E00004
/-- TRG_STATUS (R10). -/
def rTrgStatus : Nat := 0x3007E00008
/-- TRG_IN_LEVEL (R521). -/
def rTrgInLevel : Nat := 0x3007E00010
/-- TRG_EVT_COUNT (R521). -/
def rTrgEvtCount : Nat := 0x3007E00020
/-- TRG_EVT_DATA (R521). -/
def rTrgEvtData : Nat := 0x3007E00024
/-- TRG_INi_CFG (R521). -/
def rTrgInCfg (i : Nat) : Nat := 0x3007E00100 + 0x4 * i
/-- TRG_OUTo_CTL (R521). -/
def rTrgOutCtl (i : Nat) : Nat := 0x3007E01000 + 0x40 * i
/-- TRG_OUTo_START_LO (R521). -/
def rTrgOutStartLo (i : Nat) : Nat := 0x3007E01004 + 0x40 * i
/-- TRG_OUTo_START_HI (R521). -/
def rTrgOutStartHi (i : Nat) : Nat := 0x3007E01008 + 0x40 * i
/-- TRG_OUTo_PERIOD (R521). -/
def rTrgOutPeriod (i : Nat) : Nat := 0x3007E0100C + 0x40 * i
/-- TRG_OUTo_WIDTH (R521). -/
def rTrgOutWidth (i : Nat) : Nat := 0x3007E01010 + 0x40 * i
/-- TRG_OUTo_COUNT (R521). -/
def rTrgOutCount (i : Nat) : Nat := 0x3007E01014 + 0x40 * i
/-- TRG_OUTo_DELAY (R521). -/
def rTrgOutDelay (i : Nat) : Nat := 0x3007E01018 + 0x40 * i
/-- TRG_OUTo_PULSE_CNT (R521). -/
def rTrgOutPulseCnt (i : Nat) : Nat := 0x3007E0101C + 0x40 * i
/-- TRG_OUTo_MISS_CNT (R521). -/
def rTrgOutMissCnt (i : Nat) : Nat := 0x3007E01020 + 0x40 * i
/-- TRG_OUTo_BUSY_CNT (R521). -/
def rTrgOutBusyCnt (i : Nat) : Nat := 0x3007E01024 + 0x40 * i
/-- SIO_ID (R10). -/
def rSioId : Nat := 0x3007F00000
/-- SIO_CTL (R10). -/
def rSioCtl : Nat := 0x3007F00004
/-- SIO_STATUS (R10). -/
def rSioStatus : Nat := 0x3007F00008
/-- SIO_I2Cn_CTL (R520). -/
def rSioI2cCtl (i : Nat) : Nat := 0x3007F01000 + 0x100 * i
/-- SIO_I2Cn_CMD (R520). -/
def rSioI2cCmd (i : Nat) : Nat := 0x3007F01004 + 0x100 * i
/-- SIO_I2Cn_CMD_COUNT (R520). -/
def rSioI2cCmdCount (i : Nat) : Nat := 0x3007F01008 + 0x100 * i
/-- SIO_I2Cn_RX_COUNT (R520). -/
def rSioI2cRxCount (i : Nat) : Nat := 0x3007F0100C + 0x100 * i
/-- SIO_I2Cn_RX_DATA (R520). -/
def rSioI2cRxData (i : Nat) : Nat := 0x3007F01010 + 0x100 * i
/-- SIO_I2Cn_STATUS (R520). -/
def rSioI2cStatus (i : Nat) : Nat := 0x3007F01014 + 0x100 * i
/-- SIO_SPIn_CTL (R520). -/
def rSioSpiCtl (i : Nat) : Nat := 0x3007F02000 + 0x100 * i
/-- SIO_SPIn_CMD (R520). -/
def rSioSpiCmd (i : Nat) : Nat := 0x3007F02004 + 0x100 * i
/-- SIO_SPIn_CMD_COUNT (R520). -/
def rSioSpiCmdCount (i : Nat) : Nat := 0x3007F02008 + 0x100 * i
/-- SIO_SPIn_RX_COUNT (R520). -/
def rSioSpiRxCount (i : Nat) : Nat := 0x3007F0200C + 0x100 * i
/-- SIO_SPIn_RX_DATA (R520). -/
def rSioSpiRxData (i : Nat) : Nat := 0x3007F02010 + 0x100 * i
/-- SIO_SPIn_STATUS (R520). -/
def rSioSpiStatus (i : Nat) : Nat := 0x3007F02014 + 0x100 * i
/-- SIO_UARTn_CTL (R520). -/
def rSioUartCtl (i : Nat) : Nat := 0x3007F03000 + 0x100 * i
/-- SIO_UARTn_CMD (R520). -/
def rSioUartCmd (i : Nat) : Nat := 0x3007F03004 + 0x100 * i
/-- SIO_UARTn_CMD_COUNT (R520). -/
def rSioUartCmdCount (i : Nat) : Nat := 0x3007F03008 + 0x100 * i
/-- SIO_UARTn_RX_COUNT (R520). -/
def rSioUartRxCount (i : Nat) : Nat := 0x3007F0300C + 0x100 * i
/-- SIO_UARTn_RX_DATA (R520). -/
def rSioUartRxData (i : Nat) : Nat := 0x3007F03010 + 0x100 * i
/-- SIO_UARTn_STATUS (R520). -/
def rSioUartStatus (i : Nat) : Nat := 0x3007F03014 + 0x100 * i
/-- SIO_GPIO_CTL (R520). -/
def rSioGpioCtl : Nat := 0x3007F04000

end Sys2Proof.Machine
end

