-- ==== Sys2Proof/Machine/SMap.lean ====
section
/-! DEFINITION. Reading and writing sparse data in its canonical form: `mget` reads, `mput` writes one key and keeps
the form (`mwf`), and byte runs are built from them in one place. -/

namespace Sys2Proof.Machine

/-- The value at a key; an unlisted key reads as `d`. -/
def mget {α : Type} (d : Nat → α) : Sparse α → Nat → α
  | [], k => d k
  | (k', v) :: m, k => if k = k' then v else mget d m k

/-- Writing a key. Writing what an unlisted key reads as removes the entry. -/
def mput {α : Type} [DecidableEq α] (d : Nat → α) (k : Nat) (v : α) : Sparse α → Sparse α
  | [] => if v = d k then [] else [(k, v)]
  | (k', v') :: m =>
    if k < k' then (if v = d k then (k', v') :: m else (k, v) :: (k', v') :: m)
    else if k = k' then (if v = d k then m else (k, v) :: m)
    else (k', v') :: mput d k v m

/-- Every key of the list is above `b`, keys rise strictly and no entry is the default. -/
def mwfAbove {α : Type} [DecidableEq α] (d : Nat → α) : Nat → Sparse α → Bool
  | _, [] => true
  | b, (k, v) :: m => b ≤ k && v != d k && mwfAbove d (k + 1) m

/-- The canonical form of sparse data. -/
def mwf {α : Type} [DecidableEq α] (d : Nat → α) (m : Sparse α) : Bool := mwfAbove d 0 m

/-- Writing several keys, the first first. -/
def mputs {α : Type} [DecidableEq α] (d : Nat → α) : List (Nat × α) → Sparse α → Sparse α
  | [], m => m
  | (k, v) :: kvs, m => mputs d kvs (mput d k v m)

/-- The run of `n` values from key `k`. -/
def mgetRun {α : Type} (d : Nat → α) (m : Sparse α) (k : Nat) : Nat → List α
  | 0 => []
  | n + 1 => mget d m k :: mgetRun d m (k + 1) n

/-- Writing a run of values from key `k`. -/
def mputRun {α : Type} [DecidableEq α] (d : Nat → α) (k : Nat) : List α → Sparse α → Sparse α
  | [], m => m
  | v :: vs, m => mputRun d (k + 1) vs (mput d k v m)

/-- Setting every key of a range to one value. -/
def mfill {α : Type} [DecidableEq α] (d : Nat → α) (k : Nat) (v : α) : Nat → Sparse α → Sparse α
  | 0, m => m
  | n + 1, m => mfill d (k + 1) v n (mput d k v m)

/-- Removing every entry whose key lies in a range: the keys of the range read as the default again. -/
def mclear {α : Type} (lo hi : Nat) (m : Sparse α) : Sparse α :=
  m.filter fun e => e.1 < lo || hi ≤ e.1

/-- What an unwritten byte of an on-die SRAM reads as: R537 writes every SRAM to zero at a chip reset. -/
def byte0 : Nat → Byte := fun _ => 0

/-- An unset flag. -/
def flag0 : Nat → Bool := fun _ => false

/-- A zero word. -/
def word0 : Nat → Word := fun _ => 0

/-- A zero number. -/
def nat0 : Nat → Nat := fun _ => 0

end Sys2Proof.Machine
end

