-- ==== Sys2Proof/Machine/Types.lean ====
section
/-! DEFINITION. The pieces of state of the neural engine, its memories and its programs (chapters 01 to 09 and 12). -/

namespace Sys2Proof.Machine
open Sys2Proof

/-! ### Slots and tags (05 section 2) -/

/-- Table 5.2: the tag of a slot. -/
inductive Tag where
  | empty
  | filling
  | full
  | invalid
  deriving DecidableEq, Repr

/-- Table 5.3: the SRC class of a slot. -/
inductive Src where
  | loc
  | halo
  | link
  deriving DecidableEq, Repr

/-- R168: the owner of a slot's current fill, and the issuer of a write operation: a core's bar, the pending list of a
cluster, a chip DMA channel, another chip's cluster, or nobody. -/
inductive Owner where
  | none
  | core (n : Nat)
  | cluster (k : Nat)
  | dma (ch : Nat)
  | remote (chip k : Nat)
  deriving DecidableEq, Repr

/-- R168: the state of one slot. -/
structure Slot where
  tag : Tag := .empty
  src : Src := .loc
  owner : Owner := .none
  deriving DecidableEq, Repr

/-! ### The matrix array and the planes (04 sections 1 to 3) -/

/-- What a plane row carries beside its elements: whether its residue shadows are valid (R138), the saturation mark
(R61), the poison mark (R140) and the plane extent of R212. -/
structure PlaneRow where
  shValid : Bool := false
  sat : Bool := false
  pois : Bool := false
  valid : Bool := false
  nc : Nat := 0
  deriving DecidableEq, Repr

/-- Where one activation row comes from: runs of SPM bytes (address, length), or a pad row of R234 with the events it
raises when it is formed (a window miss, a padded tap) and whether it is one of ZERO mode. -/
inductive RowSrc where
  | mem (runs : List (Nat × Nat))
  | pad (bytes : List Byte) (miss tap zero : Bool)
  deriving DecidableEq, Repr

/-- A matrix instruction in the array (R134): its beat of issue, its fields, its valid rows and columns (R132), the
sources of its rows, and the operands read so far (R131): activation rows, those of them that are pad rows of ZERO mode
(R234), weight rows, scales, with their poison; and the column errors of an injected array fault. -/
structure MxFlight where
  issue : Nat
  plane : Nat
  wfmt : Nat
  afmt : Nat
  nr : Nat
  nc : Nat
  rq : Nat
  sub32 : Bool
  start : Bool
  src : List RowSrc
  bAddr : Nat
  auxAddr : Nat
  a : List (List Byte)
  aPois : List Bool
  aZero : List Bool
  b : List (List Byte)
  bPois : Bool
  rowSc : List Byte
  colSc : List Byte
  flt : List (Nat × Int)
  deriving DecidableEq, Repr

/-! ### The vector unit (04 section 5, 08 section 2) -/

/-- R248: the generator state. -/
structure Gen where
  keyLo : Word := 0
  keyHi : Word := 0
  stream : Word := 0
  round : Nat := 0
  idxHi : Word := 0
  rinc : Word := 0
  ri : Sparse Word := []
  deriving DecidableEq, Repr

/-- A result on its way to its destination. Register lanes are keyed by register * 64 + lane; a memory write carries the
poison flag of the lane each byte comes from and the writer's rank of R163 (2 MV, 1 VX, 0 DRAIN); a nibble write names
the byte, whether it is the high nibble, and the value. -/
inductive PendW where
  | lanes (ws : List (Nat × Word × Bool))
  | mask (m : Nat) (v : BitVec 64)
  | maskOr (m : Nat) (v : BitVec 64)
  | mem (rank : Nat) (ws : List (Nat × Byte × Bool))
  | nib (rank : Nat) (ws : List (Nat × Bool × Nat × Bool))
  | pb (ws : List (Nat × Word))
  | tab (ws : List (Nat × Word))
  | drec (chunk : Nat) (bytes : List Byte)
  | gen (g : Gen)
  | commit (slot : Nat)
  deriving DecidableEq, Repr

/-- A result due at the end of a beat, and the beat in which it was issued. -/
structure Pend where
  due : Nat
  born : Nat
  w : PendW
  deriving DecidableEq, Repr

/-- R239: the running sums of the depthwise form of VDOT4, forwarded from quad to quad. -/
structure DwRun where
  sum : List Word
  pois : List Bool
  deriving DecidableEq, Repr

/-- R87: the GUARD of a core slot. -/
structure Grd where
  lvl : Nat
  mode : Nat
  v : Nat
  deriving DecidableEq, Repr

/-- The state of one neural core. Planes are keyed by plane * 4096 + row * 64 + column, row sums and row marks by
plane * 64 + row, vector lanes by register * 64 + lane, function tables by table * 1024 + (0 LO, 1 INV_W, 2 + 2i BASE,
3 + 2i SLOPE). `word` and `wordAt` are the core slot of the most recent bar in which the core's slot was present, and the
beat in which that bar began (R84); `used` are the words that bar-driven accesses have used in the current beat, and
`late` those of the write halves that follow in the next (R162, R164). -/
structure Core where
  acc : Sparse Word := []
  rs : Sparse Word := []
  shadow : Sparse Nat := []
  rows : Sparse PlaneRow := []
  vreg : Sparse Word := []
  vpois : Sparse Bool := []
  masks : Sparse (BitVec 64) := []
  pb : Sparse Word := []
  tabs : Sparse Word := []
  drec : Sparse Byte := []
  drecOk : Bool := false
  gen : Gen := {}
  mx : List MxFlight := []
  pend : List Pend := []
  dw : Option DwRun := none
  hold : Bool := false
  guard : Option Grd := none
  word : Nat := 0
  wordAt : Nat := 0
  used : List Nat := []
  late : List Nat := []
  deriving DecidableEq, Repr

/-! ### Bars and nests (03 sections 1 to 5) -/

/-- Table 3.2: a bar header. -/
structure BarHdr where
  rep : Nat
  tpart : Nat
  cg : Bool
  port : Bool
  tieLvl : Nat
  tie : Bool
  kpres : Nat
  cpres : Nat
  deriving DecidableEq, Repr

/-- A stream of a nest descriptor (Table 3.7). -/
structure Strm where
  off : Int
  inc : Int
  en : Bool
  base : Nat
  deriving DecidableEq, Repr

/-- A level record (Table 3.8): its four strides are those of streams A, B, OUT and AUX. -/
structure Lvl where
  outer : Bool
  dim : Nat
  bound : Nat
  str : List Int
  deriving DecidableEq, Repr

/-- A nest descriptor (Table 3.7). -/
structure NestDesc where
  levels : Nat
  bodyFirst : Nat
  bodyLast : Nat
  src : List Nat
  strm : List Strm
  lvl : List Lvl
  deriving DecidableEq, Repr

/-- A loaded nest: its number and descriptor, the resolved bounds and the extents latched at entry (R203), the index
vector, the completed passes, and whether its body is still running (R98). -/
structure NestSt where
  id : Nat
  desc : NestDesc
  bound : List Nat
  ext : List Nat
  idx : List Nat
  pass : Nat
  inBody : Bool
  deriving DecidableEq, Repr

/-! ### Transfers (05 sections 4 to 8) -/

/-- R190: one transfer that has merged into another: its length, whether its row is masked, its PAD, class and route. -/
structure XPart where
  len : Nat
  masked : Bool
  pad : Nat
  cls : Src
  ring : Bool
  dirDec : Bool
  hops : Nat
  deriving DecidableEq, Repr

/-- A transfer of a pending list (R180 to R192): endpoints, row geometry, the rows that the last-tile rule masks (R216),
its tag options, the SRC class its fills take, its route, the epoch and job its operations carry (R220, R346), the
sample queue a QPOP copies from, the transfers merged into it where they differ from it (R190), how far it has come, and
the destination slots, with their chip, of writes that were refused (R193). -/
structure Xfer where
  id : Nat
  src : Nat
  dst : Nat
  sInc : Int
  dInc : Int
  rowLen : Nat
  rows : Nat
  maskFrom : Nat
  pad : Nat
  swait : Bool
  srel : Bool
  commit : Bool
  nomerge : Bool
  mergeable : Bool
  cls : Src
  ring : Bool
  dirDec : Bool
  hops : Nat
  epoch : Nat
  job : Nat
  queue : Option Nat
  next : Nat := 0
  reads : Nat := 0
  acks : Nat := 0
  released : Bool := false
  parts : List XPart := []
  denied : List (Nat × Nat) := []
  deriving DecidableEq, Repr

/-- One 64-byte operation in flight (R183): its transfer and index, its addresses, the core it is charged to, what it
carries with it (route, SRC class, epoch, job), the data once read, with the poison flag of each byte's word, whether its
write has left, its TAG where it is remote (R433), and the window that a write to another chip has passed, with the closes of
that window before it (R355). -/
structure XOp where
  xid : Nat
  ix : Nat
  src : Nat
  dst : Nat
  len : Nat
  core : Nat
  ring : Bool
  cls : Src
  epoch : Nat
  job : Nat
  data : Option (List Byte × List Bool)
  sent : Bool := false
  tag : Option Nat := none
  pass : Option (Nat × Nat) := none
  deriving DecidableEq, Repr

/-- R171: a write operation held in the hold store of a memory (0 to 39): its address, its issuer, the SRC class of a fill
that it begins, its transfer and index (or the TAG of a remote one), its job, and its data. -/
structure Held where
  mem : Nat
  addr : Nat
  owner : Owner
  cls : Src
  xid : Nat
  ix : Nat
  job : Nat
  data : List Byte
  pois : List Bool
  deriving DecidableEq, Repr

/-- A parsed bar segment (R77): the bar, its header, and the core-slot and cluster-slot words present. -/
structure BarSeg where
  bar : Nat
  hdr : BarHdr
  slots : List (Nat × Nat)
  kslot : Option Nat
  deriving DecidableEq, Repr

/-- The state of one cluster: beats run, the running bar with the beats of it that have passed (R81), the actions of it
that have acted, by position * 8 + field (R83, R88, R89), the actions that block its current beat and those of them that
the current blocked beat has recorded (R37, R39), whether its tie-point's arrival has been sent, the fetch unit (R111), the loaded and the entered nest (R93),
the data-dependent bound in force and the one its running bar has loaded (R90), the tie-point state (R41, R105) with the
beats left of its tie-point window (R167), the pending list, the operations in flight, the scrub pointers (R167) and the
token bucket (R471, R473). -/
structure Cluster where
  beat : Nat := 0
  bar : Option BarSeg := none
  pos : Nat := 0
  acted : List Nat := []
  held : List Nat := []
  hit : List Nat := []
  tied : Bool := false
  blocked : Bool := false
  fetchBar : Nat := 0
  fetchOff : Nat := 0
  fbuf : List Byte := []
  nest : Option NestSt := none
  nestNext : Option NestSt := none
  ddBound : Option Nat := none
  ddNext : Option Nat := none
  running : Bool := false
  waiting : Bool := false
  parked : Bool := false
  winLeft : Nat := 0
  xfers : List Xfer := []
  nextXid : Nat := 0
  ops : List XOp := []
  scrub : List Nat := [0, 0, 0, 0, 0]
  bucket : Nat := 0
  droop : Option Nat := none
  droopSteps : Nat := 0
  deriving DecidableEq, Repr

/-! ### The engine (03 sections 6 to 9) -/

/-- A tie-point as its bar header gives it: the bar, TPART, PORT and CG. -/
structure Tie where
  bar : Nat
  part : Nat
  port : Bool
  cg : Bool
  deriving DecidableEq, Repr

/-- A release sent by the tie hub (R41, R105, R106, R410): its tie-point, whether it starts the clusters at ENG_START_BAR,
the park order, and the commit groups it is tagged with, in the order in which they were armed, with their actions (address,
value, mask). -/
structure Release where
  tie : Tie
  start : Bool
  park : Bool
  groups : List Nat
  acts : List (Nat × Nat × Nat)
  deriving DecidableEq, Repr

/-- A program scan in progress (R122): whether a bank write or a mapping change has made it stale. -/
structure Scan where
  stale : Bool
  deriving DecidableEq, Repr

/-- R15 to R17: a FIFO: the committed entries, each of one or more words, oldest first; the words of the packet being
written; the word index within the oldest entry; the OVR flag; whether the packet being written is being dropped; and its
overrun and empty-read counters, modulo 2^32. -/
structure Fifo where
  ents : List (List Word) := []
  part : List Word := []
  rd : Nat := 0
  ovr : Bool := false
  drop : Bool := false
  lost : Nat := 0
  dry : Nat := 0
  deriving DecidableEq, Repr

/-- R36: what crosses from one island to another. -/
inductive Cross where
  | arrival (k : Nat) (t : Tie)
  | commit (owner : Owner) (epoch : Nat) (slots : List Nat)
  | release (epoch : Nat) (slots : List Nat)
  deriving DecidableEq, Repr

/-- A value between two islands, not yet visible in the second. -/
structure Crossing where
  src : Nat
  dst : Nat
  what : Cross
  deriving DecidableEq, Repr

/-! ### Memory (12) -/

/-- R339: the tag of a DRAM line. -/
structure LineTag where
  poisA : Bool := false
  poisB : Bool := false
  lost : Bool := false
  job : Nat := 0
  fmt : Nat := 0
  epoch : Nat := 0
  deriving DecidableEq, Repr

/-- A DRAM line that has been written since the last chip reset: 64 bytes and the tag. -/
structure DLine where
  data : List Byte
  tag : LineTag
  deriving DecidableEq, Repr

end Sys2Proof.Machine
end

