-- ==== Sys2Proof/Machine/TypesFw.lean ====
section
/-! DEFINITION. The pieces of state of firmware: mailbox, objects, program, jobs and commit groups (chapters 13, 14, 18). -/

namespace Sys2Proof.Machine
open Sys2Proof

/-- What a commit group carries beside its registers (R405 to R411): whether CG_OPEN has opened it, the request
its outcome goes to, whether the CG_COMMIT that prepared it is still to be answered, whether the arbiter has tagged a
release with it, the islands still to answer, the time of PREPARE or of arming, POINT_REF of the point that was reached,
and how many actions CG_STAGE has added. -/
structure Cg where
  isOpen : Bool := false
  owner : Option Rq := none
  answer : Bool := false
  tagged : Bool := false
  wait : List Nat := []
  at0 : Nat := 0
  ref : Nat := 0
  staged : Nat := 0
  deriving DecidableEq, Repr

/-- An object of the object commands (R389, R494): its handle, KIND, TOTAL, where firmware keeps its bytes, the ranges
written, whether it is closed, and, once its signature block has been checked, CLASS, SLOT, VERSION,
DIGEST, SERIAL_BIND and the 64-byte body of a token or revocation; the hashes of the blocks pinned
and those verified since, the firewall region of the pinned bytes, and whether the object is in use. -/
structure Obj where
  handle : Nat
  kind : Nat
  total : Nat
  base : Nat
  wr : List (Nat × Nat) := []
  closed : Bool := false
  cls : Nat := 0
  slot : Nat := 0
  version : Nat := 0
  digest : List Byte := []
  bind : Nat := 0
  body : List Byte := []
  hashes : List (List Byte) := []
  verified : List Nat := []
  region : Option Nat := none
  inUse : Bool := false
  deriving DecidableEq, Repr

/-- A tensor of a portable tie-point record (R119): NAME, LOC, SIZE, FORMAT and FLAGS. -/
structure Tensor where
  name : Nat
  loc : Nat
  size : Nat
  fmt : Nat
  flags : Nat
  deriving DecidableEq, Repr

/-- A portable tie-point record (R119): PTID, BAR and the live tensors. -/
structure PtRec where
  ptid : Nat
  bar : Nat
  tens : List Tensor
  deriving DecidableEq, Repr

/-- The running program as firmware knows it (R390): the object, the BUNDLE_ID, the variant, CLASS, PLACE, the partition of each cluster
(0xFF: none), whether its last bar has CG = 1, its bar count, the declared extents (EXT_MAX, DEFAULT) of its shape
arguments, its portable tie-points, the SRC class that the first transfer into each slot gives it (slots filled LOCAL are
not listed), the twins (partition, twin, result offset) of R446, and the chips of a multi-chip program (R434). -/
structure Prog where
  handle : Nat
  bid : Nat
  variant : Nat
  cls : Nat
  place : Nat
  parts : List Nat
  cg : Bool
  barCount : Nat
  args : List (Nat × Nat)
  ties : List PtRec
  srcs : List (Nat × Src)
  twins : List (Nat × Nat × Int)
  chips : List Nat
  deriving DecidableEq, Repr

/-- Table 14.5: the states of a job. -/
inductive JobSt where
  | queued
  | running
  | done
  | aborted
  | killed
  deriving DecidableEq, Repr

/-- A job (R393 to R402): its ID, the request that its completion answers, its arguments, and how far it has come; its energy
when its pass began, whether it has left its partition, the stall counters charged to it (R402), the job whose shadow it is (R446), and
the passes compared with its shadow's. Its energy is in nJ (R479). -/
structure Job where
  id : Nat
  rq : Rq
  part : Nat
  abortOnDl : Bool
  arithFatal : Bool
  passEvents : Bool
  rchan : Nat
  passes : Nat
  deadlineUs : Nat
  ext : List Nat
  seed : Nat
  rsrc : Nat
  rlen : Nat
  st : JobSt := .queued
  ending : Option Nat := none
  killCode : Option Nat := none
  done : Nat := 0
  missed : Nat := 0
  flags : Nat := 0
  epoch : Nat := 0
  energy : Nat := 0
  passStart : Nat := 0
  passLate : Bool := false
  sat : Nat := 0
  cvt : Nat := 0
  throttle : Nat := 0
  trunc : Nat := 0
  empty : Nat := 0
  start0 : Nat := 0
  left : Bool := false
  stalls : List Nat := List.replicate 45 0
  shadowOf : Option Nat := none
  cmped : Nat := 0
  deriving DecidableEq, Repr

/-- A pass result that waits to be published (R376): the job, its pass, the start and the end of the pass, whether the pass
has already missed its deadline, the FLAGS of the pass, the epoch, the energy of the pass, and the time of the result commit. -/
structure Pub where
  job : Nat
  pass : Nat
  start : Nat
  stop : Nat
  late : Bool
  flags : Nat
  epoch : Nat
  energy : Nat
  ts : Nat
  deriving DecidableEq, Repr

/-- A switch of a partition that firmware has put into commit groups for the next pass boundary (R397): the partition, the job it
takes (0 for none), the groups, and whether one of them has aborted. -/
structure Switch where
  part : Nat
  job : Nat
  groups : List Nat
  dead : Bool
  deriving DecidableEq, Repr

/-- How far the opening or closing of a window has come at the Headland (R432). -/
inductive WinStage where
  | grant
  | enable
  | isOpen
  | closing
  | revoke
  deriving DecidableEq, Repr

/-- A window of the system as the Headland knows it (R432): the source chip, the target chip, RD, WR, BASE and SIZE in
64 KiB units, and its stage. -/
structure SysWin where
  src : Nat
  dst : Nat
  rd : Bool
  wr : Bool
  base : Nat
  size : Nat
  stage : WinStage
  deriving DecidableEq, Repr

/-- A multi-chip start that waits for its Skerries (R434): the request, the chips that have not answered, those started, whether
the openings of its windows have been asked for, and the windows refused since with the refusing check's code. -/
structure Multi where
  rq : Rq
  waitFor : List Nat
  started : List Nat
  opened : Bool
  refused : List (SysWin × Nat) := []
  deriving DecidableEq, Repr

/-- Firmware: the negotiated version and feature map of each ring pair; the responses and events that wait for room in a
response ring; the entries received for ring pair 8 and the index of the next one; the pairs in overrun; the requests
taken and not yet carried out; the commit groups in number order and those armed, in order of arming; the objects and the
next handle; the program, whether it is being stopped, and a multi-chip start in progress; the jobs, the last job ID
assigned, the results that wait and the switches prepared for the next boundary; the last REL accepted of each result channel; CP_PASS_CNT at the last pass boundary
that firmware has served; the counters read there; the energy of the chip in nJ; the jobs admitted to each partition with
a twin (R446), the dual-run mismatches (cluster, powered time in ms) of R447, and the clean tiles since (core, tiles); and the passes of a
multi-chip job that other chips have reported (chip, job, passes); MEM_CE_s_d at the last poll (5s + d); the events of each
detector that have been read from the event
FIFO, and the last record of each (R448). -/
structure Fw where
  neg : List (Nat × Nat × Nat) := []
  wait : List (Nat × List Byte) := []
  in8 : List (Nat × List Byte) := []
  cons8 : Nat := 0
  prod8 : List (Nat × Nat) := []
  ovr : List Nat := []
  taken : List (Nat × List Byte) := []
  cgs : List Cg := List.replicate 16 {}
  armed : List Nat := []
  objs : List Obj := []
  nextHandle : Nat := 1
  prog : Option Prog := none
  stopping : Bool := false
  multi : Option Multi := none
  jobs : List Job := []
  lastJob : Nat := 0
  pubs : List Pub := []
  switches : List Switch := []
  relSeen : List Nat := List.replicate 16 0
  passSeen : Nat := 0
  counters : List (Nat × Nat) := []
  energy : Nat := 0
  dualSeen : List (Nat × Nat) := []
  dualHits : List (Nat × Nat) := []
  clean : List (Nat × Nat) := []
  reports : List (Nat × Nat × Nat) := []
  ceSeen : List Nat := List.replicate 30 0
  detSeen : List Nat := List.replicate 12 0
  detLast : List (List Word) := List.replicate 12 []
  deriving DecidableEq, Repr

end Sys2Proof.Machine
end

