-- ==== Sys2Proof/Machine/TypesLink.lean ====
section
/-! DEFINITION. The pieces of state of the Dardar links and of the chip DMA (chapters 05 section 11.2 and 15). -/

namespace Sys2Proof.Machine
open Sys2Proof

/-- A remote operation in flight (R433): its TAG, whether it is a read, the owner it belongs to, its transfer and operation
index, the window it passed with the closes of that window before it (R355), the time of issue in ns, the destination chip, the global
address and the job. -/
structure ROp where
  tag : Nat
  rd : Bool
  owner : Owner
  xid : Nat
  ix : Nat
  win : Nat
  at0 : Nat
  chip : Nat
  addr : Nat
  job : Nat
  era : Nat
  deriving DecidableEq, Repr

/-- One link (R417 to R428): the queue of segments to send; the replay buffer of sent DATA flits; the next SEQ to send and
the last SEQ received in order; the credit held per VC and the slots freed per VC since the last report; DATA flits since
the last CTRL; a NAK to send and whether the current loss has sent its own; a NAK received; the SEQ and count of the last
replays; authentication failures in a row; the received segments that a full hold store keeps waiting; the words (key, then
SALT) of each loaded key slot and its flit count; the lanes to retire at the peer; the peer's last CTRL payload; and the
last flit sent. -/
structure Lnk where
  txq : List Seg := []
  replay : List Flit := []
  txSeq : Nat := 0
  rxSeq : Nat := 4095
  credit : List Nat := [1024, 1024, 1024, 1024]
  freed : List Nat := [0, 0, 0, 0]
  sinceCtrl : Nat := 0
  nak : Bool := false
  naked : Bool := false
  nakIn : Bool := false
  lastNak : Nat := 4096
  nakCnt : Nat := 0
  authBad : Nat := 0
  rxHold : List Seg := []
  keys : List (List Word) := [[], []]
  keyCnt : List Nat := [0, 0]
  retire : Nat := 0
  peer : Option Ctrl := none
  sent : Option Flit := none
  deriving DecidableEq, Repr

/-- A MGMT message that waits for its ACK (R429): its chip, or the link it is sent on to a chip without a number, its data,
the time it was sent and how often. -/
structure Mgmt where
  dst : Nat
  via : Option Nat
  data : List Byte
  at0 : Nat
  sends : Nat
  deriving DecidableEq, Repr

/-- A chip of the system as the Headland knows it (R429, R430): its serial, its number once assigned, the link of this chip
on which it attached, what its IDENT said, the number offered by an ASSIGN that has no answer yet, and whether it has
departed. -/
structure Peer where
  serial : Nat
  chip : Option Nat
  link : Nat
  ident : List Byte := []
  offer : Option Nat := none
  left : Bool := false
  deriving DecidableEq, Repr

/-- The links together: the six links, the remote operations in flight, the tags that timed out with their time, the next
tag to try, MGMT messages that wait for an ACK and those received (with the link and the source chip), the serial of the
Headland, whether the chip becomes lone when its engine stops, and, at the Headland, the chips of the system, the reserved
numbers (serial, number, time of departure), the routes last sent to each chip and the windows; and the closes of this chip's
windows so far (R355). -/
structure Links where
  l : List Lnk := List.replicate 6 {}
  ops : List ROp := []
  dead : List (Nat × Nat) := []
  nextTag : Nat := 0
  mgmt : List Mgmt := []
  inbox : List (Nat × Nat × List Byte) := []
  hlSerial : Option Nat := none
  loneWait : Bool := false
  peers : List Peer := []
  resv : List (Nat × Nat × Nat) := []
  tables : List (Nat × List Nat) := []
  wins : List SysWin := []
  shut : List Nat := []
  deriving DecidableEq, Repr

/-- A chip DMA channel (R199): whether a descriptor is in progress, its flags, its ring index, its transfer, its operations
not yet acknowledged, whether its reads are complete and its release has acted, the code that refused it, whether it
moved a poisoned word, and, for a ring on another chip, how far its descriptor has come: 1 its read is under way, 2 its
write-back has left. -/
structure DmaCh where
  busy : Bool := false
  flags : Nat := 0
  xfer : Option Xfer := none
  ops : List XOp := []
  released : Bool := false
  code : Nat := 0
  stop : Bool := false
  pois : Bool := false
  bad : Bool := false
  far : Nat := 0
  deriving DecidableEq, Repr

end Sys2Proof.Machine
end

