-- ==== Sys2Proof/Machine/TypesCsi.lean ====
section
/-! DEFINITION. The pieces of state of camera ingest and the image pipeline (chapter 10). -/

namespace Sys2Proof.Machine
open Sys2Proof

/-- A frame of a stream (R285 to R290): FRAME_SEQ, FRAME_NUM, its corrected timestamp, its buffer, the flags of Table 10.4
(bits 0 to 8), the lines received, the next line to be placed, whether a line start discards the next long packet, the bytes
of embedded data written, the input lines that a pipe has taken (as samples of the 16-bit domain, three per pixel on the
COLOUR path), those of them read with poison, whether its pixels are written (the RAW path), and the parameter set that was active
for it once a later frame start has loaded another (R300). -/
structure Frame where
  seq : Nat
  num : Nat
  ts : Int
  buf : Nat
  flags : Nat := 0
  got : Nat := 0
  next : Nat := 0
  skip : Bool := false
  emb : Nat := 0
  lines : List (Nat × List Nat) := []
  bad : List Nat := []
  written : Bool := false
  par : Option (List Word) := none
  deriving DecidableEq, Repr

/-- A staged line (R290): the frame and line it belongs to, its samples, the order of its arrival, and its place in the staging
area. -/
structure Staged where
  seq : Nat
  line : Nat
  px : List Nat
  order : Nat
  slot : Nat
  deriving DecidableEq, Repr

/-- A stream (R283 to R290): frame starts accepted since its enable, frames started (not wrapped), its open frame, whether the
packets of a dropped frame are being discarded, its closed frames that are not done, its staged lines, and the place of the
staging area that its next line takes. -/
structure CsiStr where
  seq : Nat := 0
  wr : Nat := 0
  cur : Option Frame := none
  dropping : Bool := false
  shut : List Frame := []
  staged : List Staged := []
  place : Nat := 0
  deriving DecidableEq, Repr

/-- A member of a set: its stream, buffer, timestamp and whether it is DAMAGED. -/
structure Member where
  str : Nat
  buf : Nat
  ts : Int
  damaged : Bool
  deriving DecidableEq, Repr

/-- The open set of a fusion group (R293): its number, t_ref, t_open, the frames present, and its members. -/
structure OpenSet where
  seq : Nat
  tRef : Int
  tOpen : Nat
  present : List Member
  members : List Nat
  deriving DecidableEq, Repr

/-- A fusion group (R292 to R295): the next SET_SEQ, its open set, and its set queue. -/
structure Fg where
  seq : Nat := 0
  cur : Option OpenSet := none
  q : Fifo := {}
  deriving DecidableEq, Repr

/-- Camera ingest: the packet FIFO of each port (packets with the system time of their header), the ports whose disable waits
for the packet boundary, the streams, the fusion groups, the count of staged lines, and the active ISP parameter sets (word
w of stream m at 1024 m + w). -/
structure Csi where
  ports : List (List (CsiPkt × Nat)) := List.replicate 12 []
  closing : List Nat := []
  strs : List CsiStr := List.replicate 48 {}
  fgs : List Fg := List.replicate 17 {}
  order : Nat := 0
  isp : Sparse Word := []
  deriving DecidableEq, Repr

end Sys2Proof.Machine
end

