-- ==== Sys2Proof/Machine/TypesVid.lean ====
section
/-! DEFINITION. The pieces of state of the codecs, the shaper and the sample queues (chapter 11). -/

namespace Sys2Proof.Machine
open Sys2Proof

/-- A unit descriptor (Table 11.2). -/
structure VidDesc where
  src : Nat
  len : Nat
  budget : Nat
  aug : Nat
  id : Nat
  ctl : Nat
  deriving DecidableEq, Repr

/-- The report of a unit that is being made (Table 11.3). -/
structure VidRep where
  id : Nat
  status : Nat := 0
  flags : Nat := 0
  first : Nat := 0xFFFFFFFF
  byteOff : Nat := 0xFFFFFFFF
  conceal : Nat := 0
  cycles : Nat := 0
  claim : Nat := 0
  deriving DecidableEq, Repr

/-- A unit in an engine whose decoding outruns its budget (R314): its descriptor, what its bitstream holds, whether a poisoned word of
it was read, the byte offset of the first error and the blocks skipped for errors, its picture slot, and its place in the ring. -/
structure VidRun where
  desc : VidDesc
  out : DecOut
  pin : Bool
  err : Option Nat
  skip : List Nat
  slot : Nat
  ord : Nat
  deriving DecidableEq, Repr

/-- What waits for its output (R309): a report, its descriptor, the picture with its slot, if there is one, its place in the ring, and
whether it is complete; one that is not stands for a unit still in an engine. -/
structure VidOut where
  rep : VidRep
  desc : VidDesc
  pic : Option Pic
  slot : Option Nat
  ord : Nat
  done : Bool
  deriving DecidableEq, Repr

/-- A codec session (R307 to R316): the units whose decoding outruns their budget (one, but for JPEG); the most recently decoded
picture; the parameter sets (identifier, code that refused it or 0, claim); what waits for output; the picture slots in the DPB;
the units taken; how many of what waits a FLUSH has told to leave first (R309); whether the next unit is coded as IDR, and QP
and IDR of the last unit coded (R316); and the report FIFO. -/
structure Ses where
  busy : List VidRun := []
  last : Option Pic := none
  sets : List (Nat × Nat × Claim) := []
  outs : List VidOut := []
  refs : List Nat := []
  ord : Nat := 0
  must : Nat := 0
  idr : Bool := true
  coded : Option (Nat × Bool) := none
  rep : Fifo := {}
  deriving DecidableEq, Repr

/-- A sample queue (R321): COMMIT, READ, MARK, FREE and the release target, not wrapped; the size of each sample held; the copies in flight (the sample's
sequence number, its cluster and transfer); the clusters whose QPOP READ waits, and those whose wait a flush has ended. -/
structure Sq where
  commit : Nat := 0
  read : Nat := 0
  mark : Nat := 0
  free : Nat := 0
  target : Nat := 0
  sizes : List (Nat × Nat) := []
  copies : List (Nat × Nat × Nat) := []
  waiting : List Nat := []
  ended : List Nat := []
  deriving DecidableEq, Repr

/-- The codec sessions and sample queues, and the session at which the rotation of the video decoders, of the JPEG decoders and of the
encoders goes on (R309). -/
structure Vid where
  ses : List Ses := List.replicate 32 {}
  qs : List Sq := List.replicate 64 {}
  turns : List Nat := [0, 0, 0]
  deriving DecidableEq, Repr

end Sys2Proof.Machine
end

