-- ==== Sys2Proof/Machine/TypesHost.lean ====
section
/-! DEFINITION. The pieces of state of the host port (chapter 13). -/

namespace Sys2Proof.Machine
open Sys2Proof

/-- The host port: the mode registers of each channel, the last data a READ or mode-register read drove, whether HOST_ATTN_N is
driven low and whether HPT_CTL.ENABLE has read 1 since the last reset, whether MR4 reports twice the refresh rate, TUF of
each channel, the WRITE-FIFO of each channel (R358), and the device address of the half of a BL32 read that each channel has still to take
(R365). -/
structure HostP where
  mrs : List (Sparse Byte) := [[], []]
  dq : List Byte := []
  pinLow : Bool := true
  seen : Bool := false
  hot : Bool := false
  tuf : List Bool := [false, false]
  wfifo : List (List Byte) := [[], []]
  rest : List (Option Nat) := [none, none]
  deriving DecidableEq, Repr

end Sys2Proof.Machine
end

