-- ==== Sys2Proof/Machine/TypesRoot.lean ====
section
/-! DEFINITION. The pieces of state of the root core, boot flash, the fuses and the health journal (chapters 16 and 18). -/

namespace Sys2Proof.Machine
open Sys2Proof

/-- The image of a class that is in use (R496, R503): its key slot, VERSION and the 64 bytes of its DIGEST. -/
structure SImg where
  slot : Nat
  version : Nat
  digest : List Byte
  deriving DecidableEq, Repr

/-- A journal record as classification reads it (R452): its key, the power cycle, the powered time in ms, and CLASS. -/
structure JRec where
  kind : Nat
  unit : Nat
  loc : Nat
  pcycle : Nat
  powered : Nat
  cls : Nat
  deriving DecidableEq, Repr

/-- The root core and what it alone holds. Root SRAM; the NOR and eMMC flash; the REVOKE fuses, the counters of the RB fuses
and the BOOT_SEL straps as latched; the identity seed and whether the key pair exists; the position in the boot order that
is being tried, the attempts made, and the SEQ of the last BOOT_REQ taken; the flash source and copy that boot used; the
entry point of the root runtime and of the control processor; the image of each class in use; the journal records that
classification reads, the records handed over and not yet written, the ring index, the record count and the SEG_SEQ of the
open segment, whether it is sealed, the next record SEQ, the last CHAIN and whether every seal and chain verified; the
RETIRED map of the segment headers beyond the RAS registers (lanes of each link, DRAM devices); the power cycle and the
powered time in ns; whether the control processor is held in reset, the lockstep mismatches of this boot, the causes
of Lowwater (R462: bit 0 no class, 1 DRAM device, 2 lockstep, 3 selected by power), and where the boot image has put a Shallows
bundle that is still to be started (R500). -/
structure Root where
  sram : Sparse Byte := []
  nor : Sparse Byte := []
  emmc : Sparse Byte := []
  revoke : Nat := 0
  rb : List Nat := [0, 0, 0, 0]
  straps : Nat := 0
  seed : Option (List Byte) := none
  idKey : Bool := false
  src : Option Nat := none
  tries : Nat := 0
  reqSeq : Nat := 0
  flash : Option (Bool × Nat) := none
  rootEntry : Nat := 0
  entry : Nat := 0
  inUse : List (Option SImg) := [none, none, none, none]
  recs : List JRec := []
  jq : List (List Byte) := []
  jseg : Nat := 0
  jcnt : Nat := 0
  jsegSeq : Nat := 0
  sealed : Bool := false
  jseq : Nat := 0
  chain : List Byte := List.replicate 16 0
  jok : Bool := false
  lanes : List Nat := [0, 0, 0, 0, 0, 0]
  devs : List Nat := List.replicate 30 0
  pcycle : Nat := 0
  powered : Nat := 0
  held : Bool := true
  lockCnt : Nat := 0
  low : Nat := 0
  shal : Option (Nat × Nat) := none
  deriving DecidableEq, Repr

/-- A memory under kill scrub (R458): its number (0 to 39), the killed job, whether it has been written to zero, and its offset
in the snapshot buffer, if a snapshot is taken. -/
structure Scrub where
  mem : Nat
  job : Nat
  zeroed : Bool
  snap : Option Nat
  deriving DecidableEq, Repr

/-- The RAS block beside its registers: the memories under kill scrub, the canary seed, and the tiles run on each core. -/
structure Ras where
  scrub : List Scrub := []
  seed : Word := 0
  tiles : List (Nat × Nat) := []
  deriving DecidableEq, Repr

end Sys2Proof.Machine
end

