-- ==== Sys2Proof/Machine/TypesPwr.lean ====
section
/-! DEFINITION. The pieces of state of the power controller and of the energy model (chapter 17). -/

namespace Sys2Proof.Machine
open Sys2Proof

/-- The PWR block beside its registers: the last power sample of each rail in mW (R469); the samples of the chip since the last
loop update (R472); the consecutive samples above 1.1 times the cap, and the emergency conditions that hold now (R476); the
thermal cap (R474); what firmware keeps for R479: the energy measured since the last reconciliation in nJ, the activity counters
as last read (8 times source plus event) and the model's nJ of each job; whether the thermal trip stands (R475), and the trip
record in retention storage. -/
structure Pwr where
  mw : List Nat := List.replicate 8 0
  samples : List Nat := []
  ovr : Nat := 0
  cond : Nat := 0
  therm : Nat := 75000
  emeas : Nat := 0
  seen : Sparse Nat := []
  share : List (Nat × Nat) := []
  tripped : Bool := false
  tripRec : Bool := false
  deriving DecidableEq, Repr

end Sys2Proof.Machine
end

