-- ==== Sys2Proof/Machine/TypesIo.lean ====
section
/-! DEFINITION. The pieces of state of the service island, the time base, the triggers, the serial controllers (chapter 19) and
of the reset pins (chapter 20). -/

namespace Sys2Proof.Machine
open Sys2Proof

/-- A serial controller (R520): its command and receive FIFOs, whether a transaction is open (a START without its STOP), and the
last command carried out on its bus. -/
structure Ser where
  cmd : Fifo := {}
  rx : Fifo := {}
  isOpen : Bool := false
  bus : Option Word := none
  deriving DecidableEq, Repr

/-- A trigger output (R519): the time of the next scheduled pulse and its number, the times at which linked pulses are due, the
time at which the pulse in progress ends, and whether EN := 0 waits for that end. -/
structure TrgOut where
  next : Option Nat := none
  k : Nat := 0
  due : List Nat := []
  ends : Option Nat := none
  closing : Bool := false
  deriving DecidableEq, Repr

/-- A time request to the parent (R515): its ID, its link, and t1 with RETRY_CNT of the link, once its flit has left. -/
structure TSync where
  id : Nat
  link : Nat
  t1 : Option (Nat × Nat) := none
  deriving DecidableEq, Repr

/-- A time response as it arrived (R515): ID, T2, T3, t4, and RETRY_CNT of the link then. -/
structure TRsp where
  id : Nat
  t2 : Nat
  t3 : Nat
  t4 : Nat
  retry : Nat
  deriving DecidableEq, Repr

/-- A service hart out of reset (R511): where it was released, with a0 and a1. What it executes from there is RISC-V's. -/
structure Hart where
  pc : Nat
  a0 : Nat
  a1 : Nat
  deriving DecidableEq, Repr

/-- The service island, TIM, TRG and SIO beside their registers, and the pins of chapter 20. The serial controllers (I2C0 to 5,
SPI0 to 1, UART0 to 1); direction and output level of the GPIO lines; the trigger outputs and the event FIFO; the link
servo: the request in flight, the response that has arrived, the last ID, and whether |θ| was below 100 ns in the last samples; the
harts, a class 2 activation that waits for its harts (the request and the object's handle), the L2's hart-private memory, and
the last frame each port sent. Then: whether the root core is out of reset, PORST_N low, RST_N low, REFCLK lost, the time of reset
release, the causes of the reset in progress, and TESTEN as latched. -/
structure Io where
  ser : List Ser := List.replicate 10 {}
  gpioDir : Word := 0
  gpioOut : Word := 0
  outs : List TrgOut := List.replicate 24 {}
  trg : Fifo := {}
  sync : Option TSync := none
  rsp : Option TRsp := none
  syncId : Nat := 0
  near : List Bool := []
  harts : List (Option Hart) := List.replicate 8 none
  svc : Option (Rq × Nat) := none
  l2 : Sparse Byte := []
  tx : List (List Byte) := [[], []]
  released : Bool := false
  porLow : Bool := true
  rstLow : Bool := false
  refLost : Bool := false
  relAt : Nat := 0
  cause : Nat := 1
  testen : Bool := false
  deriving DecidableEq, Repr

end Sys2Proof.Machine
end

