-- ==== Sys2Proof/Machine/State.lean ====
section
/-! DEFINITION. The state of the ZK96: every register, memory, FIFO, buffer, mode and pin the spec gives it, the queue
of waiting commands, the state after reset, and the reasons a command can stop. -/

namespace Sys2Proof.Machine
open Sys2Proof

/-- Why a command ends in a fault. Each names an action of the engine that admission shuts out, so no admitted program
performs it (03 Table 3.16, checks 5 and 10), and to which the spec gives no effect. -/
inductive Fault where
  /-- A core or cluster-slot field names a stream before its cluster's first NEST (R93, R99); raised by the meanings of
  the commands that address by a stream. Safe: the spec refuses such a program at admission. -/
  | noNest
  /-- A field names a stream whose EN is 0 in the loaded nest (R96). Safe: refused at admission. -/
  | streamOff
  /-- A GUARD lies outside every nest body or names a level that the active nest does not have (R87). Safe: refused at
  admission. -/
  | guardOutside
  /-- A bar-driven access addresses bytes outside its core's own SPM (R148, R542). Safe: refused at admission. -/
  | outsideSpm
  deriving DecidableEq, Repr

/-- Why a command is refused. -/
inductive Refusal where
  /-- The command has no meaning yet; raised by the dispatcher alone. Safe. -/
  | notModelled (mnemonic : String)
  /-- The command spells an encoding that the spec reserves (R130, R145, R176, R185): the spec gives it no effect and
  refuses it at admission. Safe. -/
  | reservedEncoding
  deriving DecidableEq, Repr

/-- A consistency check in progress (R18): the block, and the register and bit of the enable it decides. -/
structure Chk where
  blk : Nat
  addr : Nat
  bitIx : Nat
  deriving DecidableEq, Repr

/-- The register file and the register bus: the values written (an unlisted address reads its reset value), the HI
values latched by LO reads (R9), the value the last read delivered, the checks in progress (R18), the writes held for
them (R19), the FIFO data ports whose reader is stalled and the agents, with the address, whose fabric read of one is (R17), and the
FIFO of the TRNG (R506). -/
structure RegFile where
  val : Sparse Word := []
  hi : List (Nat × Word) := []
  rdata : Word := 0
  chk : List Chk := []
  held : List (Nat × Word) := []
  stall : List Nat := []
  fabStall : List (Nat × Nat) := []
  trng : Fifo := {}
  deriving DecidableEq, Repr

/-- The memories (12 Table 12.1): the bytes of every on-die SRAM by local address, the poison flag of each 32-byte word
by address div 32, the poisoned 64-bit words of the bar store by address div 8 (R112), the damaged bits of a stored word
(by address div 32; bar store by address div 8), the corrected words awaiting write-back (R166), the slot tags (memory
* 512 + slot), the hold stores, the DRAM lines whose contents are defined (by address div 64), what the last read by
an agent of the fabric delivered, byte by byte with its poison flag, and the injected upsets that no reader has met yet:
slots whose stored tag has a parity error (R168) and words whose next write meets a parity mismatch (R194); the lines that the
patrol scrubber has covered of each DRAM subchannel in this pass (R348); and the word
pointers of the scrubbers of media SRAM and control SRAM (R344, R167). -/
structure Mem where
  sram : Sparse Byte := []
  pois : Sparse Bool := []
  barPois : Sparse Bool := []
  ecc : Sparse Nat := []
  barEcc : Sparse Nat := []
  wb : List Nat := []
  slots : Sparse Slot := []
  holds : List Held := []
  dram : Sparse (Option DLine) := []
  out : List (Byte × Bool) := []
  tagUps : List Nat := []
  parUps : List Nat := []
  patrol : List Nat := List.replicate 6 0
  scrubM : Nat := 0
  scrubC : Nat := 0
  deriving DecidableEq, Repr

/-- The engine above its clusters: the arrivals the tie hub has seen (R41), the releases sent and not yet seen by each
island, the program scan (R122), the event FIFO (R91), and the cores that were healthy at the last enable (R453). -/
structure Eng where
  arrived : List (Nat × Tie) := []
  released : List (Nat × Release) := []
  scan : Option Scan := none
  events : Fifo := {}
  alive : Nat := 0xFFFFFFFF
  deriving DecidableEq, Repr

/-- The state of the ZK96. -/
structure State where
  pending : List Instr
  rf : RegFile
  mem : Mem
  cores : List Core
  clus : List Cluster
  eng : Eng
  cross : List Crossing
  rasEvt : Fifo
  fw : Fw
  lk : Links
  dma : List DmaCh
  csi : Csi
  vid : Vid
  hp : HostP
  root : Root
  ras : Ras
  pwr : Pwr
  io : Io
  logThr : Nat
  trace : Nat
  ns : Nat
  frac : Nat
  free : Nat
  deriving DecidableEq, Repr

/-- The machine right after a chip reset (R537): an empty queue, every register at its reset value, every SRAM zero,
every tag EMPTY, every core and cluster in its reset state, and no DRAM line defined.
Assumption log: 1 (DESIGN CHOICE), 4 (DESIGN CHOICE), 11 (DESIGN CHOICE), 40 (DEDUCED). -/
def State.reset : State where
  pending := []
  rf := {}
  mem := {}
  cores := List.replicate 32 {}
  clus := List.replicate 8 {}
  eng := {}
  cross := []
  rasEvt := {}
  fw := {}
  lk := {}
  dma := List.replicate 8 {}
  csi := {}
  vid := {}
  hp := {}
  root := {}
  ras := {}
  pwr := {}
  io := {}
  logThr := 4
  trace := 0
  ns := 0
  frac := 0
  free := 0

end Sys2Proof.Machine
end

