-- ==== Sys2Proof/Machine/Ops.lean ====
section
/-! DEFINITION. The named operations over registers, units, memories, FIFOs, health events and the firmware log that every
meaning uses. -/

namespace Sys2Proof.Machine
open Sys2Proof

/-! ### Registers -/

/-- The stored value of a register. -/
def rd (s : State) (a : Nat) : Word := mget regReset s.rf.val a

/-- Hardware writes a whole register. -/
def wr (s : State) (a : Nat) (v : Word) : State :=
  { s with rf := { s.rf with val := mput regReset a v s.rf.val } }

/-- A field of a register. -/
def rdF (s : State) (a hi lo : Nat) : Nat := fld (rd s a) hi lo

/-- Hardware writes a field of a register. -/
def wrF (s : State) (a hi lo v : Nat) : State := wr s a (setFld (rd s a) hi lo v)

/-- A bit of a register. -/
def rdB (s : State) (a i : Nat) : Bool := bit (rd s a) i

/-- Hardware writes a bit of a register. -/
def wrB (s : State) (a i : Nat) (b : Bool) : State := wr s a (setBit (rd s a) i b)

/-- R14: an event counter advances, modulo 2^32. -/
def incr (s : State) (a : Nat) : State := wr s a (rd s a + 1)

/-- R14: an event counter advances by `n`. -/
def incrBy (s : State) (a n : Nat) : State := wr s a (rd s a + BitVec.ofNat 32 n)

/-- The base address of the block an address lies in. -/
def blkBase (k : Nat) : Nat := regBase + 0x100000 * k

/-- R20: a write was dropped, or would have changed a static field: CFG_WR_DROP of the block. -/
def cfgDrop (s : State) (blk : Nat) : State := wrB s (blkBase blk + 8) 31 true

/-- A 64-bit quantity in a LO and a HI register. -/
def rd64 (s : State) (lo hi : Nat) : Nat := (rd s lo).toNat + 0x100000000 * (rd s hi).toNat

/-- Writing a 64-bit quantity into a LO and a HI register. -/
def wr64 (s : State) (lo hi v : Nat) : State := wr (wr s lo (BitVec.ofNat 32 v)) hi (BitVec.ofNat 32 (v / 0x100000000))

/-- Whether a consistency check of a block is in progress: CHK_BUSY (R18). -/
def chkBusy (s : State) (blk : Nat) : Bool := s.rf.chk.any fun c => c.blk == blk

/-- R19: a write to a register of a block is held while CHK_BUSY = 1.
Assumption log: 14 (DEDUCED). -/
def holdWrite (s : State) (a : Nat) (v : Word) : State :=
  { s with rf := { s.rf with held := s.rf.held ++ [(a, v)] } }

/-- The outcome of every command. -/
abbrev Out := Host.Outcome State Fault Refusal

/-- Continuing after an address that may not exist. -/
def onOk {α : Type} (x : Except Fault α) (f : α → Out) : Out :=
  match x with
  | .error e => .fault e
  | .ok a => f a

/-! ### Units -/

/-- The core NCn. -/
def coreOf (s : State) (n : Nat) : Core := s.cores.getD n {}

/-- Replacing a core. -/
def setCore (s : State) (n : Nat) (c : Core) : State := { s with cores := s.cores.set n c }

/-- Changing a core. -/
def updCore (s : State) (n : Nat) (f : Core → Core) : State := setCore s n (f (coreOf s n))

/-- The cluster CLk. -/
def clu (s : State) (k : Nat) : Cluster := s.clus.getD k {}

/-- Replacing a cluster. -/
def setClu (s : State) (k : Nat) (c : Cluster) : State := { s with clus := s.clus.set k c }

/-- Changing a cluster. -/
def updClu (s : State) (k : Nat) (f : Cluster → Cluster) : State := setClu s k (f (clu s k))

/-- A free 32-bit value: the spec leaves it open (assumption 2). Each use takes the next count.
Assumption log: 2 (DESIGN CHOICE). -/
def freeW (s : State) : Word × State := (Config.freeWord s.free, { s with free := s.free + 1 })

/-- A free number.
Assumption log: 2 (DESIGN CHOICE). -/
def freeN (s : State) : Nat × State := (Config.freeNat s.free, { s with free := s.free + 1 })

/-- The reason codes that the owning chapters define (R22). -/
def reasonCodes : List Nat :=
  (upto 7).map (1 + ·) ++ [0x0A] ++ (upto 0x17).map (0x20 + ·) ++ [0x40, 0x41] ++ (upto 6).map (0x43 + ·) ++
    (upto 5).map (0x4A + ·) ++ (upto 16).map (0x60 + ·) ++ (upto 14).map (0x70 + ·) ++ (upto 0x1D).map (0x80 + ·) ++
    (upto 16).map (0xA0 + ·)

/-- A reason code that the spec leaves open: a free one of those that it defines, since no other is ever produced (R22).
Assumption log: 2 (DESIGN CHOICE). -/
def freeCode (s : State) : Nat × State :=
  let (n, s) := freeN s
  (reasonCodes.getD (n % reasonCodes.length) 0xAF, s)

/-- A block of `n` free values has been drawn.
Assumption log: 2 (DESIGN CHOICE). -/
def freeSkip (s : State) (n : Nat) : State := { s with free := s.free + n }

/-- A fold that threads the state. -/
def foldS {α : Type} (f : State → α → State) : List α → State → State
  | [], s => s
  | a :: as, s => foldS f as (f s a)

/-- `n` times the same change. -/
def iterS (f : State → State) : Nat → State → State
  | 0, s => s
  | n + 1, s => iterS f n (f s)

/-! ### System time -/

/-- System time in nanoseconds (R513). -/
def now (s : State) : Nat := s.ns % 2 ^ 64

/-! ### Chip number and healthy cores -/

/-- The own chip number (R327). -/
def ownChip (s : State) : Nat := rdF s rDdlChip 5 0

/-- The global address of a local one. -/
def glob (s : State) (a : Nat) : Nat := 2 ^ 40 * ownChip s + a

/-- R453: a core is healthy unless it or its cluster's store is retired. -/
def healthy (s : State) (n : Nat) : Bool :=
  !bit (rd s rRasRetireCores) n && !bit (rd s rRasRetireCstore) (n / 4)

/-- The healthy positions of a cluster, rising. -/
def healthyPos (s : State) (k : Nat) : List Nat := (upto 4).filter fun p => healthy s (4 * k + p)

/-- R45, R453: the positions of a cluster whose cores the position-to-core mapping counts, rising: its healthy ones; while the
engine runs, those that were healthy at the enable, since a core retired meanwhile keeps running the admitted program. -/
def progPos (s : State) (k : Nat) : List Nat :=
  if rdB s rEngStatus 0 then (upto 4).filter fun p => bitN s.eng.alive (4 * k + p) else healthyPos s k

/-- R45: the core to which logical position p of cluster k maps, if the cluster has that many healthy cores. -/
def mapPos (s : State) (k p : Nat) : Option Nat := ((progPos s k)[p]?).map fun q => 4 * k + q

/-- The logical position of a core among its cluster's healthy cores. -/
def logPos (s : State) (n : Nat) : Option Nat :=
  let l := progPos s (n / 4)
  if l.contains (n % 4) then some (l.idxOf (n % 4)) else none

/-- R44: the shape class in force, by the cluster with the fewest healthy cores; 0 where no class remains (R46). -/
def shapeClass (s : State) : Word :=
  let m := (upto 8).foldl (fun a k => min a (healthyPos s k).length) 4
  if m = 4 then 0x16674110 else if m = 3 then 0x16673110 else if m = 2 then 0x16672110 else 0

/-- R43: the cores per cluster of a class word. -/
def classCores (w : Word) : Nat := fld w 15 12

/-- R126: the placement mask. -/
def place (s : State) : Nat := rdF s rEngCtl 15 8

/-- R126: whether the engine's placement is running. -/
def running (s : State) : Bool := rdB s rEngStatus 0

/-- R126: whether the engine is parked. -/
def parkedB (s : State) : Bool := rdB s rEngStatus 1

/-- Whether cluster k is outside a running placement, or the engine is parked (R198, R205).
Assumption log: 25 (DEDUCED). -/
def stagedOk (s : State) (k : Nat) : Bool := !running s || !bitN (place s) k || parkedB s

/-! ### FIFOs (R15 to R17) -/

/-- R15: whether a FIFO holds its capacity in entries, committed or in flight: FULL. -/
def fifoFull (cap : Nat) (f : Fifo) : Bool := decide (cap ≤ f.ents.length + b2n (!f.part.isEmpty))

/-- R16: an entry of one word group is pushed whole; a full FIFO ignores it and sets OVR. The second result says that the
push was refused. -/
def fifoPush (cap : Nat) (e : List Word) (f : Fifo) : Fifo × Bool :=
  if fifoFull cap f then ({ f with ovr := true, lost := (f.lost + 1) % 2 ^ 32 }, true) else ({ f with ents := f.ents ++ [e] }, false)

/-- A read of the data port: the next word of the oldest entry, which leaves with its last word. -/
def fifoPop (f : Fifo) : Option (Word × Fifo) :=
  match f.ents with
  | [] => none
  | e :: es =>
    let w := e.getD f.rd 0
    if e.length ≤ f.rd + 1 then some (w, { f with ents := es, rd := 0 })
    else some (w, { f with rd := f.rd + 1 })

/-- R15: the value of a COUNT register: OVR, FULL and the committed entries. -/
def fifoCount (cap : Nat) (f : Fifo) : Word :=
  BitVec.ofNat 32 (b2n f.ovr * 2 ^ 31 + b2n (fifoFull cap f) * 2 ^ 30 + f.ents.length % 2 ^ 24)

/-! ### The address map (12 Table 12.1) -/

/-- The regions of Table 12.1. -/
inductive Region where
  | dram
  | spm
  | cstore
  | media
  | hostp
  | ctl
  | bars
  | regs
  | rom
  deriving DecidableEq, Repr

/-- R326: the region of a local address; none where it is unmapped. -/
def regionOf (a : Nat) : Option Region :=
  if a < 0x2000000000 then some .dram
  else if a < 0x2004000000 then some .spm
  else if a < 0x2005000000 then some .cstore
  else if 0x2100000000 ≤ a ∧ a < 0x2100800000 then some .media
  else if 0x2200000000 ≤ a ∧ a < 0x2200400000 then some .hostp
  else if 0x2300000000 ≤ a ∧ a < 0x2300100000 then some .ctl
  else if 0x2400000000 ≤ a ∧ a < 0x2400800000 then some .bars
  else if 0x3000000000 ≤ a ∧ a < 0x3008000000 then some .regs
  else if 0x3FFFF00000 ≤ a ∧ a < 0x3FFFF20000 then some .rom
  else none

/-- R25: the base of engine memory m: SPM of NCm for m below 32, the store of CL(m - 32) above. -/
def memBase (m : Nat) : Nat := 0x2000000000 + 0x200000 * m

/-- The engine memory that holds an address. -/
def memAt (a : Nat) : Option Nat :=
  if 0x2000000000 ≤ a ∧ a < 0x2005000000 then some (a % 0x2000000000 / 0x200000) else none

/-- The cluster a memory belongs to. -/
def memClu (m : Nat) : Nat := if m < 32 then m / 4 else m - 32

/-- The engine memory of memory number 0 to 4 of cluster k (R198: four SPMs, then the store). -/
def cluMem (k i : Nat) : Nat := if i < 4 then 4 * k + i else 32 + k

/-- R459: whether an address lies in a memory under kill scrub, whose fabric reads are held.
Assumption log: 19 (DEDUCED). -/
def scrubbing (s : State) (a : Nat) : Bool :=
  match memAt a with
  | some m => s.ras.scrub.any fun x => x.mem == m
  | none => false

/-- R168: the key of the slot that holds an address: memory * 512 + slot. -/
def slotOf (a : Nat) : Option Nat := (memAt a).map fun m => 512 * m + a % 0x200000 / 4096

/-- The reset slot. -/
def slot0 : Nat → Slot := fun _ => {}

/-- A slot's state. -/
def slotGet (s : State) (k : Nat) : Slot := mget slot0 s.mem.slots k

/-- Changing a slot's state; the write stores fresh parity (R168). -/
def slotPut (s : State) (k : Nat) (v : Slot) : State :=
  { s with mem := { s.mem with slots := mput slot0 k v s.mem.slots, tagUps := s.mem.tagUps.filter (· != k) } }

/-- Changing only the tag of a slot. -/
def slotTag (s : State) (k : Nat) (t : Tag) : State := slotPut s k { slotGet s k with tag := t }

/-! ### Raw SRAM bytes -/

/-- The bytes stored at a local address, with no check. -/
def ramGet (s : State) (a n : Nat) : List Byte := mgetRun byte0 s.mem.sram a n

/-- Storing bytes at a local address, with no check. -/
def ramPut (s : State) (a : Nat) (bs : List Byte) : State :=
  { s with mem := { s.mem with sram := mputRun byte0 a bs s.mem.sram } }

/-- A little-endian number in SRAM. -/
def ramNat (s : State) (a n : Nat) : Nat := leNat (ramGet s a n)

/-- Storing a little-endian number in SRAM. -/
def ramPutNat (s : State) (a n v : Nat) : State := ramPut s a (leBytes n v)

/-- The poison flag of the 32-byte word w (R166). -/
def poisGet (s : State) (w : Nat) : Bool := mget flag0 s.mem.pois w

/-- Setting the poison flag of a 32-byte word. -/
def poisPut (s : State) (w : Nat) (b : Bool) : State :=
  { s with mem := { s.mem with pois := mput flag0 w b s.mem.pois } }

/-! ### The firewall (R350 to R353) -/

/-- What an operation of the fabric carries: its island, its agent bit (Table 12.8), its job (R346), the format it names if
it names one (R343), and the activity source it counts for (R478). -/
structure Who where
  isl : Nat
  agent : Nat
  job : Nat
  fmt : Option Nat := none
  src : Option Nat := none
  deriving DecidableEq, Repr

/-- The agents of firmware's own accesses: the control processor, the chip DMA and the root core. -/
def whoCp : Who := ⟨0xC, 13, 0, none, none⟩
/-- The chip DMA on behalf of firmware. -/
def whoFwDma : Who := ⟨8, 8, 0, none, none⟩
/-- The root core. -/
def whoRoot : Who := ⟨0xE, 15, 0, none, none⟩

/-- The byte range of firewall region r. -/
def rgnRange (s : State) (r : Nat) : Nat × Nat :=
  let b := 0x10000 * rdF s (rMemRgnBase r) 23 0
  (b, b + 0x10000 * rdF s (rMemRgnSize r) 23 0)

/-- The enabled firewall region that covers an address. -/
def rgnOf (s : State) (a : Nat) : Option Nat :=
  (upto 64).find? fun r => rdB s (rMemRgnCtl r) 31 && (rgnRange s r).1 ≤ a && a < (rgnRange s r).2

/-- R351: whether the firewall permits an access. -/
def fwOk (s : State) (w : Who) (wr : Bool) (a : Nat) : Bool :=
  !rdB s rMemFwCtl 0 ||
  match rgnOf s a with
  | none => false
  | some r => rdB s (rMemRgnMask r) ((if wr then 16 else 0) + w.agent)

/-- Table 12.1: the regions marked for the firewall. -/
def fwMarked : Region → Bool
  | .bars => false
  | .regs => false
  | .rom => false
  | _ => true

/-- MEM_CAP in bytes (R330). -/
def memCap (s : State) : Nat := 0x100000 * rdF s rMemCap 16 0

/-- MEM_TRAIN_STATUS.STATE. -/
def trainState (s : State) : Nat := rdF s rMemTrainStatus 31 30

/-- Whether DRAM is in service. -/
def dramOn (s : State) : Bool := trainState s == 2 || trainState s == 3

/-- The island that a local address lies in, but for registers. -/
def addrIsl (a : Nat) : Option Nat :=
  match regionOf a with
  | some .dram => some 8
  | some .spm => (memAt a).map memClu
  | some .cstore => (memAt a).map memClu
  | some .media => some 0xA
  | some .hostp => some 9
  | some .ctl => some 0xC
  | some .bars => some (a % 0x400000000 / 0x100000)
  | some .rom => some 0xE
  | some .regs => none
  | none => none

/-- R530: whether an address lies in a memory of an island that TOP_ISL_RST holds in reset.
Assumption log: 41 (DEDUCED). -/
def addrHeld (s : State) (a : Nat) : Bool :=
  match addrIsl a with
  | some i => rdB s rTopIslRst i
  | none => false

/-- Table 12.2: the code that refuses a local access, or 0. A disabled controller has no capacity in force and is offline
(R538). -/
def accessCode (s : State) (w : Who) (wr : Bool) (a : Nat) : Nat :=
  match regionOf a with
  | none => 0x43
  | some .rom => if wr || rdB s rSecLock 0 then 0x43 else 0
  | some r =>
    if addrHeld s a then 0x43
    else if r = .dram ∧ rdB s rMemCtl 0 ∧ memCap s ≤ a then 0x44
    else if r = .dram ∧ !dramOn s then 0x4E
    else if fwMarked r && !fwOk s w wr a then 0x45
    else 0

/-! ### The control page and the firmware log -/

/-- The local address of an offset of host-port SRAM. -/
def hpAddr (o : Nat) : Nat := 0x2200000000 + o

/-- R379: whether the attention condition holds: a pending bit that MASK lets through. -/
def attnOn (s : State) : Bool := ((rd s rHptAttnPend) &&& (rd s rHptAttnMask)) != 0

/-- R380, R512: an attention bit is set; one that firmware sets for the host also raises the service cores' interrupt source 1. -/
def attnSet (s : State) (i : Nat) : State :=
  let s := wrB s rHptAttnPend i true
  if i < 8 then wrB s rEthSvcIrq 0 true else s

/-- FW_STATE of the control page (Table 13.3). -/
def fwState (s : State) : Nat := ramNat s (hpAddr 6) 2

/-- The agent of firmware's own accesses: the root core in the ROM and its recovery monitor, the control processor otherwise. -/
def whoFw (s : State) : Who := if 2 ≤ fwState s ∧ fwState s ≤ 4 then whoCp else whoRoot

/-- R328: the counter of a refused access. -/
def refuseCnt (s : State) (code : Nat) : State :=
  if code = 0x45 ∨ code = 0x46 then incr s rMemDenyCnt else incr s rMemRefuseCnt

/-- R328, R368: a write of firmware's log, through the fabric. A refused one is dropped and counted; its own record would be
refused in the same way, so none is written.
Assumption log: 29 (DESIGN CHOICE). -/
def logPut (s : State) (a : Nat) (bs : List Byte) : State :=
  let code := accessCode s (whoFw s) true a
  if code = 0 then ramPut s a bs else refuseCnt s code

/-- R412, R413: firmware writes one log record and sets attention bit 2 at or above the threshold: word 0 with SEQ all
ones, word 1, word 0 with SEQ n, then LOG_PROD. With no log ring set up (LOG_SIZE below one record) nothing is
written.
Assumption log: 29 (DESIGN CHOICE), 65 (DESIGN CHOICE). -/
def logRec (s : State) (sev src code typ job : Nat) (data : List Byte) : State :=
  let base := ramNat s (hpAddr 0x800) 4
  let size := ramNat s (hpAddr 0x804) 4
  let n := ramNat s (hpAddr 0x808) 4
  let ents := size / 64
  if ents = 0 then s
  else
    let a := hpAddr (base + n % ents * 64)
    let body := leBytes 1 sev ++ leBytes 1 src ++ leBytes 1 code ++ leBytes 1 typ ++ leBytes 8 (now s) ++
      leBytes 2 job ++ leBytes 2 0 ++ (data ++ List.replicate 44 0).take 44
    let s := logPut s a (leBytes 4 0xFFFFFFFF ++ body.take 28)
    let s := logPut s (a + 32) (body.drop 28)
    let s := logPut s a (leBytes 4 n)
    let s := logPut s (hpAddr 0x808) (leBytes 4 (n + 1))
    if s.logThr ≤ sev then attnSet s 2 else s

/-- A message record whose severity the spec does not state: SEVERITY is free.
Assumption log: 2 (DESIGN CHOICE), 61 (DESIGN CHOICE). -/
def logMsg (s : State) (src code : Nat) (data : List Byte) : State :=
  let (n, s) := freeN s
  logRec s (n % 6) src code 0 0 data

/-- R328, R346, R413: the data of a refusal or consumption record: agent bit, point, global address. -/
def logAgent (agent point addr : Nat) : List Byte := leBytes 1 agent ++ leBytes 1 point ++ leBytes 2 0 ++ leBytes 8 addr

/-- R328: a refusal is posted to the control processor and logged at WARNING. -/
def logRefusal (s : State) (isl code agent job addr : Nat) : State :=
  logRec s 3 isl code 1 job (logAgent agent 0 addr)

/-- R328: a refusal is counted, posted and logged. -/
def refuse (s : State) (w : Who) (code g : Nat) : State := logRefusal (refuseCnt s code) w.isl code w.agent w.job g

/-- R368: a write of firmware within one 64-byte block, through the fabric. -/
def fwPut (s : State) (a : Nat) (bs : List Byte) : State :=
  let code := accessCode s (whoFw s) true a
  if code = 0 then ramPut s a bs else refuse s (whoFw s) code (glob s a)

/-- R368: whether the firewall lets firmware read an address of its pages. -/
def fwReads (s : State) (a : Nat) : Bool := accessCode s (whoFw s) false a == 0

/-- Firmware changes FW_STATE, and sets attention bit 3 (Table 13.8). -/
def setFwState (s : State) (v : Nat) : State := attnSet (fwPut s (hpAddr 6) (leBytes 2 v)) 3

/-! ### Health events (R448) -/

/-- R448: a detector posts a health event. While RAS_CTL.ENABLE is 0 no detector posts (R463); a full FIFO drops the
record, and the counter of the detector advances in either case. The spec gives PATTERN no layout: it is a free value.
Assumption log: 2 (DESIGN CHOICE), 61 (DESIGN CHOICE). -/
def rasPost (s : State) (det kind code isl job unit loc addr : Nat) : State :=
  if !rdB s rRasCtl 0 then s
  else
    let w0 := kind % 16 * 2 ^ 28 + det % 16 * 2 ^ 24 + code % 256 * 2 ^ 16 + isl % 16 * 2 ^ 12 + job % 4096
    let w1 := unit % 256 * 2 ^ 24 + loc % 2 ^ 24
    let t := now s
    let (pat, s) := freeW s
    let rec8 := [w0, w1, t, t / 2 ^ 32, addr, addr / 2 ^ 32, pat.toNat, 0].map (BitVec.ofNat 32)
    let r := fifoPush 256 rec8 s.rasEvt
    { incr s (rRasDetCnt det) with rasEvt := r.1 }

/-- The job of cluster k's operations (R346). -/
def jobClu (s : State) (k : Nat) : Nat := rdF s (rCpJobCl k) 11 0

/-- R161: bank and bank row of a word of an engine memory, as LOC of Table 16.7 holds them. -/
def bankLoc (a : Nat) : Nat :=
  let w := a % 0x200000 / 32
  (w % 32).xor (w / 32 % 32) * 2 ^ 16 + w / 32

/-- The kind, unit and island of the SRAM a word lies in (Table 16.7; media and control SRAM have no kind of their own,
assumption 12).
Assumption log: 12 (DESIGN CHOICE). -/
def sramUnit (a : Nat) : Nat × Nat × Nat :=
  match memAt a with
  | some m => if m < 32 then (2, m, m / 4) else (3, m - 32, m - 32)
  | none => if a < 0x2200000000 then (15, 0, 0xA) else (15, 1, 0xC)

/-- An SRAM event of detector 4, 5 or 6 at a word. -/
def sramEvent (s : State) (det code a : Nat) : State :=
  let (kind, unit, isl) := sramUnit a
  let job := match memAt a with
    | some m => jobClu s (memClu m)
    | none => 0
  rasPost s det kind code isl job unit (bankLoc a) (glob s a)

/-- R345, R346: a consumption of poison at a point of Table 12.7 (in its order, from 0): it is counted, and posted with the
point, the consumer job and the address.
Assumption log: 49 (DESIGN CHOICE). -/
def consume (s : State) (isl agent point job addr : Nat) : State :=
  logRec (incr s rMemConsumeCnt) 5 isl 0x4C 2 job (logAgent agent (Config.pointCode point) addr)

end Sys2Proof.Machine
end

