-- ==== Sys2Proof/Machine/LinkSend.lean ====
section
/-! DEFINITION. Giving segments to the links (R422), tags of remote operations (R433), and acknowledging write operations to
their issuers (R171, R183, R199). -/

namespace Sys2Proof.Machine
open Sys2Proof

/-- LINKl_STATUS.STATE. -/
def linkState (s : State) (l : Nat) : Nat := rdF s (rLinkStatus l) 31 28

/-- A link. -/
def lnk (s : State) (l : Nat) : Lnk := s.lk.l.getD l {}

/-- Changing a link. -/
def updLnk (s : State) (l : Nat) (f : Lnk → Lnk) : State := { s with lk := { s.lk with l := s.lk.l.modify l f } }

/-- R422: the ACTIVE link that DDL_ROUTEc names for chip c, if its route is VALID and this chip is not lone. -/
def routeOf (s : State) (c : Nat) : Option Nat :=
  let l := rdF s (rDdlRoute c) 2 0
  if rdF s rDdlChip 31 30 ≠ 0 ∧ c < 64 ∧ rdB s (rDdlRoute c) 31 ∧ l < 6 ∧ linkState s l = 4 then some l else none

/-- A segment joins the queue of a link. -/
def enqueue (s : State) (l : Nat) (g : Seg) : State := updLnk s l fun k => { k with txq := k.txq ++ [g] }

/-- R422: a segment this chip issues is queued on its route; none where the route test fails, which is counted. -/
def segSend (s : State) (g : Seg) : Bool × State :=
  match routeOf s g.dst with
  | some l => (true, enqueue s l g)
  | none => (false, incr s rDdlUnreachCnt)

/-- A segment with TTL 7 from this chip. -/
def seg0 (s : State) (kind dst addr n tag epoch job : Nat) : Seg :=
  ⟨addr, n - 1, 0, kind, 0, tag, epoch, job, ownChip s, dst, 7, 0, []⟩

/-- The poison bits of a segment, one per 32-byte half of its 64-byte block. -/
def halfBits (a : Nat) (ps : List Bool) : Nat :=
  b2n ((ps.zipIdx.any fun x => x.1 && decide ((a + x.2) % 64 < 32))) +
    2 * b2n ((ps.zipIdx.any fun x => x.1 && decide (32 ≤ (a + x.2) % 64)))

/-- Bytes placed at their offset within a 64-byte block (R420). -/
def blockOf (a : Nat) (bs : List Byte) : List Byte :=
  (List.replicate (a % 64) 0 ++ bs ++ List.replicate 64 0).take 64

/-- DDL_OPTO in ns. -/
def optoNs (s : State) : Nat := 1000 * rdF s rDdlOpto 15 0

/-- R433: a tag that is neither in use nor timed out within the last two DDL_OPTO.
Assumption log: 62 (DEDUCED). -/
def freeTag (s : State) : Nat :=
  let busy (t : Nat) := s.lk.ops.any (fun o => o.tag == t) ||
    s.lk.dead.any fun d => d.1 == t && decide (now s < d.2 + 2 * optoNs s)
  (((upto 8192).map fun i => (s.lk.nextTag + i) % 8192).find? fun t => !busy t).getD 0

/-- A remote operation is recorded under a new tag. -/
def newRop (s : State) (o : ROp) : State :=
  { s with lk := { s.lk with ops := s.lk.ops ++ [o], nextTag := (o.tag + 1) % 8192 } }

/-- R427, R431: the chip becomes lone: its own Headland, with number 0. -/
def goLone (s : State) : State :=
  let s := wr s rDdlChip 0
  { s with lk := { s.lk with hlSerial := none, loneWait := false, peers := [], tables := [], wins := [] } }

/-- R431: a chip that waits to become lone does so when its engine is not running. -/
def loneDue (s : State) : State := if s.lk.loneWait then goLone s else s

/-- R466: whether the mode in force lets link l train. -/
def linkMay (s : State) (l : Nat) : Bool :=
  let m := rdF s rPwrStatus 1 0
  m < 2 || (m == 2 && rdB s rPwrNeapLinks l)

/-- Changing a chip DMA channel. -/
def updDma (s : State) (n : Nat) (f : DmaCh → DmaCh) : State := { s with dma := s.dma.modify n f }

/-- R171, R183, R199, R221: a write operation is acknowledged to its issuer: a pending list, a DMA channel, or another chip,
which gets a WRACK with a status and a code. -/
def ackTo (s : State) (o : Owner) (xid ix addr job status code : Nat) : State :=
  match o with
  | .cluster k => updClu s k fun c =>
      { c with xfers := c.xfers.map (fun x => if x.id = xid then { x with acks := x.acks + 1 } else x),
               ops := c.ops.filter fun y => !(y.xid == xid && y.ix == ix) }
  | .dma ch => updDma s ch fun d =>
      { d with xfer := d.xfer.map (fun x => { x with acks := x.acks + 1 }), ops := d.ops.filter fun y => !(y.ix == ix) }
  | .remote chip _ =>
      (segSend s { seg0 s 4 chip (glob s addr) 1 xid 0 job with status := status, code := code }).2
  | _ => s

end Sys2Proof.Machine
end

