-- ==== Sys2Proof/Machine/Num.lean ====
section
/-! DEFINITION. The number formats and the arithmetic of chapter 02: decoding (R47-R53), the three rounding modes
(R54, R55), conversion and saturation (R56, R57), the exact sums of the array (R63, R64) and the FP32 steps with
their flags (R539). A value is decoded to an exact dyadic number, the operation is exact, and one rounding ends it. -/

namespace Sys2Proof.Machine

/-- An exact floating-point value: NaN, an infinity, or `(-1)^neg * m * 2^e`. -/
inductive FVal where
  | nan
  | inf (neg : Bool)
  | fin (neg : Bool) (m : Nat) (e : Int)
  deriving DecidableEq, Repr

/-- A floating-point format of Table 2.2: fraction bits, bias, the largest finite magnitude code, the infinity code if
the format has one, the canonical NaN (R52) and the sign bit. -/
structure FpFmt where
  fb : Nat
  bias : Nat
  maxFin : Nat
  infC : Option Nat
  nanC : Nat
  sign : Nat
  deriving DecidableEq, Repr

/-- FP8 E4M3 (Table 2.2). -/
def fmtE4M3 : FpFmt := ⟨3, 7, 0x7E, none, 0x7F, 0x80⟩
/-- FP8 E5M2 (Table 2.2). -/
def fmtE5M2 : FpFmt := ⟨2, 15, 0x7B, some 0x7C, 0x7E, 0x80⟩
/-- BF16 (Table 2.2). -/
def fmtBF16 : FpFmt := ⟨7, 127, 0x7F7F, some 0x7F80, 0x7FC0, 0x8000⟩
/-- FP16 (Table 2.2). -/
def fmtFP16 : FpFmt := ⟨10, 15, 0x7BFF, some 0x7C00, 0x7E00, 0x8000⟩
/-- FP32 (Table 2.2). -/
def fmtFP32 : FpFmt := ⟨23, 127, 0x7F7FFFFF, some 0x7F800000, 0x7FC00000, 0x80000000⟩

/-- The floating-point format of a code of Table 2.1. -/
def fpFmtOf : Nat → Option FpFmt
  | 4 => some fmtE4M3
  | 5 => some fmtE5M2
  | 6 => some fmtBF16
  | 7 => some fmtFP16
  | 8 => some fmtFP32
  | _ => none

/-- R50: the value of a code. -/
def fpDecode (f : FpFmt) (c : Nat) : FVal :=
  let neg := f.sign ≤ c % (2 * f.sign)
  let mag := c % f.sign
  if f.maxFin < mag then (if f.infC = some mag then .inf neg else .nan)
  else
    let e := mag / 2 ^ f.fb
    let m := mag % 2 ^ f.fb
    if e = 0 then .fin neg m (1 - (f.bias : Int) - f.fb)
    else .fin neg (2 ^ f.fb + m) ((e : Int) - f.bias - f.fb)

/-- R53: the value of a UE5M3 scale. -/
def ue5m3 (c : Nat) : FVal :=
  let e := c % 256 / 8
  let m := c % 8
  if e = 0 then .fin false m (-17) else .fin false (8 + m) ((e : Int) - 18)

/-- The three rounding modes of R54; SR carries its 8-bit slice (R55). -/
inductive Rnd where
  | rne
  | sr (r : Nat)
  | rup
  deriving DecidableEq, Repr

/-- Whether a quotient with remainder `rem` out of `2^s` rounds its magnitude up (R54, R55). RUP rounds toward plus
infinity, so it truncates a negative magnitude. -/
def roundUp (md : Rnd) (neg : Bool) (n rem s : Nat) : Bool :=
  match md with
  | .rne => 2 ^ s < 2 * rem || (2 * rem == 2 ^ s && n % 2 == 1)
  | .sr r => r < rem * 256 / 2 ^ s
  | .rup => !neg && 0 < rem

/-- The magnitude `m * 2^e` in units of `2^q`, rounded. -/
def roundMag (md : Rnd) (neg : Bool) (m : Nat) (e q : Int) : Nat :=
  if q ≤ e then m * 2 ^ (e - q).toNat
  else
    let s := (q - e).toNat
    let n := m / 2 ^ s
    if roundUp md neg n (m % 2 ^ s) s then n + 1 else n

/-- The magnitude code of `m * 2^e` in a format with unbounded exponent range upward: codes above the format's largest
finite code overflow (R56). -/
def magCode (fb : Nat) (bias : Nat) (md : Rnd) (neg : Bool) (m : Nat) (e : Int) : Nat :=
  if m = 0 then 0
  else
    let emin : Int := 1 - bias
    let q := max ((Nat.log2 m : Int) + e) emin - fb
    (q - (emin - fb)).toNat * 2 ^ fb + roundMag md neg m e q

/-- The code of a value in FP32 by RNE, before flags: overflow gives an infinity, NaN the canonical NaN. -/
def enc32 (x : FVal) : Nat :=
  match x with
  | .nan => 0x7FC00000
  | .inf neg => 0x7F800000 + b2n neg * 0x80000000
  | .fin neg m e => min (magCode 23 127 .rne neg m e) 0x7F800000 + b2n neg * 0x80000000

/-- The value of an FP32 word. -/
def dec32 (w : Word) : FVal := fpDecode fmtFP32 w.toNat

/-- The FP32 word of a value. -/
def fw (x : FVal) : Word := BitVec.ofNat 32 (enc32 x)

/-- Rounding to FP32 by RNE (rne32), without flags. -/
def rne32 (x : FVal) : FVal := fpDecode fmtFP32 (enc32 x)

/-- An integer as an exact value. -/
def fOfInt (i : Int) : FVal := .fin (decide (i < 0)) i.natAbs 0

/-- Is the value a NaN. -/
def fIsNan : FVal → Bool
  | .nan => true
  | _ => false

/-- Is the value finite. -/
def fIsFin : FVal → Bool
  | .fin _ _ _ => true
  | _ => false

/-- Is the value an infinity. -/
def fIsInf : FVal → Bool
  | .inf _ => true
  | _ => false

/-- Is the value a zero of either sign. -/
def fIsZero : FVal → Bool
  | .fin _ m _ => m == 0
  | _ => false

/-- The sign bit of a value. -/
def fNeg : FVal → Bool
  | .nan => false
  | .inf n => n
  | .fin n _ _ => n

/-- Negation; a NaN stays a NaN. -/
def fNegate : FVal → FVal
  | .nan => .nan
  | .inf n => .inf (!n)
  | .fin n m e => .fin (!n) m e

/-- Magnitude. -/
def fAbs : FVal → FVal
  | .nan => .nan
  | .inf _ => .inf false
  | .fin _ m e => .fin false m e

/-- Positive zero. -/
def fZero : FVal := .fin false 0 0

/-- One. -/
def fOne : FVal := .fin false 1 0

/-- The signed integer `±m * 2^(e-b)`, for `b ≤ e`. -/
def fScaled (neg : Bool) (m : Nat) (e b : Int) : Int :=
  let v : Int := ((m * 2 ^ (e - b).toNat : Nat) : Int)
  if neg then -v else v

/-- Exact multiplication with the special values of IEEE 754-2019: infinity times zero is NaN. -/
def fMulX (a b : FVal) : FVal :=
  match a, b with
  | .nan, _ => .nan
  | _, .nan => .nan
  | .inf n, .inf k => .inf (n != k)
  | .inf n, .fin k m _ => if m = 0 then .nan else .inf (n != k)
  | .fin n m _, .inf k => if m = 0 then .nan else .inf (n != k)
  | .fin n m e, .fin k m' e' => .fin (n != k) (m * m') (e + e')

/-- Exact addition of two finite values, with the zero signs of RNE (R64): an exact zero is -0 only when both terms
are -0. -/
def fAddFin (n : Bool) (m : Nat) (e : Int) (k : Bool) (m' : Nat) (e' : Int) : FVal :=
  if m = 0 then (if m' = 0 then .fin (n && k) 0 0 else .fin k m' e')
  else if m' = 0 then .fin n m e
  else
    let b := min e e'
    let s := fScaled n m e b + fScaled k m' e' b
    .fin (decide (s < 0)) s.natAbs b

/-- Exact addition: opposite infinities give NaN. -/
def fAddX (a b : FVal) : FVal :=
  match a, b with
  | .nan, _ => .nan
  | _, .nan => .nan
  | .inf n, .inf k => if n = k then .inf n else .nan
  | .inf n, .fin _ _ _ => .inf n
  | .fin _ _ _, .inf k => .inf k
  | .fin n m e, .fin k m' e' => fAddFin n m e k m' e'

/-- Integer square root by bits, from bit `k` down. -/
def isqrtGo (x : Nat) : Nat → Nat → Nat
  | 0, r => r
  | k + 1, r =>
    let t := r + 2 ^ k
    isqrtGo x k (if t * t ≤ x then t else r)

/-- The integer square root of `x`. -/
def isqrt (x : Nat) : Nat := isqrtGo x (Nat.log2 x / 2 + 1) 0

/-- 1/x to more bits than FP32 holds, with a sticky bit below; zeros give infinities (R151). -/
def fRcpX : FVal → FVal
  | .nan => .nan
  | .inf n => .fin n 0 0
  | .fin n m e =>
    if m = 0 then .inf n
    else
      let k := Nat.log2 m + 64
      .fin n (2 * (2 ^ k / m) + b2n (2 ^ k % m != 0)) (-(k : Int) - 1 - e)

/-- The square root to more bits than FP32 holds, with a sticky bit below. -/
def fSqrtX : FVal → FVal
  | .nan => .nan
  | .inf n => if n then .nan else .inf false
  | .fin n m e =>
    if m = 0 then .fin n 0 0
    else if n then .nan
    else
      let m2 := if e % 2 = 0 then m else 2 * m
      let e2 := if e % 2 = 0 then e else e - 1
      let x := m2 * 2 ^ 128
      let r := isqrt x
      .fin false (2 * r + b2n (r * r != x)) (e2 / 2 - 65)

/-- 1/sqrt(x) to more bits than FP32 holds, with a sticky bit below (R151). -/
def fRsqrtX : FVal → FVal
  | .nan => .nan
  | .inf n => if n then .nan else .fin false 0 0
  | .fin n m e =>
    if m = 0 then .inf n
    else if n then .nan
    else
      let m2 := if e % 2 = 0 then m else 2 * m
      let e2 := if e % 2 = 0 then e else e - 1
      let k := Nat.log2 m2 / 2 + 66
      let x := 2 ^ (2 * k) / m2
      let r := isqrt x
      .fin false (2 * r + b2n (r * r * m2 != 2 ^ (2 * k))) (-(k : Int) - 1 - e2 / 2)

/-- Numeric comparison of two values that are not NaN, -0 equal to +0. -/
def fCmp (a b : FVal) : Ordering :=
  match a, b with
  | .inf n, .inf k => if n = k then .eq else if n then .lt else .gt
  | .inf n, _ => if n then .lt else .gt
  | _, .inf k => if k then .gt else .lt
  | .fin n m e, .fin k m' e' =>
    if m = 0 ∧ m' = 0 then .eq
    else if m = 0 then (if k then .gt else .lt)
    else if m' = 0 then (if n then .lt else .gt)
    else
      let c := min e e'
      compare (fScaled n m e c) (fScaled k m' e' c)
  | _, _ => .eq

/-- Strictly less, as IEEE 754-2019 compares: false with a NaN operand. -/
def fLt (a b : FVal) : Bool := !fIsNan a && !fIsNan b && fCmp a b == .lt

/-- Numeric equality, as IEEE 754-2019 compares. -/
def fEq (a b : FVal) : Bool := !fIsNan a && !fIsNan b && fCmp a b == .eq

/-- Less or equal. -/
def fLe (a b : FVal) : Bool := fLt a b || fEq a b

/-- The order of R150 and R152 on numbers: -0 lies below +0. -/
def fBelow (a b : FVal) : Bool :=
  match fCmp a b with
  | .lt => true
  | .gt => false
  | .eq => fIsZero a && fIsZero b && fNeg a && !fNeg b

/-- The largest integer not above a finite value. -/
def fFloor : FVal → Int
  | .fin n m e =>
    if 0 ≤ e then fScaled n m e 0
    else
      let v : Int := if n then -(m : Int) else m
      v / ((2 ^ (-e).toNat : Nat) : Int)
  | _ => 0

/-! ### The flags of NCn_ARITH_STATUS -/

/-- The arithmetic events of one operation (chapter 02, section 9): counts of saturated adds and clamping conversions,
and the three event flags. -/
structure Fl where
  accSat : Nat := 0
  fpNan : Bool := false
  fpInf : Bool := false
  cvtSat : Nat := 0
  cvtNan : Bool := false
  deriving DecidableEq, Repr

/-- A computation that records arithmetic events. -/
abbrev Num (α : Type) := StateM Fl α

/-- Running such a computation from no events. -/
def numRun {α : Type} (x : Num α) : α × Fl := x.run {}

/-- R539: one FP32 rounding step. FP_INF when every operand is finite and the result is infinite, FP_NAN when no operand
is NaN and the result is NaN. -/
def step32 (ops : List FVal) (x : FVal) : Num FVal := do
  let r := rne32 x
  if fIsInf r && ops.all fIsFin then modify fun f => { f with fpInf := true }
  if fIsNan r && ops.all (fun o => !fIsNan o) then modify fun f => { f with fpNan := true }
  return r

/-- FP32 addition. -/
def add32 (a b : FVal) : Num FVal := step32 [a, b] (fAddX a b)
/-- FP32 subtraction. -/
def sub32 (a b : FVal) : Num FVal := step32 [a, b] (fAddX a (fNegate b))
/-- FP32 multiplication. -/
def mul32 (a b : FVal) : Num FVal := step32 [a, b] (fMulX a b)
/-- FP32 fused multiply-add. -/
def fma32 (a b c : FVal) : Num FVal := step32 [a, b, c] (fAddX (fMulX a b) c)
/-- Correctly rounded reciprocal (R151). -/
def rcp32 (a : FVal) : Num FVal := step32 [a] (fRcpX a)
/-- Correctly rounded reciprocal square root (R151). -/
def rsqrt32 (a : FVal) : Num FVal := step32 [a] (fRsqrtX a)
/-- Correctly rounded square root (R271). -/
def sqrt32 (a : FVal) : Num FVal := step32 [a] (fSqrtX a)

/-- R150: minimum, -0 below +0, canonical NaN for a NaN operand. -/
def min32 (a b : FVal) : FVal := if fIsNan a || fIsNan b then .nan else if fBelow a b then a else b
/-- R150: maximum, -0 below +0, canonical NaN for a NaN operand. -/
def max32 (a b : FVal) : FVal := if fIsNan a || fIsNan b then .nan else if fBelow b a then a else b

/-! ### Conversion -/

/-- The clamping event of R57. -/
def clampEvent : Num Unit := modify fun f => { f with cvtSat := f.cvtSat + 1 }

/-- The integer nearest a finite value in a rounding mode; the ulp is 1 (R54). -/
def roundInt (md : Rnd) : FVal → Int
  | .fin n m e =>
    let v : Int := (roundMag md n m e 0 : Nat)
    if n then -v else v
  | _ => 0

/-- Clamping an integer to a range, counting a clamp (R56, R57). -/
def clampI (lo hi i : Int) : Num Int :=
  if i < lo then do clampEvent; return lo
  else if hi < i then do clampEvent; return hi
  else return i

/-- Conversion to an integer range (Table 2.4). -/
def cvtInt (lo hi : Int) (md : Rnd) (x : FVal) : Num Int :=
  match x with
  | .nan => do modify fun f => { f with cvtNan := true }; return 0
  | .inf n => do clampEvent; return if n then lo else hi
  | .fin n m e => clampI lo hi (roundInt md (.fin n m e))

/-- Conversion to UE5M3 (Table 2.4): it always saturates, and a negative value gives 0x00. -/
def cvtUe (md : Rnd) (x : FVal) : Num Nat :=
  match x with
  | .nan => do modify fun f => { f with cvtNan := true }; return 0xFF
  | .inf n => do clampEvent; return if n then 0 else 0xFF
  | .fin n m e => do
    let c := magCode 3 15 md n m e
    if n then (if c = 0 then return 0 else do clampEvent; return 0)
    else if 0xFF < c then do clampEvent; return 0xFF
    else return c

/-- Conversion to a floating-point format (Table 2.4, R57). E4M3 has no infinity and always saturates; a RUP value below
the negative range truncates to it and counts as a clamp. -/
def cvtFp (f : FpFmt) (md : Rnd) (sat : Bool) (x : FVal) : Num Nat :=
  let sgn (n : Bool) : Nat := b2n n * f.sign
  match x, f.infC with
  | .nan, _ => return f.nanC
  | .inf n, none => do clampEvent; return f.maxFin + sgn n
  | .inf n, some i => if sat then do clampEvent; return f.maxFin + sgn n else return i + sgn n
  | .fin n m e, ic => do
    let c := magCode f.fb f.bias md n m e
    if c ≤ f.maxFin then
      if md == .rup && n && fLt (.fin n m e) (fpDecode f (f.maxFin + sgn true)) then clampEvent
      return c + sgn n
    else
      match ic with
      | none => do clampEvent; return f.maxFin + sgn n
      | some i =>
        if sat || (md == .rup && n) then do clampEvent; return f.maxFin + sgn n
        else do modify fun fl => { fl with fpInf := true }; return i + sgn n

/-- The code of a value in the format of a code of Table 2.1, as a bit pattern of the format's width. Formats that no
conversion names give 0. -/
def convert (fmt : Nat) (md : Rnd) (sat : Bool) (x : FVal) : Num Nat :=
  match fmt with
  | 1 => do return truncI 8 (← cvtInt (-128) 127 md x)
  | 2 => do return truncI 8 (← cvtInt 0 255 md x)
  | 3 => do return truncI 4 (← cvtInt (-8) 7 md x)
  | 9 => do return truncI 32 (← cvtInt (-2147483648) 2147483647 md x)
  | 10 => cvtUe md x
  | k =>
    match fpFmtOf k with
    | some f => cvtFp f md sat x
    | none => return 0

/-- Bits of one element of a format (Table 2.1). -/
def fmtBits : Nat → Nat
  | 3 => 4
  | 6 => 16
  | 7 => 16
  | 8 => 32
  | 9 => 32
  | _ => 8

/-- Whether elements of the format are integers (widened to INT32), rather than floating point (widened to FP32). -/
def fmtIsInt (fmt : Nat) : Bool := fmt == 0 || fmt == 1 || fmt == 2 || fmt == 3 || fmt == 9

/-- Exact widening of an element code to a lane (Table 4.8, VLD; R536 for raw bytes).
Assumption log: 89 (DEDUCED). -/
def widen (fmt c : Nat) : Word :=
  match fmt with
  | 1 => BitVec.ofInt 32 (sextN 8 c)
  | 3 => BitVec.ofInt 32 (sextN 4 c)
  | 10 => fw (ue5m3 c)
  | 4 => fw (fpDecode fmtE4M3 c)
  | 5 => fw (fpDecode fmtE5M2 c)
  | 6 => fw (fpDecode fmtBF16 c)
  | 7 => fw (fpDecode fmtFP16 c)
  | 8 => BitVec.ofNat 32 c
  | 9 => BitVec.ofNat 32 c
  | _ => BitVec.ofNat 32 (c % 256)

/-- Whether a lane value is exact in a target format, so that SR draws nothing and never changes it; used only to say
when a draw is made (R257). -/
def laneVal (int : Bool) (w : Word) : FVal := if int then fOfInt w.toInt else dec32 w

/-! ### INT32 arithmetic of the vector unit (R150) -/

/-- The INT32 result of an exact integer: it wraps, or with SAT it clamps as a conversion does (R150). -/
def int32 (sat : Bool) (i : Int) : Num Word :=
  if sat then do return BitVec.ofInt 32 (← clampI (-2147483648) 2147483647 i)
  else return BitVec.ofInt 32 i

/-- The saturating INT32 add of the accumulators (R59, R61). -/
def satAdd (a b : Int) : Num Int :=
  let s := a + b
  if s < -2147483648 then do modify fun f => { f with accSat := f.accSat + 1 }; return -2147483648
  else if 2147483647 < s then do modify fun f => { f with accSat := f.accSat + 1 }; return 2147483647
  else return s

/-! ### The exact sums of the FP8 array (R63, R64) -/

/-- The sign information an exact sum keeps: whether every term so far is -0. -/
def fSumX : List FVal → FVal
  | [] => fZero
  | [a] => a
  | a :: rest => fAddX a (fSumX rest)

/-- The 64 products of one element. -/
def fProds (as ws : List FVal) : List FVal := List.zipWith fMulX as ws

/-- R66: one level of the pairwise tree of rne32 additions. -/
def treeLevel : List FVal → Num (List FVal)
  | a :: b :: t => do
    let s ← add32 a b
    let r ← treeLevel t
    return s :: r
  | l => return l

/-- The pairwise tree over at most `2^n` values. -/
def treeSum : Nat → List FVal → Num FVal
  | 0, l => return l.headD fZero
  | n + 1, l => do treeSum n (← treeLevel l)

end Sys2Proof.Machine
end

