-- ==== Sys2Proof/Machine/Sram.lean ====
section
/-! DEFINITION. Reads and writes of the on-die SRAMs through their ECC and poison flags (05 section 1, R112, R344). -/

namespace Sys2Proof.Machine
open Sys2Proof

/-- The cluster whose counters an engine SRAM word's errors advance, if it lies in an engine memory. -/
def wordClu (w : Nat) : Option Nat := (memAt (32 * w)).map memClu

/-- Advancing a per-cluster counter for a word of an engine memory. -/
def cluIncr (s : State) (w : Nat) (r : Nat → Nat) : State :=
  match wordClu w with
  | some k => incr s (r k)
  | none => s

/-- R166: the damage of a stored word. -/
def eccGet (s : State) (w : Nat) : Nat := mget nat0 s.mem.ecc w

/-- Setting the damage of a stored word. -/
def eccPut (s : State) (w n : Nat) : State := { s with mem := { s.mem with ecc := mput nat0 w n s.mem.ecc } }

/-- The word is written over: its damage ends, and a write-back that waits for it is dropped (R166). -/
def wordFresh (s : State) (w : Nat) : State :=
  let s := eccPut s w 0
  { s with mem := { s.mem with wb := s.mem.wb.filter (· != w) } }

/-- 32 free bytes: the data an uncorrectable SRAM word is delivered with (assumption 3).
Assumption log: 3 (DESIGN CHOICE). -/
def freeBytes (c : Nat) : List Byte :=
  (upto 8).flatMap fun i => leBytes 4 (Config.freeWord (c + i)).toNat

/-- Table 5.1: one read of the 32-byte word w through its ECC. A correctable error is delivered corrected, its write-back
is queued, and CLUk_ECC_CE_CNT advances; an uncorrectable one is delivered poisoned, rewritten poisoned, counted and
reported.
Assumption log: 3 (DESIGN CHOICE). -/
def wordRead (s : State) (w : Nat) : (List Byte × Bool) × State :=
  let e := eccGet s w
  if e = 0 then ((ramGet s (32 * w) 32, poisGet s w), s)
  else if e ≤ 2 then
    let s' := cluIncr s w rCluEccCeCnt
    let s' := if s'.mem.wb.contains w then s' else { s' with mem := { s'.mem with wb := s'.mem.wb ++ [w] } }
    let s' := if rdB s' rRasCtl 1 then sramEvent s' 4 0 (32 * w) else s'
    ((ramGet s (32 * w) 32, poisGet s w), s')
  else
    let bs := freeBytes s.free
    let s' := freeSkip s 8
    let s' := wordFresh (ramPut (poisPut s' w true) (32 * w) bs) w
    let s' := sramEvent (cluIncr s' w rCluEccUeCnt) 5 0x94 (32 * w)
    ((bs, true), s')

/-- Whether the stored word w has an error that a read corrects (R166). -/
def wordCe (s : State) (w : Nat) : Bool := 0 < eccGet s w && eccGet s w ≤ 2

/-- R166, R167: the scrubber's read of word w: as any read, but it never writes a poisoned word, so an error in one is counted
and reported and the word stays. -/
def scrubRead (s : State) (w : Nat) : State :=
  if !poisGet s w || eccGet s w = 0 then (wordRead s w).2
  else if eccGet s w ≤ 2 then
    let s := cluIncr s w rCluEccCeCnt
    if rdB s rRasCtl 1 then sramEvent s 4 0 (32 * w) else s
  else sramEvent (cluIncr s w rCluEccUeCnt) 5 0x94 (32 * w)

/-- Reading words w, w+1, …: the bytes, the poison flag of each byte's word, and whether a correction was made. -/
def wordsRead (s : State) (w : Nat) : Nat → (List Byte × List Bool × Bool) × State
  | 0 => (([], [], false), s)
  | n + 1 =>
    let ce := wordCe s w
    let ((bs, p), s) := wordRead s w
    let ((bs', ps', ce'), s) := wordsRead s (w + 1) n
    ((bs ++ bs', List.replicate 32 p ++ ps', ce || ce'), s)

/-- Reading n bytes of an SRAM: the bytes, the poison flag of the word of each, and whether a word was corrected. -/
def sramRead (s : State) (a n : Nat) : (List Byte × List Bool × Bool) × State :=
  if n = 0 then (([], [], false), s)
  else
    let w := a / 32
    let ((bs, ps, ce), s) := wordsRead s w ((a + n - 1) / 32 + 1 - w)
    ((slice bs (a % 32) n, slice ps (a % 32) n, ce), s)

/-- The distinct words that a list of byte writes touches, in order of first touch. -/
def wordsOf (ws : List (Nat × Byte × Bool)) : List Nat := (ws.map fun x => x.1 / 32).eraseDups

/-- The writes that fall into word w. -/
def wordHere (w : Nat) (ws : List (Nat × Byte × Bool)) : List (Nat × Byte × Bool) := ws.filter fun x => x.1 / 32 == w

/-- R164: whether writes cover all 32 bytes of word w. -/
def wordFull (w : Nat) (ws : List (Nat × Byte × Bool)) : Bool := (((wordHere w ws).map fun x => x.1).eraseDups).length == 32

/-- R194: an injected parity mismatch meets the encoder at a write of word w: the word is stored poisoned, reported and
counted.
Assumption log: 5 (DESIGN CHOICE). -/
def wordParity (s : State) (w : Nat) : State :=
  if s.mem.parUps.contains w then
    let s := { s with mem := { s.mem with parUps := s.mem.parUps.filter (· != w) } }
    sramEvent (cluIncr (poisPut s w true) w rCluParCnt) 6 0x94 (32 * w)
  else s

/-- R164, R194: writing bytes of one word. A write of all 32 bytes replaces the flag by the writes' own; a partial write
merges it with the old flag and with an uncorrectable old word. -/
def wordWrite (s : State) (w : Nat) (ws : List (Nat × Byte × Bool)) : State :=
  let here := wordHere w ws
  let flag := here.any fun x => x.2.2
  let (old, s) := if wordFull w ws then (false, s) else
    let ((_, p), s) := wordRead s w
    (p, s)
  let s := wordFresh s w
  let s := poisPut s w (flag || old)
  wordParity { s with mem := { s.mem with sram := mputs byte0 (here.map fun x => (x.1, x.2.1)) s.mem.sram } } w

/-- Writing bytes, each with the poison flag it carries, word by word. -/
def sramWrite (s : State) (ws : List (Nat × Byte × Bool)) : State :=
  foldS (fun s w => wordWrite s w ws) (wordsOf ws) s

/-- A run of bytes and flags as byte writes. -/
def runWrites (a : Nat) (bs : List Byte) (ps : List Bool) : List (Nat × Byte × Bool) :=
  (List.zip bs ps).zipIdx.map fun x => (a + x.2, x.1.1, x.1.2)

/-- R194: a parity mismatch at the encoder: every word of the write is stored poisoned, and reported.
Assumption log: 5 (DESIGN CHOICE). -/
def parityHit (s : State) (ws : List (Nat × Byte × Bool)) : State :=
  foldS (fun s w => sramEvent (cluIncr (poisPut s w true) w rCluParCnt) 6 0x94 (32 * w)) (wordsOf ws) s

/-- R162, R196: a blocked beat of cluster k is counted for each stall set and cause; the counters run only while the
cluster runs in a placement (R197). -/
def stall (s : State) (k set cause : Nat) : State := incr s (rCluStall k set cause)

/-- R197: one blocked beat of cluster k. -/
def blockedCnt (s : State) (k : Nat) : State := if (clu s k).running then incr s (rCluBlockedCnt k) else s

/-- Table 5.1: a bar-driven read that was corrected blocks the island for one beat, recorded as ECC_REPLAY in the reading
core's set. -/
def eccReplay (s : State) (core : Nat) (ce : Bool) : State :=
  if ce then stall (blockedCnt s (core / 4)) (core / 4) (core % 4) 5 else s

/-- The 32-byte words that a run of bytes touches. -/
def wordsIn (a n : Nat) : Nat := if n = 0 then 0 else (a + n - 1) / 32 + 1 - a / 32

/-- R478: activity event 4 of source `src`: c accesses of engine memory words. -/
def actMem (s : State) (src c : Nat) : State := incrBy s (rPwrAct src 4) c

/-- The words that a run of bytes lies in. -/
def runWords (x : Nat × Nat) : List Nat := (upto (wordsIn x.1 x.2)).map fun i => x.1 / 32 + i

/-- R162: words that a bar-driven access of a core uses in the current beat. -/
def useWords (s : State) (core : Nat) (ws : List Nat) : State := updCore s core fun c => { c with used := c.used ++ ws }

/-- A bar-driven read by a core of its own SPM. -/
def barRead (s : State) (core a n : Nat) : (List Byte × List Bool) × State :=
  let ((bs, ps, ce), s) := sramRead (useWords (actMem s (core / 4) (wordsIn a n)) core (runWords (a, n))) a n
  ((bs, ps), eccReplay s core ce)

/-- Reading a list of words, each once: what each holds, and whether a word was corrected. -/
def wordsList (s : State) : List Nat → (List (Nat × List Byte × Bool) × Bool) × State
  | [] => (([], false), s)
  | w :: ws =>
    let ce := wordCe s w
    let ((bs, p), s) := wordRead s w
    let ((r, ce'), s) := wordsList s ws
    (((w, bs, p) :: r, ce || ce'), s)

/-- The bytes of a run, and its poison, among words already read. -/
def runPick (r : List (Nat × List Byte × Bool)) (x : Nat × Nat) : List Byte × Bool :=
  let got := (runWords x).map fun w => (r.find? fun y => y.1 == w).getD (w, [], false)
  (slice (got.flatMap fun y => y.2.1) (x.1 % 32) x.2, got.any fun y => y.2.2)

/-- R162: a bar-driven read of several runs of one beat: accesses to the same word share one bank access. -/
def barReadRuns (s : State) (core : Nat) (runs : List (Nat × Nat)) : List (List Byte × Bool) × State :=
  let ws := (runs.flatMap runWords).eraseDups
  let ((r, ce), s) := wordsList (useWords (actMem s (core / 4) ws.length) core ws) ws
  (runs.map (runPick r), eccReplay s core ce)

/-- Whether a run lies in a core's own SPM (R148). -/
def inSpm (core a n : Nat) : Bool := memBase core ≤ a && a + n ≤ memBase core + 0x200000

/-! ### Tag reads (R168) -/

/-- R168: a tag read that finds a parity error.
Assumption log: 5 (DESIGN CHOICE). -/
def tagParity (s : State) (key : Nat) : State :=
  let m := key / 512
  let s := wrB (slotTag s key .invalid) (rCluTagStatus (memClu m)) 2 true
  sramEvent s 5 0x94 (memBase m + 4096 * (key % 512))

/-- R168: one read of a slot's tag, through its parity bit.
Assumption log: 5 (DESIGN CHOICE). -/
def tagSee (s : State) (key : Nat) : State := if s.mem.tagUps.contains key then tagParity s key else s

end Sys2Proof.Machine
end

