-- ==== Sys2Proof/Machine/Flags.lean ====
section
/-! DEFINITION. Every flag the engine's arithmetic and checks set (02 section 9, 04 section 7, 07 section 8). -/

namespace Sys2Proof.Machine
open Sys2Proof

/-- Chapter 02 section 9: the arithmetic events of an operation reach NCn_ARITH_STATUS and its counters. -/
def applyFl (s : State) (n : Nat) (f : Fl) : State :=
  let a := rNcArithStatus n
  let s := if 0 < f.accSat then incrBy (wrB s a 0 true) (rNcAccSatCnt n) f.accSat else s
  let s := if f.fpNan then wrB s a 1 true else s
  let s := if f.fpInf then wrB s a 2 true else s
  let s := if 0 < f.cvtSat then incrBy (wrB s a 3 true) (rNcCvtSatCnt n) f.cvtSat else s
  if f.cvtNan then wrB s a 4 true else s

/-- R139: one residue mismatch: the flag, the counter, the log if it is free, and the report. `acc` tells an accumulator
mismatch from a column mismatch. The plane row's poison mark is the caller's. -/
def resMismatch (s : State) (n : Nat) (acc : Bool) (plane row col : Nat) : State :=
  let free := !rdB s (rNcResStatus n) 0 && !rdB s (rNcResStatus n) 1
  let s := if free then
      wr s (rNcResLog n) (BitVec.ofNat 32 ((if acc then 2 else 1) * 2 ^ 30 + 2 ^ 24 * plane + row * 2 ^ 16 + col * 2 ^ 8))
    else s
  let s := wrB s (rNcResStatus n) (b2n acc) true
  let s := incr s (rNcResCnt n)
  rasPost s (b2n acc) 0 0x91 (n / 4) (jobClu s (n / 4)) n col 0

/-- R227: `c` padded taps are counted. -/
def padTaps (s : State) (n c : Nat) : State :=
  if c = 0 then s else incrBy (wrB s (rNcWinStatus n) 0 true) (rNcPadTapCnt n) c

/-- R233, R239: `c` window misses are counted. -/
def winMisses (s : State) (n c : Nat) : State :=
  if c = 0 then s else incrBy (wrB s (rNcWinStatus n) 1 true) (rNcWinMissCnt n) c

/-- R156: `c` lanes of a gather (bit 0) or scatter (bit 1) fell outside the SPM. -/
def oobLanes (s : State) (n bitIx c : Nat) : State :=
  if c = 0 then s else incrBy (wrB s (rNcVecStatus n) bitIx true) (rNcVecOobCnt n) c

/-- R170 to R174: RELEASE_BAD (bit 0) or COMMIT_BAD (bit 1) of cluster k. -/
def tagBad (s : State) (k bitIx : Nat) : State := incr (wrB s (rCluTagStatus k) bitIx true) (rCluTagErrCnt k)

/-- R478: activity event e of source `src` advances by `c`. -/
def act (s : State) (src e c : Nat) : State := incrBy s (rPwrAct src e) c

end Sys2Proof.Machine
end

