-- ==== Sys2Proof/Machine/Mx.lean ====
section
/-! DEFINITION. The matrix array (02 section 6, 04 sections 1 to 3): operand pairs, operand reads by beat, the sums of one
activation row, and the plane row they reach. -/

namespace Sys2Proof.Machine
open Sys2Proof

/-- Table 2.5: the operand pairs of the array. -/
inductive Pair where
  | i8
  | i4w
  | i4
  | f8
  | bf
  | hf
  deriving DecidableEq, Repr

/-- The pair that a weight and an activation format name, if the array accepts it (R58, R130). -/
def pairOf (wfmt afmt : Nat) : Option Pair :=
  if wfmt = 1 ∧ (afmt = 1 ∨ afmt = 2) then some .i8
  else if wfmt = 3 ∧ (afmt = 1 ∨ afmt = 2) then some .i4w
  else if wfmt = 3 ∧ afmt = 3 then some .i4
  else if (wfmt = 4 ∨ wfmt = 5) ∧ (afmt = 4 ∨ afmt = 5) then some .f8
  else if wfmt = 6 ∧ afmt = 6 then some .bf
  else if wfmt = 7 ∧ afmt = 7 then some .hf
  else none

/-- Whether a pair's elements have 16 bits. -/
def pair16 : Pair → Bool
  | .bf => true
  | .hf => true
  | _ => false

/-- Whether a pair accumulates integers. -/
def pairInt : Pair → Bool
  | .i8 => true
  | .i4w => true
  | .i4 => true
  | _ => false

/-- The K-block of a pair (Table 2.5). -/
def kBlock : Pair → Nat
  | .i4 => 128
  | _ => 64

/-- R130: the MX encodings that are not reserved. `start` is MMUL_START. -/
def mxOk (start : Bool) (m : MxArgs) : Bool :=
  m.plane < 16 && m.rows < 64 && m.cols < 64 && m.rq < 4 &&
  match pairOf m.wfmt m.afmt with
  | none => false
  | some p => (!pair16 p || m.rows ≤ 15) && (m.rq == 0 || pair16 p) && (!m.sub32 || p == .f8) && !(m.auto && start)

/-- Bytes of one activation row (Table 4.3). -/
def aBytes (p : Pair) : Nat := if pair16 p then 128 else 64

/-- Bytes of one weight block row (Table 4.3). -/
def bPitch : Pair → Nat
  | .i4w => 32
  | .bf => 128
  | .hf => 128
  | _ => 64

/-- The bytes of a weight row that its first `nc` columns occupy (R132: no bytes of other columns are read). -/
def bBytes (p : Pair) (nc : Nat) : Nat :=
  match p with
  | .i4w => (nc + 1) / 2
  | .bf => 2 * nc
  | .hf => 2 * nc
  | _ => nc

/-- Reading the source of an activation row: its bytes, whether a word was poisoned, and the events of a pad row. -/
def rowRead (s : State) (n : Nat) : RowSrc → (List Byte × Bool) × State
  | .pad bs miss tap _ => ((bs, false), winMisses (padTaps s n (b2n tap)) n (b2n miss))
  | .mem runs =>
    runs.foldl (fun acc r =>
      let ((bs, p), s) := acc
      let ((bs', ps'), s) := barRead s n r.1 r.2
      ((bs ++ bs', p || ps'.any id), s)) (([], false), s)

/-- R234: whether a row is a pad row of ZERO mode. -/
def rowZero : RowSrc → Bool
  | .pad _ _ _ z => z
  | .mem _ => false

/-- The operand reads of an instruction in the beat `i` after its issue (R131, R134, Table 4.3): an activation row, a weight
row, and in beat 0 the scales of an FP8 instruction.
Assumption log: 89 (DEDUCED). -/
def mxRead (s : State) (n : Nat) (f : MxFlight) (i : Nat) : MxFlight × State :=
  match pairOf f.wfmt f.afmt with
  | none => (f, s)
  | some p =>
    if f.nr = 0 ∨ f.nc = 0 then (f, s)
    else
      let (f, s) := if p = .f8 ∧ i = 0 then
          let ((c0, q0), s) := barRead s n (f.bAddr + 4096) f.nc
          let ((c1, q1), s) := if f.sub32 then barRead s n (f.bAddr + 4160) f.nc else (([], []), s)
          let ((r0, q2), s) := barRead s n f.auxAddr (if f.sub32 then 128 else 64)
          ({ f with colSc := (c0 ++ List.replicate (64 - f.nc) 0) ++ c1, rowSc := r0,
                    bPois := f.bPois || (q0 ++ q1 ++ q2).any id }, s)
        else (f, s)
      let step := if pair16 p then 4 else 1
      let (f, s) := match if i % step = 0 then f.src[i / step]? else none with
        | none => (f, s)
        | some src =>
          let ((bs, q), s) := rowRead s n src
          ({ f with a := f.a ++ [bs], aPois := f.aPois ++ [q], aZero := f.aZero ++ [rowZero src] }, s)
      if i < 64 then
        let ((bs, q), s) := barRead s n (f.bAddr + i * bPitch p) (bBytes p f.nc)
        ({ f with b := f.b ++ [bs], bPois := f.bPois || q.any id }, s)
      else (f, s)

/-- Element k of an integer activation row (R48, R131). -/
def aInt (afmt : Nat) (row : List Byte) (k : Nat) : Int :=
  match afmt with
  | 1 => sextN 8 (byteAt row k).toNat
  | 2 => ((byteAt row k).toNat : Int)
  | _ => sextN 4 ((byteAt row (k / 2)).toNat / 16 ^ (k % 2))

/-- Element (k, c) of an integer weight block (Table 3.15): `rows` are its block rows. -/
def wInt (p : Pair) (rows : List (List Byte)) (k c : Nat) : Int :=
  match p with
  | .i8 => sextN 8 (byteAt (rows.getD k []) c).toNat
  | .i4w => sextN 4 ((byteAt (rows.getD k []) (c / 2)).toNat / 16 ^ (c % 2))
  | _ => sextN 4 ((byteAt (rows.getD (k / 2) []) c).toNat / 16 ^ (k % 2))

/-- R59: the exact integer sum of row `row` and column c. -/
def intSum (p : Pair) (afmt : Nat) (row : List Byte) (rows : List (List Byte)) (c : Nat) : Int :=
  (upto (kBlock p)).foldl (fun t k => t + aInt afmt row k * wInt p rows k c) 0

/-- x mod 7, in 0 to 6 (R137). -/
def mod7 (x : Int) : Nat := (x % 7).toNat

/-- R137: the predicted residue of row `row` and column c. -/
def residue (p : Pair) (afmt : Nat) (row : List Byte) (rows : List (List Byte)) (c : Nat) : Nat :=
  (upto (kBlock p)).foldl (fun t k => (t + mod7 (aInt afmt row k) * mod7 (wInt p rows k c)) % 7) 0

/-- R70: the feeder adder tree's sum of an activation row. -/
def rowSum (p : Pair) (afmt : Nat) (row : List Byte) : Int :=
  (upto (kBlock p)).foldl (fun t k => t + aInt afmt row k) 0

/-- The value of element k of a floating-point row of format `fmt`. -/
def elemF (fmt : Nat) (row : List Byte) (k : Nat) : FVal :=
  match fpFmtOf fmt with
  | none => .nan
  | some f => if fmt = 4 ∨ fmt = 5 then fpDecode f (byteAt row k).toNat else fpDecode f (leAt row (2 * k) 2)

/-- R63, R64: the contribution of an FP8 instruction to row r, column c: the exact sum times the exact scale product,
rounded once; with sub-blocks of 32, the two scaled half-sums are added exactly first. Every product of a ZERO pad row is +0
(R234). -/
def fp8Contrib (f : MxFlight) (r c : Nat) : Num FVal := do
  let row := f.a.getD r []
  let as := (upto 64).map fun k => elemF f.afmt row k
  let ws := (upto 64).map fun k => elemF f.wfmt (f.b.getD k []) c
  let zero := f.aZero.getD r false
  let ps := if zero then ws.map fun _ => fZero else fProds as ws
  let sa (h : Nat) := ue5m3 (byteAt f.rowSc (64 * h + r)).toNat
  let sw (h : Nat) := ue5m3 (byteAt f.colSc (64 * h + c)).toNat
  let x := if f.sub32 then
      fAddX (fMulX (fSumX (ps.take 32)) (fMulX (sa 0) (sw 0))) (fMulX (fSumX (ps.drop 32)) (fMulX (sa 1) (sw 1)))
    else fMulX (fSumX ps) (fMulX (sa 0) (sw 0))
  step32 (if zero then [] else as ++ ws) x

/-- R66: the contribution of a 16-bit instruction: products rounded one by one, then the fixed tree. Every product of a ZERO pad
row is +0 (R234). -/
def fp16Contrib (f : MxFlight) (r c : Nat) : Num FVal := do
  let row := f.a.getD r []
  let ps ← (upto 64).mapM fun k =>
    if f.aZero.getD r false then pure fZero else mul32 (elemF f.afmt row k) (elemF f.wfmt (f.b.getD k []) c)
  treeSum 6 ps

/-- The contribution of a floating-point instruction to (r, c). -/
def fpContrib (p : Pair) (f : MxFlight) (r c : Nat) : Num FVal :=
  if p = .f8 then fp8Contrib f r c else fp16Contrib f r c

/-- The reset marks of a plane row. -/
def row0 : Nat → PlaneRow := fun _ => {}

/-- A plane element. -/
def accGet (c : Core) (plane r col : Nat) : Word := mget word0 c.acc (4096 * plane + r * 64 + col)

/-- Writing a plane element. -/
def accPut (c : Core) (plane r col : Nat) (v : Word) : Core :=
  { c with acc := mput word0 (4096 * plane + r * 64 + col) v c.acc }

/-- A residue shadow. -/
def shGet (c : Core) (plane r col : Nat) : Nat := mget nat0 c.shadow (4096 * plane + r * 64 + col)

/-- Writing a residue shadow. -/
def shPut (c : Core) (plane r col v : Nat) : Core :=
  { c with shadow := mput nat0 (4096 * plane + r * 64 + col) v c.shadow }

/-- The marks of a plane row. -/
def rowGet (c : Core) (plane r : Nat) : PlaneRow := mget row0 c.rows (plane * 64 + r)

/-- Writing the marks of a plane row. -/
def rowPut (c : Core) (plane r : Nat) (v : PlaneRow) : Core := { c with rows := mput row0 (plane * 64 + r) v c.rows }

/-- A row sum. -/
def rsGet (c : Core) (plane r : Nat) : Word := mget word0 c.rs (plane * 64 + r)

/-- Writing a row sum. -/
def rsPut (c : Core) (plane r : Nat) (v : Word) : Core := { c with rs := mput word0 (plane * 64 + r) v c.rs }

/-- R133: a start replaces the whole row: elements, row sum, shadows and marks, with the extent of R212. -/
def rowClear (c : Core) (plane r : Nat) (v : PlaneRow) : Core :=
  let k := 4096 * plane + r * 64
  rowPut (rsPut { c with acc := mclear k (k + 64) c.acc, shadow := mclear k (k + 64) c.shadow } plane r 0) plane r v

/-- The column errors of an injected array fault (assumption 5): column and the amount its exact sum is off by.
Assumption log: 5 (DESIGN CHOICE). -/
def faultAt (flt : List (Nat × Int)) (c : Nat) : Int := ((flt.filter fun x => x.1 == c).map fun x => x.2).sum

/-- One element of an integer row that lands: the residue check of R137, then the replaced or added value and shadow. -/
def intElem (s : State) (n : Nat) (f : MxFlight) (p : Pair) (r pr : Nat) (col : Nat) : State :=
  let row := f.a.getD r []
  let sum := intSum p f.afmt row f.b col + faultAt f.flt col
  let rho := residue p f.afmt row f.b col
  let c := coreOf s n
  let (v, fl) := numRun (if f.start then pure sum else satAdd (accGet c f.plane pr col).toInt sum)
  let mk := rowGet c f.plane pr
  let c := accPut c f.plane pr col (BitVec.ofInt 32 v)
  let c := shPut c f.plane pr col ((if f.start then rho else shGet c f.plane pr col + rho) % 7)
  let bad := mod7 sum != rho
  let c := rowPut c f.plane pr { mk with sat := mk.sat || 0 < fl.accSat, pois := mk.pois || bad }
  let s := applyFl (setCore s n c) n fl
  if bad then resMismatch s n false f.plane pr col else s

/-- One element of a floating-point row that lands: R63 or R66, then the plane add of a continuing chain. -/
def fpElem (s : State) (n : Nat) (f : MxFlight) (p : Pair) (r pr : Nat) (col : Nat) : State :=
  let c := coreOf s n
  let (v, fl) := numRun do
    let x ← fpContrib p f r col
    if f.start then return x else add32 (dec32 (accGet c f.plane pr col)) x
  applyFl (setCore s n (accPut c f.plane pr col (fw v))) n fl

/-- R133, R134, R140, R212: row r of an instruction lands in its plane row. A row sum that saturates marks the row as a
saturated element does.
Assumption log: 79 (DESIGN CHOICE). -/
def rowLand (s : State) (n : Nat) (f : MxFlight) (r : Nat) : State :=
  match pairOf f.wfmt f.afmt with
  | none => s
  | some p =>
    let pr := if pair16 p then 16 * f.rq + r else r
    let live := decide (r < f.nr) && 0 < f.nc
    let pois := (live && f.aPois.getD r false) || ((f.start || live) && f.bPois)
    let s := if f.start then
        updCore s n fun c => rowClear c f.plane pr ⟨pairInt p, false, pois, decide (r < f.nr), f.nc⟩
      else if live then
        updCore s n fun c => rowPut c f.plane pr { rowGet c f.plane pr with pois := (rowGet c f.plane pr).pois || pois }
      else s
    if !live then s
    else if pairInt p then
      let c := coreOf s n
      let sum := rowSum p f.afmt (f.a.getD r [])
      let (v, fl) := numRun (if f.start then pure sum else satAdd (rsGet c f.plane pr).toInt sum)
      let c := rsPut c f.plane pr (BitVec.ofInt 32 v)
      let mk := rowGet c f.plane pr
      let c := rowPut c f.plane pr { mk with sat := mk.sat || 0 < fl.accSat }
      let s := applyFl (setCore s n c) n fl
      foldS (fun s col => intElem s n f p r pr col) (upto f.nc) s
    else foldS (fun s col => fpElem s n f p r pr col) (upto f.nc) s

/-- R134: the row of an instruction that lands at the end of beat `i` after its issue, if any. -/
def rowAt (p : Pair) (i : Nat) : Option Nat :=
  if i < 71 then none
  else if pair16 p then (if (i - 71) % 4 = 0 ∧ (i - 71) / 4 < 16 then some ((i - 71) / 4) else none)
  else if i - 71 < 64 then some (i - 71) else none

end Sys2Proof.Machine
end

