-- ==== Sys2Proof/Machine/Bars.lean ====
section
/-! DEFINITION. The running bar of a cluster: the fields of its core slots, which of them act in the current beat, in which
order, and what blocks the beat (01 section 5, 03 sections 2 to 4 and 6). -/

namespace Sys2Proof.Machine
open Sys2Proof

/-! ### The core slot (Table 3.3) -/

/-- The MX field of a core slot. -/
def slotMx (w : Nat) : Nat := bitsN w 96 32
/-- The VX field of a core slot. -/
def slotVx (w : Nat) : Nat := bitsN w 48 48
/-- The MV field of a core slot. -/
def slotMv (w : Nat) : Nat := bitsN w 16 32
/-- The CTL field of a core slot. -/
def slotCtl (w : Nat) : Nat := bitsN w 0 16
/-- Table 3.6: the operation of the control field of a core slot. -/
def slotOp (w : Nat) : Nat := bitsN w 11 4

/-- R84: the core slot that core n acts on in its cluster's running bar, and whether the bar holds it: the bar's own, or the
one that the core still holds. -/
def slotNow (s : State) (n : Nat) : Option (Nat × Bool) :=
  match (clu s (n / 4)).bar with
  | none => none
  | some g => match g.slots.find? fun x => mapPos s (n / 4) x.1 == some n with
    | some x => some (x.2, true)
    | none => if (coreOf s n).hold then some ((coreOf s n).word, false) else none

/-- R87: whether the GUARD of core n holds at the current step. -/
def guardOk (s : State) (n : Nat) : Bool :=
  match (coreOf s n).guard, (clu s (n / 4)).nest with
  | some g, some ns =>
    let i := ns.idx.getD g.lvl 0
    let b := ns.bound.getD g.lvl 0
    if g.mode = 0 then i == g.v else if g.mode = 1 then i != g.v else if g.mode = 2 then i + 1 == b else i + 1 != b
  | _, _ => true

/-! ### What acts in a beat (R83, R84, R88)

Actions are keyed by position * 8 + field. The fields of a core slot are 0 (a control operation of beat 0: SLOT_WAIT,
BOUND_LD, GUARD), 1 MX, 2 VX, 3 MV, 4 EVENT and 5 SLOT_RELEASE; position 4 is the cluster slot, with 0 its operation and 1
the step of the nest. -/

/-- The key of field f of core n. -/
def actKey (n f : Nat) : Nat := n % 4 * 8 + f

/-- The key of the cluster slot's operation. -/
def kslotKey : Nat := 32

/-- The key of the nest's step. -/
def stepKey : Nat := 33

/-- R160: whether core n takes part in the program. -/
def coreIn (s : State) (n : Nat) : Bool := rdB s (rNcCtl n) 0

/-- Table 3.4, R84, R86: the fields of core n that act in the current beat of its cluster's bar. -/
def fieldsDue (s : State) (n : Nat) : List Nat :=
  match slotNow s n with
  | none => []
  | some (w, here) =>
    let first := here && (clu s (n / 4)).pos == 0
    let op := slotOp w
    if !coreIn s n then []
    else
      (if first && (op == 1 || op == 3 || op == 4) then [0] else []) ++
      (if first && slotMx w != 0 && guardOk s n then [1] else []) ++
      (if slotVx w != 0 && guardOk s n then [2] else []) ++
      (if slotMv w != 0 && guardOk s n then [3] else []) ++
      (if first && op == 5 then [4] else [])

/-- R83, R88: whether a field waits for the earlier ones of its core in the same beat: MX, VX and MV for the wait of the control
field, EVENT for all of them. -/
def fieldBehind (s : State) (n f : Nat) : Bool :=
  let d := (fieldsDue s n).filter fun x => !(clu s (n / 4)).acted.contains (actKey n x)
  if f = 0 then false else if f = 4 then d.any (· < 4) else d.contains 0

/-- Whether cluster k runs a beat of a bar: it has a bar with beats left and waits for no tie-point. -/
def inBeat (s : State) (k : Nat) : Bool :=
  let c := clu s k
  !c.waiting && !c.parked && match c.bar with
    | some g => c.pos ≤ g.hdr.rep
    | none => false

/-- R83 to R85, R88: whether field f of a core may act now. In a cluster that runs no program the command is the action itself
(assumption 7); in one that does, the field is due in the current beat, its core has not done it yet, its earlier fields have
acted, and VX and MV stand in the beat index that the slot has reached.
Assumption log: 7 (DESIGN CHOICE). -/
def fieldTurn (s : State) (a : At) (f : Nat) : Bool :=
  let c := clu s (a.core / 4)
  !c.running || (inBeat s (a.core / 4) && (fieldsDue s a.core).contains f && !c.acted.contains (actKey a.core f) &&
    !fieldBehind s a.core f && a.j == (if f = 2 ∨ f = 3 then c.beat - (coreOf s a.core).wordAt else 0))

/-- Table 3.4: whether the cluster slot of cluster k may act now: in beat 0 of a bar that holds it, once. -/
def kslotTurn (s : State) (k : Nat) : Bool :=
  let c := clu s k
  !c.running || (inBeat s k && c.pos == 0 && !c.acted.contains kslotKey && match c.bar with
    | some g => g.kslot.any (· != 0)
    | none => false)

/-- An action of a cluster's bar has acted. -/
def acted (s : State) (k key : Nat) : State :=
  if (clu s k).running then updClu s k fun c => { c with acted := c.acted ++ [key] } else s

/-! ### Blockers of a beat (R37, R39) -/

/-- What blocks a beat: the stall set, and in it the field (0 the control field, or a cluster slot that waits for transfers, 1 MX, or
a QPOP, 2 MV), by its cause. -/
def blocker (set cause : Nat) : Nat := set * 3 + (if cause = 4 ∨ cause = 8 then 1 else if cause = 1 then 2 else 0)

/-- Whether another action than b blocks the beat of cluster k.
Assumption log: 9 (DESIGN CHOICE). -/
def heldBy (s : State) (k b : Nat) : Bool := (clu s k).held.any (· != b)

/-- Whether anything blocks the beat of cluster k. -/
def heldAny (s : State) (k : Nat) : Bool := !(clu s k).held.isEmpty

/-- R37: action b of cluster k is able to act; the beat no longer blocks on it.
Assumption log: 9 (DESIGN CHOICE). -/
def through (s : State) (k b : Nat) : State :=
  if heldAny s k then updClu s k fun c => { c with held := c.held.filter (· != b) } else s

/-! ### Whether a bar is done (R41, R81, R89, R102, R103) -/

/-- R83, R84: the actions of cluster k's current beat that have not acted yet. -/
def beatDue (s : State) (k : Nat) : List Nat :=
  let cores := (upto 4).flatMap fun p => (fieldsDue s (4 * k + p)).map fun f => actKey (4 * k + p) f
  let own := match (clu s k).bar with
    | some g => if (clu s k).pos = 0 ∧ g.kslot.any (· != 0) then [kslotKey] else []
    | none => []
  (cores ++ own).filter fun x => !(clu s k).acted.contains x

/-- R37, R81: whether the beat of cluster k advances: every laid-down action of it has acted and nothing blocks it. An island
that runs no program has no bar to hold it. -/
def beatGo (s : State) (k : Nat) : Bool :=
  !(clu s k).running || (inBeat s k && !heldAny s k && (beatDue s k).isEmpty)

/-- R81: whether the beats of cluster k's bar have all passed. -/
def beatsDone (s : State) (k : Nat) : Bool :=
  match (clu s k).bar with
  | some g => g.hdr.rep < (clu s k).pos
  | none => true

/-- R86: the SLOT_RELEASE operations that cluster k's bar still owes. -/
def releasesDue (s : State) (k : Nat) : Bool :=
  (upto 4).any fun p => match slotNow s (4 * k + p) with
    | some (w, true) => slotOp w == 2 && coreIn s (4 * k + p) && !(clu s k).acted.contains (actKey (4 * k + p) 5)
    | _ => false

/-- R81, R89: whether cluster k's bar is complete: its beats have passed and each of its operations has acted. -/
def barDone (s : State) (k : Nat) : Bool := beatsDone s k && !releasesDue s k

/-- R102: whether the tie-point of cluster k's bar fires at its current step. -/
def tieFires (s : State) (k : Nat) (g : BarSeg) : Bool :=
  g.hdr.tie && bitN g.hdr.tpart k &&
  match (clu s k).nest with
  | none => true
  | some ns =>
    !ns.inBody || !(ns.desc.bodyFirst ≤ g.bar && g.bar ≤ ns.desc.bodyLast) ||
      (upto g.hdr.tieLvl).all fun i => ns.idx.getD i 0 + 1 == ns.bound.getD i 0

/-- R41: whether cluster k's bar has a firing tie-point whose arrival has not been sent. -/
def tieDue (s : State) (k : Nat) : Bool :=
  match (clu s k).bar with
  | some g => !(clu s k).tied && tieFires s k g
  | none => false

/-- R98: whether cluster k's bar ends a pass of the active nest's body. -/
def stepDue (s : State) (k : Nat) : Bool :=
  match (clu s k).bar, (clu s k).nest with
  | some g, some ns => ns.inBody && g.bar == ns.desc.bodyLast && !(clu s k).acted.contains stepKey
  | _, _ => false

/-- Table 3.9: whether everything the island has in hand is complete. -/
def quiet (s : State) (k : Nat) : Bool :=
  (clu s k).xfers.isEmpty && (clu s k).ops.isEmpty &&
  ((upto 4).all fun p => (coreOf s (4 * k + p)).mx.isEmpty && (coreOf s (4 * k + p)).pend.isEmpty) &&
  !(s.mem.slots.any fun x => x.2.tag == .filling &&
    ((upto 4).any (fun p => x.2.owner == .core (4 * k + p)) || x.2.owner == .cluster k)) &&
  !(s.mem.holds.any fun h => h.owner == .cluster k)

end Sys2Proof.Machine
end

