-- ==== Sys2Proof/Machine/Beat.lean ====
section
/-! DEFINITION. One advancing beat of a cluster (R37, R38): operand reads of the array, the results that land at its end,
the plane rows that arrive, bank conflicts, and the beat counters; blocked beats; and the token bucket of R471. -/

namespace Sys2Proof.Machine
open Sys2Proof

/-- The issue ceiling in force (Table 17.1; R476: an emergency forces 77). -/
def issueCeiling (s : State) : Nat :=
  if rdF s rPwrEmerg 3 0 ≠ 0 then 77
  else if rdF s rPwrCtl 5 4 = 2 then 77
  else if rdF s rPwrCtl 5 4 = 3 then 0
  else 256

/-- R471: the loop rate; 64 while the PWR block is disabled. -/
def loopRate (s : State) : Nat := if rdB s rPwrCtl 0 then rdF s rPwrR 8 0 else 64

/-- R471: the refill rate of cluster k. -/
def rEff (s : State) (k : Nat) : Nat :=
  let r := min (issueCeiling s) (loopRate s)
  match (clu s k).droop with
  | none => r
  | some d => min r d

/-- R471: one island cycle adds R_eff to the bucket, which saturates at its depth; and a beat of the tie-point window
passes (R167). -/
def refill (s : State) (k : Nat) : State :=
  let r := rEff s k
  updClu s k fun c => { c with bucket := min 32768 (c.bucket + r), winLeft := c.winLeft - 1 }

/-- Default mask registers: zero; M0 reads as all ones in `maskGet`. -/
def mask0 : Nat → BitVec 64 := fun _ => 0

/-- R146: a mask register; M0 reads as all ones. -/
def maskGet (c : Core) (m : Nat) : BitVec 64 := if m = 0 then BitVec.allOnes 64 else mget mask0 c.masks m

/-- Writing a mask register; M0 is never written. -/
def maskPut (c : Core) (m : Nat) (v : BitVec 64) : Core :=
  if m = 0 then c else { c with masks := mput mask0 m v c.masks }

/-- Writing vector lanes with their poison bits. -/
def lanesPut (c : Core) (ws : List (Nat × Word × Bool)) : Core :=
  { c with vreg := mputs word0 (ws.map fun x => (x.1, x.2.1)) c.vreg,
           vpois := mputs flag0 (ws.map fun x => (x.1, x.2.2)) c.vpois }

/-- R144: whether chunk 0 of a drain record holds a reserved PATH, OFMT, MODE or ACT value. -/
def drecBad (bs : List Byte) : Bool :=
  let f := leAt bs 0 4
  bitsN f 0 2 == 3 || bitsN f 4 4 == 0 || 9 < bitsN f 4 4 || 1 < bitsN f 8 2 || 3 < bitsN f 11 3

/-- R141, R144: a chunk of the drain record takes effect. -/
def drecLand (s : State) (n chunk : Nat) (bs : List Byte) : State :=
  let bad := chunk == 0 && drecBad bs
  let s := updCore s n fun c =>
    { c with drec := mputRun byte0 (256 * chunk) bs c.drec,
             drecOk := if chunk = 0 then !bad else c.drecOk }
  if bad then wrB s (rNcVecStatus n) 3 true else s

/-- R170, R174, R179: SCOMMIT takes effect on a slot of memory `m` for core n. -/
def scommit (s : State) (n slot : Nat) : State :=
  let k := n * 512 + slot
  let s := tagSee s k
  let v := slotGet s k
  match v.tag with
  | .empty => slotPut s k ⟨.full, .loc, .core n⟩
  | .filling => if v.owner = .core n then slotTag s k .full else tagBad s (n / 4) 1
  | .full => tagBad s (n / 4) 1
  | .invalid => s

/-- One result lands. Memory writes land in the passes of `landMem`.
Assumption log: 7 (DESIGN CHOICE). -/
def land (s : State) (n : Nat) (p : PendW) : State :=
  match p with
  | .lanes ws => updCore s n fun c => lanesPut c ws
  | .mask m v => updCore s n fun c => maskPut c m v
  | .maskOr m v => updCore s n fun c => maskPut c m (maskGet c m ||| v)
  | .mem _ _ => s
  | .nib _ _ => s
  | .pb ws => updCore s n fun c => { c with pb := mputs word0 ws c.pb }
  | .tab ws => updCore s n fun c => { c with tabs := mputs word0 ws c.tabs }
  | .drec ch bs => drecLand s n ch bs
  | .gen g => updCore s n fun c => { c with gen := g }
  | .commit slot => scommit s n slot

/-- Nibble writes as byte writes: a nibble that no write names keeps its value. -/
def nibBytes (s : State) (ws : List (Nat × Bool × Nat × Bool)) : List (Nat × Byte × Bool) :=
  ((ws.map fun x => x.1).eraseDups).map fun a =>
    let here := ws.filter fun x => x.1 == a
    let old := (ramGet s a 1).headD 0
    let b := here.foldl (fun (b : Nat) x =>
      if x.2.1 then b % 16 + x.2.2.1 % 16 * 16 else b / 16 * 16 + x.2.2.1 % 16) old.toNat
    (a, BitVec.ofNat 8 b, here.any fun x => x.2.2.2)

/-- R163, R164, R166: one bar-driven write of core n. The words it uses count for bank conflicts, those it covers in part also
in the next beat, when the merged word is written; a corrected old word blocks the island for a beat. -/
def barWrite (s : State) (n : Nat) (ws : List (Nat × Byte × Bool)) : State :=
  let all := wordsOf ws
  let part := all.filter fun w => !wordFull w ws
  let ce := part.any (wordCe s)
  let s := updCore s n fun c => { c with used := c.used ++ all, late := c.late ++ part }
  eccReplay (sramWrite (act s (n / 4) 4 (all.length + part.length)) ws) n ce

/-- R163: the memory writes of one rank that land in a beat, in order of issue.
Assumption log: 7 (DESIGN CHOICE). -/
def landMem (s : State) (n : Nat) (ps : List Pend) (rank : Nat) : State :=
  foldS (fun s p => match p.w with
    | .mem r ws => if r = rank then barWrite s n ws else s
    | .nib r ws => if r = rank then barWrite s n (nibBytes s ws) else s
    | _ => s) ps s

/-- Everything of core n that is due at the end of beat t: the memory writes of DRAIN, VX and MV in that order (R163), then
the register results in order of issue (R148), commits last (R174).
Assumption log: 7 (DESIGN CHOICE). -/
def landDue (s : State) (n t : Nat) : State :=
  let c := coreOf s n
  let now := c.pend.filter fun p => p.due ≤ t
  if now.isEmpty then s
  else
    let s := setCore s n { c with pend := c.pend.filter fun p => t < p.due }
    let s := landMem (landMem (landMem s n now 0) n now 1) n now 2
    foldS (fun s p => land s n p.w) now s

/-- The array's operand reads of core n in beat t. -/
def mxBeat (s : State) (n t : Nat) : State :=
  let c := coreOf s n
  if c.mx.isEmpty then s
  else
    let (fs, s) := c.mx.foldl (fun acc f =>
      let (f', s) := mxRead acc.2 n f (t - f.issue)
      (acc.1 ++ [f'], s)) (([] : List MxFlight), s)
    updCore s n fun c => { c with mx := fs }

/-- The plane rows of core n that are written at the end of beat t, in the order in which their instructions issued (R67); an
instruction leaves the array with its last. -/
def mxLand (s : State) (n t : Nat) : State :=
  let fs := (coreOf s n).mx
  if fs.isEmpty then s
  else
    let s := foldS (fun s f => match pairOf f.wfmt f.afmt with
      | none => s
      | some p => match rowAt p (t - f.issue) with
        | none => s
        | some r => rowLand s n f r) fs s
    updCore s n fun c => { c with mx := c.mx.filter fun f => t - f.issue < 134 }

/-- Core n runs one beat.
Assumption log: 7 (DESIGN CHOICE). -/
def coreBeat (s : State) (t n : Nat) : State := mxLand (landDue (mxBeat s n t) n t) n t

/-! ### Blocked beats (R37, R39, R162, R196) -/

/-- The stall sets of a cause that the whole cluster waits for: every core in the program, and the cluster slot. -/
def allSets (s : State) (k : Nat) : List Nat := (progPos s k).take (classCores (rd s rEngProgClass)) ++ [4]

/-- One cause of a blocked beat; TIE_WAIT (2) and FETCH (7) stand in every core's set and in set 4. -/
def causeHit (s : State) (k : Nat) (x : Nat × Nat) : State :=
  if x.2 = 2 ∨ x.2 = 7 then foldS (fun s p => stall s k p x.2) (allSets s k) s else stall s k x.1 x.2

/-- A blocked beat of cluster k with every cause that holds (R39). -/
def blockedBeat (s : State) (k : Nat) (cs : List (Nat × Nat)) : State :=
  refill (updClu (foldS (fun s x => causeHit s k x) cs (blockedCnt s k)) k fun c => { c with blocked := true, hit := [] }) k

/-- R37, R39, R196, R197: an action of cluster k's current beat cannot act, with one cause: the beat is blocked, and in a
cluster that runs a program it stays so until the action acts. Another action that cannot act in the same beat adds its
cause to that beat; the same action that still cannot act is a blocked beat of its own.
Assumption log: 9 (DESIGN CHOICE). -/
def blockBeat (s : State) (k set cause : Nat) : State :=
  let b := blocker set cause
  let c := clu s k
  let held := if c.running then c.held.filter (· != b) ++ [b] else c.held
  if c.blocked && !c.hit.isEmpty && !c.hit.contains b then
    updClu (stall s k set cause) k fun c => { c with held := held, hit := c.hit ++ [b] }
  else
    refill (updClu (stall (blockedCnt s k) k set cause) k fun c =>
      { c with blocked := true, held := held, hit := if c.running then [b] else [] }) k

/-- R161: the bank of a word index. -/
def bankOf (w : Nat) : Nat := (w % 32).xor (w / 32 % 32)

/-- R162: the extra beats that a set of accesses of one core needs: the most different words of one bank, less 1. -/
def extraBeats (ws : List Nat) : Nat :=
  let ds := ws.eraseDups
  (upto 32).foldl (fun m b => max m ((ds.filter fun w => bankOf w == b).length - 1)) 0

/-- R162: extra beats, the last `n` of them: each is recorded as DATA_LATE in the set of every core that still waits. -/
def conflictBeats (s : State) (k : Nat) (need : List (Nat × Nat)) : Nat → State
  | 0 => s
  | n + 1 =>
    let s := blockedBeat s k ((need.filter fun x => n < x.2).map fun x => (x.1, 0))
    conflictBeats (incr s (rCluConflictCnt k)) k need n

/-- R162: the bank conflicts of the bar-driven accesses of cluster k's beat; the write halves of its partial writes count in
the next beat. -/
def bankConflicts (s : State) (k : Nat) : State :=
  let need := (upto 4).map fun p => (p, extraBeats (coreOf s (4 * k + p)).used)
  let s := conflictBeats s k need (need.foldl (fun m x => max m x.2) 0)
  foldS (fun s p =>
    let c := coreOf s (4 * k + p)
    if c.used.isEmpty && c.late.isEmpty then s else setCore s (4 * k + p) { c with used := c.late, late := [] }) (upto 4) s

/-! ### Advancing beats -/

/-- Every core of cluster k runs one beat, and its bank conflicts are counted. -/
def coresBeat (s : State) (k : Nat) : State :=
  bankConflicts (foldS (fun s p => coreBeat s (clu s k).beat (4 * k + p)) (upto 4) s) k

/-- One advancing beat of cluster k (R37, R38, R81, R197): the actions of VX and MV are due again in the next.
Assumption log: 7 (DESIGN CHOICE). -/
def tick (s : State) (k : Nat) : State :=
  let s := coresBeat s k
  let s := updClu s k fun c =>
    { c with beat := c.beat + 1, blocked := false, hit := [], pos := if c.running then c.pos + 1 else c.pos,
             acted := c.acted.filter fun x => x % 8 != 2 && x % 8 != 3 }
  let s := if (clu s k).running then incr s (rCluAdvCnt k) else s
  refill s k

/-- `dt` advancing beats of cluster k: as many of them as its bar lets pass (R37, R81).
Assumption log: 7 (DESIGN CHOICE), 72 (DEDUCED). -/
def adv (s : State) (k dt : Nat) : State := iterS (fun s => if beatGo s k then tick s k else s) dt s

/-- R103: a beat in which cluster k waits for the conditions of Table 3.9: a blocked beat of cause TIE_WAIT in which its
pipelines go on, since the rule waits for them to drain.
Assumption log: 78 (DESIGN CHOICE). -/
def quiesceBeat (s : State) (k : Nat) : State :=
  blockedBeat (updClu (coresBeat s k) k fun c => { c with beat := c.beat + 1 }) k [(4, 2)]

/-- A result of core n due `l - 1` beats after the current one (R148).
Assumption log: 7 (DESIGN CHOICE). -/
def pend (s : State) (n l : Nat) (w : PendW) : State :=
  let t := (clu s (n / 4)).beat
  updCore s n fun c => { c with pend := c.pend ++ [⟨t + l - 1, t, w⟩] }

end Sys2Proof.Machine
end

