-- ==== Sys2Proof/Machine/Nest.lean ====
section
/-! DEFINITION. Nests: descriptors, edge and window entries, bound resolution, stepping, stream addresses and valid counts
(03 section 5, 06, 07 section 2). -/

namespace Sys2Proof.Machine
open Sys2Proof

/-- Table 1.1: the base of cluster k's bar store bank. -/
def bankBase (k : Nat) : Nat := 0x2400000000 + 0x100000 * k

/-- Table 3.1: the descriptor of nest n. -/
def descBase (k n : Nat) : Nat := bankBase k + 0xF0000 + n * 0xC0

/-- R97: base register i of record a, a global address. -/
def baseReg (s : State) (k a i : Nat) : Nat := ramNat s (bankBase k + 0xFC000 + a * 0x80 + 8 * i) 8

/-- Table 3.7: a stream of a descriptor. -/
def strmOf (w0 w1 : Nat) : Strm :=
  { off := sextN 32 w0, inc := sextN 16 (w1 / 2 ^ 16), en := bitN w1 15, base := w1 % 16 }

/-- Table 3.8: a level record, from its five words. -/
def lvlOf (ws : List Nat) : Lvl :=
  let w := ws.getD 0 0
  { outer := bitN w 27, dim := bitsN w 24 3, bound := bitsN w 0 24,
    str := [sextN 32 (ws.getD 1 0), sextN 32 (ws.getD 2 0), sextN 32 (ws.getD 3 0), sextN 32 (ws.getD 4 0)] }

/-- R94: a descriptor of 48 words. Its level count is cut to the six records that exist. -/
def descOf (ws : List Nat) : NestDesc :=
  let w (i : Nat) := ws.getD i 0
  let n := min 6 (w 0 % 8)
  { levels := n, bodyFirst := w 1 % 2 ^ 20, bodyLast := w 2 % 2 ^ 20,
    src := (upto n).map fun i => bitsN (w 3) (4 * i) 4,
    strm := (upto 4).map fun i => strmOf (w (4 + 2 * i)) (w (5 + 2 * i)),
    lvl := (upto n).map fun i => lvlOf (slice ws (12 + 5 * i) 5) }

/-- The descriptor of nest n in cluster k's bank. -/
def descAt (s : State) (k n : Nat) : NestDesc := descOf (leWords (ramGet s (descBase k n) 0xC0))

/-! ### Edge entries (R210) -/

/-- A word of the edge entry of nest n. -/
def edgeW (s : State) (k n w : Nat) : Word := rd s (rCluEdge k n w)

/-- The mask field of an edge entry at bit `lo` of word 0: ROWDIM 0, COLDIM 4, BEATDIM 8, LANEDIM 12, XROWDIM 16. -/
def edgeDim (s : State) (k n lo : Nat) : Nat := fld (edgeW s k n 0) (lo + 2) lo

/-- PAD. -/
def edgePad (s : State) (k n : Nat) : Word := edgeW s k n 1

/-- SRC of dimension d. -/
def edgeSrc (s : State) (k n d : Nat) : Nat := if d = 0 then 0 else fld (edgeW s k n (2 * d)) 31 28

/-- UNIT of dimension d; UNIT[0] = 0 (R203). -/
def edgeUnit (s : State) (k n d : Nat) : Nat := if d = 0 then 0 else fld (edgeW s k n (2 * d + 1)) 15 0

/-- R203: the extent of dimension d as latched at entry. -/
def edgeExt (s : State) (k n d : Nat) : Nat :=
  let c := edgeSrc s k n d
  if c = 0xF then fld (edgeW s k n (2 * d)) 23 0
  else if c = 0 then 0 else rdF s (rCluShapeArg k (c - 1)) 23 0

/-! ### Bounds (R203, R204) -/

/-- A level of a descriptor. -/
def lvlAt (d : NestDesc) (i : Nat) : Lvl := d.lvl.getD i ⟨false, 0, 0, []⟩

/-- R203: step[i]. -/
def stepOf (s : State) (k n : Nat) (d : NestDesc) (i : Nat) : Nat :=
  let dim := (lvlAt d i).dim
  (upto i).foldl (fun a i' => if (lvlAt d i').dim = dim then a * (lvlAt d i').bound % 2 ^ 64 else a) (edgeUnit s k n dim)

/-- R203: the bound that level i asks for, before the cut; `dd` is the value of the last BOUND_LD. -/
def askBound (s : State) (k n : Nat) (d : NestDesc) (dd i : Nat) : Nat :=
  let b := (lvlAt d i).bound
  let c := d.src.getD i 0
  let st := stepOf s k n d i
  if c = 0 then b
  else if c = 0xF then dd
  else if st = 0 then b
  else cdiv (rdF s (rCluShapeArg k (c - 1)) 23 0) st

/-- R203, R204: the resolved bounds. -/
def boundsOf (s : State) (k n : Nat) (d : NestDesc) (dd : Nat) : List Nat :=
  (upto d.levels).map fun i => min (askBound s k n d dd i) (lvlAt d i).bound

/-- R204: the levels that are cut. -/
def cutsOf (s : State) (k n : Nat) (d : NestDesc) (dd : Nat) : List Nat :=
  (upto d.levels).filter fun i => (lvlAt d i).bound < askBound s k n d dd i

/-- A nest at its entry: resolved bounds, latched extents, every index 0. -/
def enterNest (s : State) (k n : Nat) (dd : Nat) : NestSt :=
  let d := descAt s k n
  let b := boundsOf s k n d dd
  { id := n, desc := d, bound := b, ext := (upto 8).map (edgeExt s k n), idx := List.replicate d.levels 0, pass := 0,
    inBody := !b.contains 0 }

/-- The number of steps of a nest. -/
def steps (ns : NestSt) : Nat := ns.bound.foldl (· * ·) 1

/-! ### Stepping (R98) -/

/-- R98: the levels in the order their indices advance: in each pair the inner level, then the outer one. -/
def lvlOrder (d : NestDesc) : List Nat :=
  (upto 3).flatMap fun p =>
    let l := [2 * p, 2 * p + 1].filter (· < d.levels)
    (l.filter fun i => !(lvlAt d i).outer) ++ (l.filter fun i => (lvlAt d i).outer)

/-- The index vector after t passes, as R98 reaches it: a mixed-radix count in the order of the levels. -/
def idxAfter (ns : NestSt) (t : Nat) : List Nat :=
  let r := (lvlOrder ns.desc).foldl (fun (acc : List Nat × Nat) i =>
    let b := ns.bound.getD i 1
    (acc.1.set i (acc.2 % b), acc.2 / b)) (List.replicate ns.desc.levels 0, t)
  r.1

/-- R98 over a list of levels still to advance: the new indices, and whether the body runs again. -/
def stepIdx (bound : List Nat) : List Nat → List Nat → List Nat × Bool
  | idx, [] => (idx, false)
  | idx, i :: is =>
    let v := idx.getD i 0 + 1
    if v < bound.getD i 0 then (idx.set i v, true) else stepIdx bound (idx.set i 0) is

/-- R98: one pass through the body ends. At DONE every index is 0 and the nest stays loaded. -/
def stepNest (ns : NestSt) : NestSt :=
  let (idx, again) := stepIdx ns.bound ns.idx (lvlOrder ns.desc)
  { ns with idx := idx, pass := if again then ns.pass + 1 else 0, inBody := again }

/-! ### Stream addresses (R85, R99) -/

/-- R99: the address of stream st of a nest at an index vector, through base record `rec`. -/
def strmBase (s : State) (k rec : Nat) (ns : NestSt) (idx : List Nat) (st : Nat) : Int :=
  let x := ns.desc.strm.getD st ⟨0, 0, false, 0⟩
  let sum := (upto ns.desc.levels).foldl (fun (a : Int) i =>
    a + (idx.getD i 0 : Int) * (lvlAt ns.desc i).str.getD st 0) 0
  (baseReg s k rec x.base : Int) + x.off + sum

/-- BEAT_INC of a stream. -/
def strmInc (ns : NestSt) (st : Nat) : Int := (ns.desc.strm.getD st ⟨0, 0, false, 0⟩).inc

/-- The stream of the loaded nest that a field names, if there is one and it is enabled (R96, R99).
Assumption log: 59 (DESIGN CHOICE). -/
def strmOk (s : State) (k st : Nat) : Except Fault NestSt :=
  match (clu s k).nest with
  | none => .error .noNest
  | some ns => if (ns.desc.strm.getD st ⟨0, 0, false, 0⟩).en then .ok ns else .error .streamOff

/-- The local address of a global one, if it names this chip (R327). -/
def localOf (s : State) (a : Nat) : Option Nat := if a / 2 ^ 40 = ownChip s then some (a % 2 ^ 40) else none

/-- The base record a core reads: that of its logical position (R97). -/
def recOf (s : State) (n : Nat) : Nat := (logPos s n).getD (n % 4)

/-- R85: the global address of stream st for core n in beat j, modulo 2^64.
Assumption log: 59 (DESIGN CHOICE). -/
def coreGlob (s : State) (n st j : Nat) : Except Fault Nat :=
  match strmOk s (n / 4) st with
  | .error e => .error e
  | .ok ns => .ok (truncI 64 (strmBase s (n / 4) (recOf s n) ns ns.idx st + (j : Int) * strmInc ns st))

/-- R148, R542: the local address of `len` bytes of stream st in beat j, which must lie in the core's own SPM.
Assumption log: 59 (DESIGN CHOICE). -/
def coreAddr (s : State) (n st j len : Nat) : Except Fault Nat :=
  match coreGlob s n st j with
  | .error e => .error e
  | .ok g => match localOf s g with
    | none => .error .outsideSpm
    | some a => if inSpm n a len then .ok a else .error .outsideSpm

/-! ### Valid counts (R211) -/

/-- R211: the position of dimension d at an index vector. -/
def posOf (s : State) (k : Nat) (ns : NestSt) (idx : List Nat) (d : Nat) : Nat :=
  (upto ns.desc.levels).foldl (fun a i =>
    if (lvlAt ns.desc i).dim = d then (a + idx.getD i 0 * stepOf s k ns.id ns.desc i) % 2 ^ 64 else a) 0

/-- R211: the valid count of the dimension that a mask field names; none where nothing masks. -/
def validOf (s : State) (k : Nat) (ns : NestSt) (idx : List Nat) (lo : Nat) : Option Nat :=
  let d := edgeDim s k ns.id lo
  if edgeSrc s k ns.id d = 0 then none
  else
    let x := ns.ext.getD d 0
    let pos := posOf s k ns idx d
    some (if pos < x then min (x - pos) (edgeUnit s k ns.id d) else 0)

/-- The valid count that masks a core field of cluster k at its current step; none before the first NEST. -/
def coreValid (s : State) (k lo : Nat) : Option Nat :=
  match (clu s k).nest with
  | none => none
  | some ns => validOf s k ns ns.idx lo

/-- A count cut by a valid count. -/
def cutBy (n : Nat) : Option Nat → Nat
  | none => n
  | some v => min n v

/-- Whether index i is masked by a valid count. -/
def maskedBy (v : Option Nat) (i : Nat) : Bool :=
  match v with
  | none => false
  | some n => n ≤ i

/-- PAD of the loaded nest; 0 before the first NEST. -/
def padWord (s : State) (k : Nat) : Word :=
  match (clu s k).nest with
  | none => 0
  | some ns => edgePad s k ns.id

/-! ### Windows (R226 to R234) -/

/-- Table 7.2: a window entry. -/
structure Win where
  en : Bool
  vwin : Bool
  mode : Nat
  kh : Nat
  kw : Nat
  sh : Nat
  sw : Nat
  owt : Nat
  blk : Nat
  dh : Nat
  dw : Nat
  pt : Nat
  pl : Nat
  hIn : Nat
  wIn : Nat
  cinp : Nat
  cin : Nat
  leadH : Nat
  rp : Nat
  leadW : Nat
  cbp : Nat
  trows : Nat
  tcols : Nat
  padVal : Nat
  zpad : Nat
  deriving DecidableEq, Repr

/-- Table 7.2: the window entry of nest n. -/
def winAt (s : State) (k n : Nat) : Win :=
  let f (w hi lo : Nat) := fld (rd s (rCluWin k n w)) hi lo
  { en := f 0 31 31 == 1, vwin := f 0 30 30 == 1, mode := f 0 29 28, kh := f 0 27 24, kw := f 0 23 20, sh := f 0 19 16,
    sw := f 0 15 12, owt := f 0 11 6, blk := f 0 5 4, dh := f 1 31 24, dw := f 1 23 16, pt := f 1 15 8, pl := f 1 7 0,
    hIn := f 2 31 16, wIn := f 2 15 0, cinp := f 3 31 16, cin := f 3 15 0, leadH := f 4 31 24, rp := f 4 23 0,
    leadW := f 5 31 24, cbp := f 5 23 0, trows := f 6 31 16, tcols := f 6 15 0, padVal := f 7 31 16, zpad := f 7 15 0 }

/-- The window in force for cluster k: that of the active nest, in its body, with EN = 1 (R232). -/
def winOn (s : State) (k : Nat) : Option (NestSt × Win) :=
  match (clu s k).nest with
  | none => none
  | some ns => if ns.inBody && (winAt s k ns.id).en then some (ns, winAt s k ns.id) else none

/-- R226: a coordinate resolved on its axis: the index, and whether the tap is padded. -/
def resolve (x : Int) (n mode : Nat) : Nat × Bool :=
  if 0 ≤ x ∧ x < n then (x.toNat, false)
  else if mode ≤ 1 then (0, true)
  else
    let y := if x < 0 then -x else 2 * ((n : Int) - 1) - x
    if mode = 2 ∧ 0 ≤ y ∧ y < n then (y.toNat, false)
    else ((max 0 (min x ((n : Int) - 1))).toNat, false)

/-- Bytes of a block (BLK of Table 7.2). -/
def winBB (w : Win) : Nat := if w.blk = 2 then 16 else 32

/-- Channels of a block. -/
def winCpb (w : Win) : Nat := if w.blk = 1 then 16 else 32

/-- Where one tap of one output position lies. -/
inductive Tap where
  | pad
  | miss
  | at (off : Int)
  deriving DecidableEq, Repr

/-- R233: the tap `tap` of the window-tile row `r`, as a byte offset from the tile's first element, for channel block 0. -/
def tapAt (s : State) (k : Nat) (ns : NestSt) (w : Win) (r tap : Nat) : Tap :=
  let pos (d : Nat) := posOf s k ns ns.idx d
  let oh := pos 4 + r / (w.owt + 1)
  let ow := pos 5 + r % (w.owt + 1)
  let kh := tap / w.kw
  let kw := tap % w.kw
  let ih : Int := (oh * w.sh + kh * w.dh : Nat) - (w.pt : Int)
  let iw : Int := (ow * w.sw + kw * w.dw : Nat) - (w.pl : Int)
  let (i, pi) := resolve ih w.hIn w.mode
  let (j, pj) := resolve iw w.wIn w.mode
  if pi || pj then .pad
  else
    let ih0 : Int := max 0 ((pos 4 * w.sh : Nat) - (w.pt : Int) - (w.leadH : Int))
    let iw0 : Int := max 0 ((pos 5 * w.sw : Nat) - (w.pl : Int) - (w.leadW : Int))
    let di := (i : Int) - ih0
    let dj := (j : Int) - iw0
    if di < 0 || (w.trows : Int) ≤ di || dj < 0 || (w.tcols : Int) ≤ dj then .miss
    else .at (di * (w.rp : Int) + dj * (winBB w : Int))

/-- R234: the element that a pad row holds in a true channel. -/
def padElem (w : Win) : Nat := if w.mode = 1 then w.padVal else w.zpad

/-- R234: a pad row of the K-block at channel c0. -/
def padRow (p : Pair) (w : Win) (c0 : Nat) : List Byte :=
  let e (k : Nat) := if c0 + k < w.cin then padElem w else 0
  match p with
  | .i4 => (upto 64).map fun b => BitVec.ofNat 8 (e (2 * b) % 16 + 16 * (e (2 * b + 1) % 16))
  | .bf => (upto 64).flatMap fun k => leBytes 2 (e k)
  | .hf => (upto 64).flatMap fun k => leBytes 2 (e k)
  | _ => (upto 64).map fun k => BitVec.ofNat 8 (e k)

/-- R230: blocks per K-block. -/
def winNB (p : Pair) : Nat :=
  match p with
  | .i8 => 2
  | .i4w => 2
  | .f8 => 2
  | _ => 4

/-- R233: whether AFMT matches BLK. -/
def winMatch (p : Pair) (w : Win) : Bool :=
  match p with
  | .i4 => w.blk == 2
  | .bf => w.blk == 1
  | .hf => w.blk == 1
  | _ => w.blk == 0

/-- R234: what the row of an unmatched AFMT or of a miss holds: a pad row. The rule gives its elements in ZERO and CONST
mode only; in the other modes they are free bytes (assumption 2), taken from count `c` on.
Assumption log: 2 (DESIGN CHOICE). -/
def missRow (p : Pair) (w : Win) (c0 c : Nat) : List Byte :=
  if w.mode < 2 then padRow p w c0
  else ((upto 4).flatMap fun i => freeBytes (c + 8 * i)).take (aBytes p)

/-- R233: the source of activation row r of a matrix instruction in a window nest. `addrA` is the local address of stream
A. A row of an unmatched AFMT is a pad row whose miss is counted once, with the instruction. -/
def winRow (s : State) (k : Nat) (ns : NestSt) (w : Win) (p : Pair) (addrA : Int) (r : Nat) : RowSrc :=
  let posK := posOf s k ns ns.idx 3
  let tap := if w.cinp = 0 then 0 else posK / w.cinp
  let c0 := if w.cinp = 0 then posK else posK % w.cinp
  let miss := missRow p w c0 (s.free + 32 * r)
  if !winMatch p w then .pad miss false false (w.mode == 0)
  else match tapAt s k ns w r tap with
    | .pad => .pad (padRow p w c0) false true (w.mode == 0)
    | .miss => .pad miss true false (w.mode == 0)
    | .at off => .mem ((upto (winNB p)).map fun b =>
        ((addrA + off + ((c0 / winCpb w + b) * w.cbp : Nat)).toNat, winBB w))

end Sys2Proof.Machine
end

