-- ==== Sys2Proof/Machine/Firm.lean ====
section
/-! DEFINITION. What firmware does through its mailbox: posting responses and events into response rings (R371, R374,
R386, R401), and ending commit groups (R410). -/

namespace Sys2Proof.Machine
open Sys2Proof

/-- The base of ring pair r's words: the control page for pairs 0 to 3, the service-core page for 4 to 7 (Table 14.1). -/
def pairPage (s : State) (r : Nat) : Nat :=
  if r < 4 then hpAddr (0x100 + 0x80 * r)
  else 0x2300000000 + rdF s rCpSvcPage 19 6 * 64 + 0x100 + 0x80 * (r - 4)

/-- The memory that the offsets of pair r's ring words count in. -/
def pairMem (r : Nat) : Nat := if r < 4 then hpAddr 0 else 0x2300000000

/-- R371: entries the response ring of pair r holds. -/
def rspFill (s : State) (r : Nat) : Nat :=
  let p := pairPage s r
  (ramNat s (p + 0x44) 4 + 2 ^ 32 - ramNat s (p + 0x60) 4) % 2 ^ 32

/-- R414: a trace record of a category, while TRACE names it. The spec gives trace data no layout: it is free.
Assumption log: 2 (DESIGN CHOICE), 61 (DESIGN CHOICE). -/
def traceRec (s : State) (cat job : Nat) : State :=
  if !bitN s.trace cat then s
  else
    let bs := freeBytes s.free ++ freeBytes (s.free + 8)
    logRec (freeSkip s 16) 0 (0x10 + cat) 0 6 job (bs.take 44)

/-- Ring pair 8: an entry leaves as an MBOX segment for a chip (Table 15.4), unless no route serves it.
Assumption log: 69 (DEDUCED). -/
def mboxSend (s : State) (chip : Nat) (e : List Byte) : State :=
  (segSend s { seg0 s 8 chip 0 64 0 0 0 with data := e }).2

/-- Whether the response ring of pair r has room. Pair 8 is carried by link messages and always has.
Assumption log: 69 (DEDUCED). -/
def rspRoom (s : State) (r : Nat) : Bool := r == 8 || rspFill s r < ramNat s (pairPage s r + 12) 4

/-- Table 13.5: a 64-byte entry. -/
def entryOf (seq status kind tag : Nat) (body : List Byte) : List Byte :=
  leBytes 4 seq ++ leBytes 1 status ++ leBytes 1 kind ++ leBytes 2 0 ++ leBytes 8 tag ++
    (body ++ List.replicate 48 0).take 48

/-- Writing one entry into the response ring of pair r, which has room: the entry, then RSP_PROD. A ring that was empty
sets attention bit 0 (Table 13.8).
Assumption log: 29 (DESIGN CHOICE). -/
def rspWrite (s : State) (r : Nat) (e : List Byte) : State :=
  if r = 8 then mboxSend s (rdF s rDdlChip 21 16) e
  else
    let p := pairPage s r
    let n := ramNat s (p + 0x44) 4
    let wasEmpty := rspFill s r == 0
    let ents := ramNat s (p + 12) 4
    let s := fwPut s (pairMem r + ramNat s (p + 8) 4 + n % ents * 64) e
    let s := fwPut s (p + 0x44) (leBytes 4 (n + 1))
    if wasEmpty && r < 4 then attnSet s 0 else s

/-- R374: a response or event is written, or waits behind the earlier ones of its pair until the ring has room.
Assumption log: 29 (DESIGN CHOICE), 69 (DEDUCED). -/
def postEntry (s : State) (r : Nat) (e : List Byte) : State :=
  if rspRoom s r && !(s.fw.wait.any fun w => w.1 == r) then rspWrite s r e
  else { s with fw := { s.fw with wait := s.fw.wait ++ [(r, e)] } }

/-- R374: the waiting entries of pair r move into the ring while it has room, over at most n entries.
Assumption log: 69 (DEDUCED). -/
def flushPair (s : State) (r : Nat) : Nat → State
  | 0 => s
  | n + 1 =>
    match s.fw.wait.find? fun w => w.1 == r with
    | none => s
    | some w =>
      if rspRoom s r then
        flushPair (rspWrite { s with fw := { s.fw with wait := s.fw.wait.erase w } } r w.2) r n
      else s

/-- A response to a request. -/
def respond (s : State) (q : Rq) (status : Nat) (body : List Byte) : State :=
  traceRec (postEntry s q.pair (entryOf q.seq status 0 q.tag body)) 0 0

/-- R386: the event pair of a source. -/
def evPair (pair : Nat) : Nat := if pair < 4 then 0 else if pair < 8 then 4 else 8

/-- R401: an event: EVT, the job or group number, and the further fields from entry offset 0x14 on.
Assumption log: 65 (DESIGN CHOICE). -/
def postEvent (s : State) (q : Rq) (status evt num : Nat) (more : List Byte) : State :=
  postEntry s (evPair q.pair) (entryOf 0xFFFFFFFF status 1 q.tag (leBytes 2 evt ++ leBytes 2 num ++ more))

/-- The state of commit group g. -/
def cgOf (s : State) (g : Nat) : Cg := s.fw.cgs.getD g {}

/-- Changing the state of commit group g. -/
def cgUpd (s : State) (g : Nat) (f : Cg → Cg) : State :=
  { s with fw := { s.fw with cgs := s.fw.cgs.modify g f } }

/-- CP_CGg_CTL.STATE: 0 idle, 1 preparing, 2 armed, 3 applied, 4 aborted. -/
def cgState (s : State) (g : Nat) : Nat := rdF s (rCpCgCtl g) 29 27

/-- Action i of group g: address, value and mask. -/
def cgAct (s : State) (g i : Nat) : Nat × Nat × Nat :=
  (rdF s (rCpCgAddr g i) 26 2 * 4 + regBase, (rd s (rCpCgValue g i)).toNat, (rd s (rCpCgMask g i)).toNat)

/-- The actions of group g. -/
def cgActs (s : State) (g : Nat) : List (Nat × Nat × Nat) := (upto (rdF s (rCpCgCtl g) 5 0 + 1)).map (cgAct s g)

/-- Changing CP_CGg_CTL.STATE. -/
def cgSetState (s : State) (g v : Nat) : State := wrF s (rCpCgCtl g) 29 27 v

/-- R401, R410: the COMMIT event of a group, and its log record at INFO (R413).
Assumption log: 65 (DESIGN CHOICE). -/
def cgOutcome (s : State) (g outcome reason isl ref : Nat) : State :=
  let q := (cgOf s g).owner.getD ⟨0, 0, 0⟩
  let more := leBytes 1 outcome ++ leBytes 1 reason ++ leBytes 1 isl ++ leBytes 1 0 ++ leBytes 8 (now s) ++ leBytes 4 ref
  let s := postEvent s q 0 2 g more
  logRec s 1 0xC reason 4 0 (leBytes 2 g ++ leBytes 1 outcome ++ leBytes 1 isl)

/-- R410: group g aborts, if it has not applied: CP_CGg_CTL, its timestamp, the counter, the answer to the CG_COMMIT that
prepared it if that has none yet (R411), and the COMMIT event. Nothing changes in any island. -/
def cgAbortOne (s : State) (g code isl : Nat) : State :=
  if cgState s g ≠ 1 ∧ cgState s g ≠ 2 then s
  else
    let s := wrF (wrF (cgSetState s g 4) (rCpCgCtl g) 23 16 code) (rCpCgCtl g) 11 8 isl
    let s := incr (wr64 s (rCpCgTsLo g) (rCpCgTsHi g) (now s)) rCpCgAbortCnt
    let s := { s with fw := { s.fw with armed := s.fw.armed.filter (· != g) } }
    let c := cgOf s g
    let s := match c.owner, c.answer with
      | some q, true => respond s q code []
      | _, _ => s
    let s := cgUpd s g fun c => { c with answer := false, tagged := false, wait := [], isOpen := false }
    cgOutcome s g 2 code isl 0

/-- R397, R410: group g aborts; where it carries the switch of a partition, firmware cancels the switch's other groups, with a code
that the spec does not name.
Assumption log: 24 (DESIGN CHOICE), 64 (DEDUCED). -/
def cgAbort (s : State) (g code isl : Nat) : State :=
  if cgState s g ≠ 1 ∧ cgState s g ≠ 2 then s
  else
    let s := cgAbortOne s g code isl
    match s.fw.switches.find? fun w => w.groups.contains g with
    | none => s
    | some w =>
      let kill (x : Switch) : Switch := if x = w then { x with dead := true } else x
      let (c, s) := freeCode { s with fw := { s.fw with switches := s.fw.switches.map kill } }
      foldS (fun s h => if (cgOf s h).tagged then s else cgAbortOne s h c 0xF) (w.groups.filter (· != g)) s

/-- KIND of group g's point (R406). -/
def cgKind (s : State) (g : Nat) : Nat := rdF s (rCpCgPoint g) 31 30

/-- R406, R410: a set of fusion group `fg` closes, or the singles queue takes a record: the arbiter decides to apply the groups
armed for that point. -/
def cgSignal (s : State) (fg seq : Nat) : State :=
  foldS (fun s g =>
    if cgKind s g = 2 && rdF s (rCpCgPoint g) 19 0 == fg && !(cgOf s g).tagged then
      cgUpd s g fun c => { c with tagged := true, ref := seq } else s) s.fw.armed s

/-- R410: the engine stops: every armed TIE group aborts with CG_POINT_TIMEOUT. -/
def cgEngineStop (s : State) : State :=
  foldS (fun s g => if cgKind s g = 1 && !(cgOf s g).tagged then cgAbort s g 0xAE 0xF else s) s.fw.armed s

end Sys2Proof.Machine
end

