-- ==== Sys2Proof/Machine/Energy.lean ====
section
/-! DEFINITION. The energy model (R478, R479): firmware reads the activity counters, and charges them to jobs. -/

namespace Sys2Proof.Machine
open Sys2Proof

/-- The job register of an activity source (Table 17.6, Table 14.11). -/
def srcJobReg (src : Nat) : Nat :=
  if src < 8 then rCpJobCl src
  else if src < 16 then rCpJobDma (src - 8)
  else if src < 48 then rCpJobVid (src - 16)
  else rCpJobCsi (src - 48)

/-- R14: the advance of an activity counter since firmware last read it. -/
def actDiff (s : State) (src e : Nat) : Nat :=
  ((rd s (rPwrAct src e)).toNat + 2 ^ 32 - mget nat0 s.pwr.seen (8 * src + e)) % 2 ^ 32

/-- R479: the model's energy of a source over the sub-interval that ends now, in nJ: COEF is in pJ per unit.
Assumption log: 35 (DEDUCED). -/
def srcEnergy (s : State) (src : Nat) : Nat :=
  ((upto 8).foldl (fun n e => n + Config.energyCoef (rdF s rPwrStatus 1 0) e * actDiff s src e) 0) / 1000

/-- Adding to the entry of a key. -/
def addTo (l : List (Nat × Nat)) (k n : Nat) : List (Nat × Nat) :=
  if l.any fun x => x.1 == k then l.map fun x => if x.1 = k then (k, x.2 + n) else x else l ++ [(k, n)]

/-- R402, R479: firmware reads the counters: each source's counts belong to the job in its register. Done at every pass boundary,
every change of a binding and every reconciliation.
Assumption log: 35 (DEDUCED). -/
def energyRead (s : State) : State :=
  foldS (fun s src =>
    let n := srcEnergy s src
    let seen := mputRun nat0 (8 * src) ((upto 8).map fun e => (rd s (rPwrAct src e)).toNat) s.pwr.seen
    { s with pwr := { s.pwr with seen := seen, share := addTo s.pwr.share (rdF s (srcJobReg src) 11 0) n } }) (upto 96) s

/-- R479: E_meas is divided: each job other than 0 takes its share of the dynamic energy. A shadow job's energy goes to the job
that it shadows (R446).
Assumption log: 35 (DEDUCED). -/
def energyShare (s : State) : State :=
  let p := s.pwr
  let idle := Config.energyIdle (rdF s rPwrStatus 1 0) (rd s rPwrTj)
  let dyn := p.emeas - idle
  let tot := p.share.foldl (fun n x => n + x.2) 0
  let gain (id : Nat) : Nat :=
    if id = 0 ∨ tot = 0 then 0 else dyn * (((p.share.find? fun x => x.1 == id).map fun x => x.2).getD 0) / tot
  let up (j : Job) : Job :=
    let shadows := (s.fw.jobs.filter fun x => x.shadowOf == some j.id).map fun x => gain x.id
    { j with energy := j.energy + (if j.shadowOf.isSome then 0 else gain j.id) + shadows.foldl (· + ·) 0 }
  { s with fw := { s.fw with jobs := s.fw.jobs.map up, energy := s.fw.energy + p.emeas },
           pwr := { p with emeas := 0, share := [] } }

/-- ENERGY_RECONCILE: the interval of 1 ms ends. -/
def execEnergyReconcile (s : State) : Out := .next (energyShare (energyRead s))

end Sys2Proof.Machine
end

