-- ==== Sys2Proof/Machine/Guard.lean ====
section
/-! DEFINITION. What guards a register write: the enable of its block (R20), a check in progress (R19), an island in reset (R530), and
a prepared or armed commit group (R409); preparing and cancelling a group. -/

namespace Sys2Proof.Machine
open Sys2Proof

/-- The island of a register block (Table 0.4 with Table 1.4). -/
def blkIsl (k : Nat) : Nat :=
  if 0x10 ≤ k ∧ k < 0x18 then k - 0x10
  else if 0x20 ≤ k ∧ k < 0x40 then (k - 0x20) / 4
  else if k = 0x40 ∨ k = 0x48 then 8
  else if k = 0x50 then 9
  else if 0x58 ≤ k ∧ k < 0x68 then 0xA
  else if k = 0x68 then 0xB
  else if k = 0x78 ∨ k = 0x79 then 0xE
  else if 0x7C ≤ k ∧ k < 0x7D then 0xD
  else 0xC

/-- The enable that guards a register's static fields: its address and bit. -/
def guardOf (a : Nat) (r : RegRow) : Nat × Nat :=
  let base := blkBase (regBlk a)
  match r.guard with
  | none => (base + 4, 0)
  | some g => match r.dims with
    | (st, _) :: _ => (base + g + (a - base - r.off) / st * st, 31)
    | [] => (base + g, 31)

/-- Whether group g is prepared or armed. -/
def cgLive (s : State) (g : Nat) : Bool := cgState s g == 1 || cgState s g == 2

/-- CP_CGg_CTL.PREPARE (R408): phase 1 begins with a request to each island that the group names. -/
def cgPrepare (s : State) (g : Nat) : State :=
  if cgLive s g then s
  else
    let isls := ((cgActs s g).map fun x => blkIsl (regBlk x.1)).eraseDups
    let s := wrF (wrF (cgSetState s g 1) (rCpCgCtl g) 23 16 0) (rCpCgCtl g) 11 8 0xF
    let s := foldS (fun s _ => traceRec s 2 0) isls s
    cgUpd s g fun c => { c with wait := isls, at0 := now s, tagged := false, ref := 0 }

/-- CP_CGg_CTL.CANCEL (R410): the abort of a group that has not applied and whose point has not been reached. The spec names
no code for it: it is a free value.
Assumption log: 24 (DESIGN CHOICE). -/
def cgCancel (s : State) (g : Nat) : State :=
  if !cgLive s g || (cgOf s g).tagged then s
  else
    let (c, s) := freeCode s
    cgAbort s g c 0xF

/-- Whether an action writes 1 to a bit. -/
def actSets (x : Nat × Nat × Nat) (b : Nat) : Bool := bitN x.2.1 b && bitN x.2.2 b

/-- The stream and word of an ISP shadow register. -/
def ispShadow (a : Nat) : Option Nat := if 0x3005C10000 ≤ a ∧ a < 0x3005C40000 then some (a % 0x100000 / 0x1000 - 0x10) else none

/-- The arm register and bit of stream m. -/
def armOf (m : Nat) : Nat × Nat := if m < 32 then (rIspArmLo, m) else (rIspArmHi, m - 32)

/-- Whether a prepared or armed group holds a register (R408, check 4). -/
def cgHolds (s : State) (a : Nat) : Bool := (upto 16).any fun g => cgLive s g && (cgActs s g).any fun x => x.1 == a

/-- Whether a prepared or armed group keeps others from writing a register whose static fields another enable guards, or the shadow
set of a stream that it arms (R409). -/
def cgGuards (s : State) (a : Nat) (r : RegRow) : Bool :=
  (upto 16).any fun g => cgLive s g && (cgActs s g).any fun x =>
    (r.stat != 0 && x.1 == (guardOf a r).1 && actSets x (guardOf a r).2) ||
    match ispShadow a with
    | some m => x.1 == (armOf m).1 && actSets x (armOf m).2
    | none => false

/-- R409: what a prepared or armed group keeps others from writing. -/
def cgDrops (s : State) (a : Nat) : Bool :=
  cgHolds s a || match regRow a with
    | some r => cgGuards s a r
    | none => false

/-- A command that is a write of a register, its effect `act`: lost while the island is held in reset (R530), held while the block's
check runs (R19), dropped for a commit group (R409), or taken. -/
def busWrite (s : State) (a : Nat) (v : Word) (act : State → State) : State :=
  if rdB s rTopIslRst (blkIsl (regBlk a)) then s
  else if chkBusy s (regBlk a) then holdWrite s a v
  else if cgDrops s a then cfgDrop s (regBlk a)
  else act s

end Sys2Proof.Machine
end

