-- ==== Sys2Proof/Machine/HostPort.lean ====
section
/-! DEFINITION. The host port (13): the LPDDR5 commands of the host, the attention pin and the control page's mirror. -/

namespace Sys2Proof.Machine
open Sys2Proof

/-- R381: whether channel c answers the host.
Assumption log: 70 (DEDUCED). -/
def chanOn (s : State) (c : Nat) : Bool := rdB s rHptCtl 0 && c < 2 && rdB s rHptCtl (1 + c)

/-- PWRc of HPT_STATUS: 0 active, 1 power-down, 2 self-refresh, 3 in reset. -/
def chanPwr (s : State) (c : Nat) : Nat := rdF s rHptStatus (3 + 2 * c) (2 + 2 * c)

/-- Whether channel c is active for a read, write or refresh.
Assumption log: 70 (DEDUCED). -/
def chanLive (s : State) (c : Nat) : Bool := chanOn s c && chanPwr s c == 0

/-- R362: the bank number that a command names. -/
def hostBank : Bank → Nat
  | .flat b => b % 16
  | .grouped bg ba => 4 * (bg % 4) + ba % 4

/-- R362: the device address of a row, bank and byte offset within the page. -/
def devAddr (row : Nat) (bank : Bank) (col : Nat) : Nat := (row % 32768 * 16 + hostBank bank) * 2048 + col % 2048

/-- The device address of the other 32 bytes of a BL32 burst: bursts wrap within 64 bytes.
Assumption log: 70 (DEDUCED). -/
def restAddr (d : Nat) : Nat := d / 64 * 64 + (d + 32) % 64

/-- R363: the combined offset of a device address on channel c; none where it is unbacked.
Assumption log: 70 (DEDUCED). -/
def hostOff (s : State) (c d : Nat) : Option Nat :=
  let w : Nat := match rdF s rHptCtl 5 4 with
    | 0 => 0
    | 1 => 64
    | 2 => 256
    | _ => 4096
  if w = 0 then (if d < 0x200000 then some (0x200000 * c + d) else none)
  else
    let o := (d / w * 2 + c) * w + d % w
    if o < 0x400000 then some o else none

/-- R360: a command inside a refresh's timing window is executed and counted.
Assumption log: 70 (DEDUCED). -/
def protoErr (s : State) (early : Bool) : State := if early then attnSet (incr s rHptProtoErrCnt) 10 else s

/-- R364, R365: the 32 bytes of one access of a read at device address d of channel c. -/
def hostHalf (s : State) (c d : Nat) : List Byte :=
  match hostOff s c d with
  | some o => ramGet s (hpAddr o) 32
  | none => List.replicate 32 0xA5

/-- LPDDR_READ on channel c: its 32 bytes, or the first or the second half of a BL32 read (R366: a write between the two shows in the
second), go to DQ. An unbacked burst is counted once. `early` says that the command falls in a refresh's timing window.
Assumption log: 70 (DEDUCED). -/
def execLpddrRead (c row : Nat) (bank : Bank) (col : Nat) (burst : Burst) (early : Bool) (s : State) : Out :=
  let first (s : State) (rest : Option Nat) : State :=
    let d := devAddr row bank col
    let s := protoErr s early
    let s := if (hostOff s c d).isSome then s else attnSet (incr s rHptUnbackedRdCnt) 9
    { s with hp := { s.hp with dq := hostHalf s c d, rest := s.hp.rest.set c rest } }
  match burst with
  | .bl16 => .next (if chanLive s c then first s none else s)
  | .bl32 => .next (if chanLive s c then first s (some (restAddr (devAddr row bank col))) else s)
  | .rest =>
    match s.hp.rest.getD c none with
    | some d => .next { s with hp := { s.hp with dq := hostHalf s c d, rest := s.hp.rest.set c none } }
    | none => .next s

/-- R380: a host write to the word at 0x040 clears the attention bits that ATTN_ACK names. -/
def attnAck (s : State) : State :=
  wr s rHptAttnPend (rd s rHptAttnPend &&& ~~~(BitVec.ofNat 32 (ramNat s (hpAddr 0x40) 2)))

/-- A host write lands in host-port SRAM from offset o; masked bytes keep their value. -/
def hostStore (s : State) (o : Nat) (bs : List Byte) (mask : List Bool) : State :=
  let old := ramGet s (hpAddr o) bs.length
  let new := (List.zip (List.zip bs old) (mask ++ List.replicate bs.length false)).map fun x => if x.2 then x.1.2 else x.1.1
  let s := ramPut s (hpAddr o) new
  if o < 0x60 ∧ 0x40 < o + bs.length then attnAck s else s

/-- One 32-byte access of a host write at device address d of channel c; an unbacked one is dropped. -/
def hostChunk (s : State) (c d : Nat) (bs : List Byte) (mask : List Bool) : State :=
  match hostOff s c d with
  | some o => hostStore s o bs mask
  | none => s

/-- LPDDR_WRITE on channel c of a burst of 32 or 64 bytes, with the mask of bytes that it leaves: one access per 32 bytes.
Assumption log: 70 (DEDUCED). -/
def execLpddrWrite (c row : Nat) (bank : Bank) (col : Nat) (bs : List Byte) (mask : List Bool) (early : Bool) (s : State) : Out :=
  if !chanLive s c then .next s
  else
    let d := devAddr row bank col
    let s := protoErr s early
    let s := if (hostOff s c d).isSome then s else attnSet (incr s rHptUnbackedWrCnt) 9
    let s := hostChunk s c d (bs.take 32) (mask.take 32)
    .next (if 32 < bs.length then hostChunk s c (restAddr d) ((bs.drop 32).take 32) ((mask.drop 32).take 32) else s)

/-- LPDDR_REFRESH on channel c.
Assumption log: 70 (DEDUCED). -/
def execLpddrRefresh (c : Nat) (early : Bool) (s : State) : Out :=
  if !chanLive s c then .next s else .next (incr (protoErr s early) rHptRefCnt)

/-- HPT_CHc_MODE shows the mode registers of channel c.
Assumption log: 49 (DESIGN CHOICE). -/
def modeShow (s : State) (c : Nat) : State :=
  let v := Config.modeOf (mget (fun _ => 0) (s.hp.mrs.getD c []))
  let t := rdB s (rHptChMode c) 1
  let v := setFld (setFld v 15 6 0) 1 0 (2 * b2n t)
  wr s (rHptChMode c) v

/-- LPDDR_MODE_REGISTER_WRITE of mode register ma on channel c. -/
def execLpddrModeRegisterWrite (c ma : Nat) (v : Byte) (early : Bool) (s : State) : Out :=
  if !chanLive s c then .next s
  else
    let s := protoErr s early
    let bad := v &&& Config.mrUnsupported ma
    let s := if bad ≠ 0 then incr s rHptMrwIgnCnt else s
    let v := v &&& ~~~(Config.mrUnsupported ma)
    let s := { s with hp := { s.hp with mrs := s.hp.mrs.modify c fun m => mput (fun _ => 0) ma v m } }
    .next (modeShow s c)

/-- R359: the value of mode register ma of channel c.
Assumption log: 49 (DESIGN CHOICE). -/
def mrValue (s : State) (c ma : Nat) : Byte :=
  if ma = 5 then 0xFF else if ma = 6 then 0xB1 else if ma = 8 then Config.mr8
  else if ma = 4 then Config.mr4 s.hp.hot (s.hp.tuf.getD c false)
  else mget (fun _ => 0) (s.hp.mrs.getD c []) ma

/-- LPDDR_MODE_REGISTER_READ of mode register ma on channel c: its value goes to DQ. -/
def execLpddrModeRegisterRead (c ma : Nat) (early : Bool) (s : State) : Out :=
  if !chanLive s c then .next s
  else
    let s := protoErr s early
    let v := mrValue s c ma
    let s := { s with hp := { s.hp with dq := [v] } }
    .next (if ma = 4 then { s with hp := { s.hp with tuf := s.hp.tuf.set c false } } else s)

/-- R359: MR4 follows the junction temperature, in units of 1/16 degree; TUF is set on each change. -/
def mr4Follow (s : State) (hot : Bool) : State :=
  if s.hp.hot = hot then s else { s with hp := { s.hp with hot := hot, tuf := [true, true] } }

/-- LPDDR_POWER_DOWN: channel c becomes active, or enters power-down or self-refresh. -/
def execLpddrPowerDown (c : Nat) (cmd : PowerCmd) (s : State) : Out :=
  if !chanOn s c || chanPwr s c == 3 then .next s
  else .next (wrF (protoErr s cmd.early) rHptStatus (3 + 2 * c) (2 + 2 * c) (cmd.st % 3))

/-- R361: the mode registers and training state of both channels return to their reset values. -/
def modeReset (s : State) : State :=
  { wr (wr s (rHptChMode 0) 0) (rHptChMode 1) 0 with hp := { s.hp with mrs := [[], []], wfifo := [[], []], rest := [none, none] } }

/-- HOST_RESET_N: the host asserts RESET_n, or releases it. -/
def execHostResetN (asserted : Bool) (s : State) : Out :=
  if asserted then .next (attnSet (incr (wrF (modeReset s) rHptStatus 5 2 15) rHptIfrstCnt) 8)
  else .next (wrF s rHptStatus 5 2 0)

/-- HOST_CK_SWITCH: CK of channel c starts or stops; without CK the island runs from its internal clock (CKc of
HPT_STATUS). -/
def execHostCkSwitch (c : Nat) (on : Bool) (s : State) : Out := .next (if c < 2 then wrB s rHptStatus c on else s)

/-- R380: a write of HPT_ATTN_SET. -/
def attnSetWrite (s : State) (v : Nat) : State := wr s rHptAttnPend (rd s rHptAttnPend ||| BitVec.ofNat 32 (v % 256))

/-- ATTN_SET. -/
def execAttnSet (v : Nat) (s : State) : Out :=
  .next (busWrite s rHptAttnSet (BitVec.ofNat 32 (v % 256)) fun s => attnSetWrite s v)

/-- R379, R380: the pin follows the masked pending bits once HPT_CTL.ENABLE has read 1, and the control page's word at 0x020
shows both registers. -/
def attnShow (s : State) : State :=
  let s := ramPut s (hpAddr 0x20) (leBytes 4 (rd s rHptAttnPend).toNat ++ leBytes 4 (rd s rHptAttnMask).toNat)
  { s with hp := { s.hp with pinLow := !s.hp.seen || attnOn s } }

/-- ATTN_PIN_UPDATE. -/
def execAttnPinUpdate (s : State) : Out := .next (attnShow s)

/-- R381: the check of HPT_CTL.ENABLE. -/
def hptCheck (s : State) : Nat :=
  let ch := rdF s rHptCtl 2 1
  if ch = 0 ∨ (rdF s rHptCtl 5 4 ≠ 0 ∧ ch ≠ 3) then 0x01 else 0

/-- The enable has passed. -/
def hptOn (s : State) : State := { wrB s rHptCtl 0 true with hp := { s.hp with seen := true } }

/-- LPDDR_TRAINING_COMMAND on channel c (R358): 0 command-bus training, 1 WCK2CK leveling, which sets TRAINED, 2 read DQ
calibration, 3 WRITE-FIFO of a burst, 4 READ-FIFO, 5 VrefCA and 6 VrefDQ training. What the device drives on DQ in command-bus and
Vref training and the calibration patterns are JESD209-5B's: their data is free.
Assumption log: 2 (DESIGN CHOICE), 70 (DEDUCED). -/
def execLpddrTrainingCommand (c kind : Nat) (bs : List Byte) (early : Bool) (s : State) : Out :=
  if !chanLive s c then .next s
  else
    let s := protoErr s early
    match kind with
    | 1 => .next (wrB s (rHptChMode c) 1 true)
    | 3 => .next { s with hp := { s.hp with wfifo := s.hp.wfifo.set c (bs.take 32) } }
    | 4 => .next { s with hp := { s.hp with dq := s.hp.wfifo.getD c [] } }
    | _ => .next { s with hp := { s.hp with dq := (upto 8).flatMap fun i => leBytes 4 (Config.freeWord (s.free + i)).toNat },
                          free := s.free + 8 }

end Sys2Proof.Machine
end

