-- ==== Sys2Proof/Machine/LineCode.lean ====
section
/-! DEFINITION. The code of a DRAM line (R337 to R341): the field GF(2^8), the syndromes of a codeword's error, the location
of one or two symbols, and the CRC. The code is linear, so the outcome of a read depends on the error alone. -/

namespace Sys2Proof.Machine

/-- R340: multiplication by α = 2 modulo x^8 + x^4 + x^3 + x^2 + 1. -/
def gfX (a : Nat) : Nat := if 2 * a < 256 then 2 * a else (2 * a).xor 0x11D

/-- Multiplication in GF(2^8), over `n` bits of b. -/
def gfMulGo : Nat → Nat → Nat → Nat
  | 0, _, _ => 0
  | n + 1, a, b => (if b % 2 = 1 then a else 0).xor (gfMulGo n (gfX a) (b / 2))

/-- Multiplication in GF(2^8). -/
def gfMul (a b : Nat) : Nat := gfMulGo 8 a b

/-- a to the power n. -/
def gfPow (a : Nat) : Nat → Nat
  | 0 => 1
  | n + 1 => gfMul a (gfPow a n)

/-- The inverse of a nonzero element. -/
def gfInv (a : Nat) : Nat := gfPow a 254

/-- R340: syndrome j of a codeword: c_i is the coefficient of x^(39 − i). -/
def syndrome (j : Nat) (c : List Nat) : Nat := c.foldl (fun t x => (gfMul t (gfPow 2 j)).xor x) 0

/-- The positions p below 40 at which α^p is a root of x² + l1·x + l2. -/
def roots (l1 l2 : Nat) : List Nat :=
  (upto 40).filter fun p => ((gfMul (gfPow 2 p) (gfPow 2 p)).xor (gfMul l1 (gfPow 2 p))).xor l2 == 0

/-- R341: the located errors of a codeword, as (symbol, value); none where the locator fails. -/
def locate (c : List Nat) : Option (List (Nat × Nat)) :=
  let s0 := syndrome 0 c
  let s1 := syndrome 1 c
  let s2 := syndrome 2 c
  let s3 := syndrome 3 c
  let d := (gfMul s1 s1).xor (gfMul s0 s2)
  if s0 = 0 ∧ s1 = 0 ∧ s2 = 0 ∧ s3 = 0 then some []
  else if d = 0 then
    let x := gfMul s1 (gfInv s0)
    match (upto 40).filter fun p => gfPow 2 p == x with
    | [p] => if s0 ≠ 0 ∧ s2 = gfMul s1 x ∧ s3 = gfMul s2 x then some [(39 - p, s0)] else none
    | _ => none
  else
    let l1 := gfMul ((gfMul s1 s2).xor (gfMul s0 s3)) (gfInv d)
    let l2 := gfMul ((gfMul s1 s3).xor (gfMul s2 s2)) (gfInv d)
    match roots l1 l2 with
    | [p, q] =>
      let x := gfPow 2 p
      let y := gfPow 2 q
      let e := gfMul (s1.xor (gfMul s0 y)) (gfInv (x.xor y))
      if e = 0 ∨ e = s0 then none else some [(39 - p, e), (39 - q, s0.xor e)]
    | _ => none

/-- One byte of CRC-16 with polynomial 0x1021, over `n` bits. -/
def crcBits : Nat → Nat → Nat
  | 0, r => r
  | n + 1, r => crcBits n (if 0x8000 ≤ r then ((2 * r) % 0x10000).xor 0x1021 else 2 * r)

/-- R340: CRC-16 over bytes, most significant bit first, from an initial value. -/
def crc16 (init : Nat) (bs : List Nat) : Nat := bs.foldl (fun r b => crcBits 8 (r.xor (b * 256))) init

/-- A list of symbols with an error added to one. -/
def symXor (c : List Nat) (i e : Nat) : List Nat := c.modify i fun x => x.xor e

/-- R341: decoding a codeword whose received symbols differ from the sent ones by `err` (40 symbols): none where it is
uncorrectable; otherwise the difference that remains in what is delivered, and the symbols that were corrected. -/
def decodeWord (err : List Nat) : Option (List Nat × List Nat) :=
  match locate err with
  | none => none
  | some es =>
    let r := es.foldl (fun c x => symXor c x.1 x.2) err
    if crc16 0 (r.take 34) = r.getD 34 0 * 256 + r.getD 35 0 then some (r, es.map fun x => x.1) else none

/-- Table 12.4: the device of a symbol. -/
def symDevice (i : Nat) : Nat := i / 8

end Sys2Proof.Machine
end

