-- ==== Sys2Proof/Machine/Encoding.lean ====
section
/-! DEFINITION. The words of bars: the bar header, the core slot and the cluster slot, and which values are reserved
(03 sections 2 to 5, Tables 3.2, 3.3, 4.1, 4.7, 5.5, 5.8). -/

namespace Sys2Proof.Machine
open Sys2Proof

/-- Table 3.2: a bar header from its 64-bit word. -/
def hdrOf (w : Nat) : BarHdr :=
  { rep := bitsN w 54 10, tpart := bitsN w 46 8, cg := bitN w 45, port := bitN w 44, tieLvl := bitsN w 41 3,
    tie := bitN w 40, kpres := bitsN w 32 8, cpres := bitsN w 0 32 }

/-- R77: the positions of cluster k whose core slot is present, rising. -/
def presPos (h : BarHdr) (k : Nat) : List Nat := (upto 4).filter fun p => bitN h.cpres (4 * k + p)

/-- R77: the bytes of a segment of cluster k. -/
def segLen (h : BarHdr) (k : Nat) : Nat := 8 + 16 * (presPos h k).length + 8 * b2n (bitN h.kpres k)

/-- R77: the segment of bar b of cluster k, from its bytes. -/
def segOf (k b : Nat) (bs : List Byte) : BarSeg :=
  let h := hdrOf (leAt bs 0 8)
  let ps := presPos h k
  { bar := b, hdr := h, slots := ps.zipIdx.map fun x => (x.1, leAt bs (8 + 16 * x.2) 16),
    kslot := if bitN h.kpres k then some (leAt bs (8 + 16 * ps.length) 8) else none }

/-! ### The core slot (Table 3.3) -/

/-- Table 4.1: the operands of an MX field. -/
def mxArgs (w : Nat) : MxArgs :=
  { plane := bitsN w 24 4, wfmt := bitsN w 20 4, afmt := bitsN w 16 4, rows := bitsN w 10 6, cols := bitsN w 4 6,
    rq := bitsN w 2 2, sub32 := bitN w 1, auto := bitN w 0 }

/-- R128, R130: whether an MX field is not reserved. -/
def mxFieldOk (w : Nat) : Bool :=
  match bitsN w 28 4 with
  | 0 => w == 0
  | 1 => mxOk false (mxArgs w)
  | 2 => mxOk true (mxArgs w)
  | _ => false

/-- Table 4.7: the operands of a VX field. -/
def vxArgs (w : Nat) : VxArgs :=
  { vd := bitsN w 37 5, va := bitsN w 32 5, vb := bitsN w 27 5, vc := bitsN w 22 5, fmt := bitsN w 18 4,
    mode := bitsN w 16 2, sat := bitN w 15, mask := bitsN w 12 3, arg := bitsN w 0 12 }

/-- The form of a VX operation: which fields it uses (R145) and the values they may take. -/
structure VxForm where
  vd : Bool := false
  va : Bool := false
  vb : Bool := false
  vc : Bool := false
  fmts : List Nat := []
  md : Bool := false
  sat : Bool := false
  arg : Nat := 0
  deriving DecidableEq, Repr

/-- Formats that VLD, VST, VGATH and VSCAT move: bytes, integers, floating point and UE5M3 (Table 2.1, R156). -/
def fmtsMem : List Nat := [0, 1, 2, 3, 4, 5, 6, 7, 8, 9, 10]

/-- FP32 and INT32. -/
def fmtsArith : List Nat := [8, 9]

/-- R145: the only format is FP32 and none is stated. -/
def fmtsF32 : List Nat := [0, 8]

/-- Table 4.8: the form of each VX opcode; none where the opcode is reserved. `arg` masks the bits of ARG it uses.
Assumption log: 90 (DESIGN CHOICE). -/
def vxForm : Nat → Option VxForm
  | 0x01 => some { vd := true, fmts := fmtsMem ++ [0xB, 0xC], arg := 0xE00 }
  | 0x02 => some { va := true, fmts := fmtsMem, md := true, sat := true, arg := 0xE00 }
  | 0x03 => some { vd := true, fmts := [0], arg := 0xC00 }
  | 0x04 => some { va := true, fmts := [0], arg := 0xC00 }
  | 0x05 => some { vd := true, vb := true, fmts := [0, 1, 2, 4, 5, 6, 7, 8, 9, 10], arg := 0xC00 }
  | 0x06 => some { va := true, vb := true, fmts := [0, 1, 2, 4, 5, 6, 7, 8, 9, 10], md := true, sat := true, arg := 0xE00 }
  | 0x07 => some { vd := true, fmts := [0], arg := 0xC00 }
  | 0x08 => some { fmts := [0], arg := 0xC00 }
  | 0x09 => some { fmts := [0], arg := 0xC07 }
  | 0x0A => some { fmts := [0], arg := 0xC00 }
  | 0x0B => some { vd := true, fmts := [0], arg := 0x7FF }
  | 0x0C => some { vd := true, va := true, fmts := [0], arg := 0x00F }
  | 0x0D => some { vd := true, va := true, fmts := [0] }
  | 0x10 => some { vd := true, va := true, vb := true, fmts := fmtsArith, sat := true }
  | 0x11 => some { vd := true, va := true, vb := true, fmts := fmtsArith, sat := true }
  | 0x12 => some { vd := true, va := true, vb := true, fmts := fmtsArith, sat := true }
  | 0x13 => some { vd := true, va := true, vb := true, vc := true, fmts := fmtsArith, sat := true }
  | 0x14 => some { vd := true, va := true, vb := true, fmts := fmtsArith, sat := true }
  | 0x15 => some { vd := true, va := true, vb := true, fmts := fmtsArith, sat := true }
  | 0x16 => some { vd := true, va := true, fmts := fmtsArith, sat := true }
  | 0x17 => some { vd := true, va := true, fmts := fmtsArith, sat := true }
  | 0x18 => some { vd := true, va := true, vb := true, fmts := [0] }
  | 0x19 => some { vd := true, va := true, vb := true, fmts := [0] }
  | 0x1A => some { vd := true, va := true, vb := true, fmts := [0] }
  | 0x1B => some { vd := true, va := true, vb := true, fmts := [0, 9] }
  | 0x1C => some { vd := true, va := true, vb := true, fmts := [0, 9] }
  | 0x1D => some { vd := true, va := true, fmts := fmtsArith, md := true, sat := true }
  | 0x1E => some { va := true, vb := true, fmts := fmtsArith, arg := 0x03F }
  | 0x1F => some { vd := true, va := true, vb := true, fmts := [0], arg := 0x038 }
  | 0x20 => some { vd := true, va := true, vb := true, vc := true, fmts := [1, 2], sat := true }
  | 0x21 => some { vd := true, va := true, fmts := fmtsF32, arg := 0x007 }
  | 0x22 => some { vd := true, va := true, fmts := fmtsF32 }
  | 0x23 => some { vd := true, va := true, fmts := fmtsF32 }
  | 0x24 => some { vd := true, va := true, fmts := fmtsF32, arg := 0x007 }
  | 0x28 => some { vd := true, va := true, fmts := fmtsArith, sat := true }
  | 0x29 => some { vd := true, va := true, fmts := fmtsArith }
  | 0x2A => some { vd := true, va := true, fmts := fmtsArith }
  | 0x2B => some { vd := true, va := true, fmts := fmtsArith }
  | 0x2C => some { vd := true, va := true, fmts := fmtsArith }
  | 0x2D => some { vd := true, va := true, fmts := fmtsArith }
  | 0x30 => some { vd := true, va := true, fmts := fmtsF32, arg := 0x03F }
  | 0x31 => some { vd := true, va := true, fmts := fmtsF32, arg := 0x03F }
  | 0x32 => some { vd := true, va := true, vb := true, fmts := fmtsF32, arg := 0x03F }
  | 0x33 => some { vd := true, va := true, fmts := fmtsF32, arg := 0x03F }
  | 0x38 => some { va := true, fmts := [0], arg := 0x03F }
  | 0x39 => some { vd := true, fmts := fmtsArith, arg := 0x3FF }
  | 0x3A => some { vd := true, va := true, vb := true, fmts := [8], arg := 0x7FF }
  | 0x3B => some { vd := true, va := true, vb := true, fmts := [8], arg := 0x00F }
  | 0x3C => some { vd := true, va := true, fmts := [8], arg := 0x1FF }
  | 0x3D => some { vd := true, va := true, fmts := [8], arg := 0x03F }
  | _ => none

/-- The ranges that single operations state beside Table 4.7. -/
def vxRange (op : Nat) (a : VxArgs) : Bool :=
  let p := a.arg % 64
  match op with
  | 0x02 => a.fmt != 0 || (a.mode == 0 && !a.sat)
  | 0x06 => a.fmt != 0 || (a.mode == 0 && !a.sat)
  | 0x0C => a.arg % 4 < 2 || a.arg / 4 % 4 < 2
  | 0x1E => a.arg % 8 < 6 && 0 < a.arg / 8 % 8
  | 0x2C => a.va % 2 == 0 && a.vd % 2 == 0
  | 0x2D => a.va % 2 == 0 && a.vd % 2 == 0 && a.va != a.vd
  | 0x30 => p + 11 ≤ 63 && a.va ≤ 29 && a.vd ≤ 29
  | 0x31 => p + 3 ≤ 63 && a.va ≤ 29 && a.vd ≤ 30
  | 0x32 => p + 4 ≤ 63 && a.va ≤ 30 && a.vd ≤ 29
  | 0x33 => p + 6 ≤ 63 && a.va ≤ 29
  | 0x38 => p ≤ 58
  | 0x39 =>
    let kind := a.arg / 256 % 4
    !(1 ≤ a.arg % 256 && a.arg % 256 ≤ 3) && kind != 3 && a.fmt == (if kind = 1 then 8 else 9)
  | 0x3C => p ≤ 62 && a.vd ≤ 30
  | 0x3D => p ≤ 49 && a.vd ≤ 27 && a.va ≤ 25
  | _ => true

/-- R145: whether a VX operation with these fields is not a reserved encoding. -/
def vxOk (op : Nat) (a : VxArgs) : Bool :=
  match vxForm op with
  | none => false
  | some f =>
    a.vd < 32 && a.va < 32 && a.vb < 32 && a.vc < 32 && a.mask < 8 && a.mode < 3 &&
    (f.vd || a.vd == 0) && (f.va || a.va == 0) && (f.vb || a.vb == 0) && (f.vc || a.vc == 0) &&
    f.fmts.contains a.fmt && (f.md || a.mode == 0) && (f.sat || !a.sat) && (a.arg &&& f.arg) == a.arg && vxRange op a

/-- Whether a VX field is not reserved. -/
def vxFieldOk (w : Nat) : Bool := w == 0 || vxOk (bitsN w 42 6) (vxArgs w)

/-- Table 5.5, Table 5.6: the MV encodings that are not reserved, by operation: SCLAIM, SCOMMIT, MCOPY and MTRANS. -/
def mvFieldOk (w : Nat) : Bool :=
  match bitsN w 28 4 with
  | 0 => w == 0
  | 1 => bitsN w 9 19 == 0
  | 2 => bitsN w 9 19 == 0
  | 3 => bitsN w 0 16 == 0
  | 4 => bitsN w 22 2 < 3 && bitsN w 8 14 != 0 && bitsN w 5 3 == 0
  | _ => false

/-- Table 3.6: the CTL encodings that are not reserved. An operand bit that the operation does not use is 0. -/
def ctlFieldOk (w : Nat) : Bool :=
  match bitsN w 11 4 with
  | 0 => bitsN w 0 11 == 0
  | 1 => bitsN w 9 2 == 0
  | 2 => bitsN w 9 2 == 0
  | 3 => bitsN w 9 2 == 0
  | 4 => true
  | 5 => true
  | _ => false

/-- Table 5.8: the operands of XFER or XPRE. -/
def xArgs (w : Nat) : XArgs :=
  { src := bitsN w 58 2, dst := bitsN w 56 2, len := bitsN w 44 12, rows := bitsN w 36 8, pf := bitsN w 33 3,
    swait := bitN w 32, srel := bitN w 31, commit := bitN w 30, nomerge := bitN w 29, nest := bitsN w 21 8,
    step := bitsN w 19 2 }

/-- R181, R188, R189: the XFER and XPRE operands that are not reserved, as far as the field alone says. -/
def xOk (pre : Bool) (a : XArgs) : Bool :=
  a.src < 4 && a.dst < 4 && a.len < 4096 && a.rows < 256 && a.nest < 256 && a.step < 4 &&
  (if pre then a.pf == 0 else a.pf ≤ 4 && a.nest == 0 && a.step == 0)

/-- R191: the operands of RING. -/
def ringArgs (w : Nat) : RArgs :=
  { mask := bitsN w 56 4, dir := bitN w 55, src := bitsN w 53 2, dst := bitsN w 51 2, len := bitsN w 37 14, rows := 0,
    swait := bitN w 36, srel := bitN w 35, commit := bitN w 34 }

/-- R192: the operands of HALO. -/
def haloArgs (w : Nat) : RArgs :=
  { mask := bitsN w 56 4, dir := false, src := bitsN w 54 2, dst := bitsN w 52 2, len := bitsN w 40 12,
    rows := bitsN w 32 8, swait := bitN w 31, srel := bitN w 30, commit := bitN w 29 }

/-- R191: the member mask of RING has 2 to 4 members, all below the class's cores. -/
def maskOk (cores m : Nat) : Bool := m < 2 ^ cores && 2 ≤ popN 4 m

/-- R92, R185, R186: whether a cluster slot is not reserved, given the cores per cluster of the class. -/
def kslotOk (cores w : Nat) : Bool :=
  match bitsN w 60 4 with
  | 0 => bitsN w 0 60 == 0
  | 1 => bitsN w 8 52 == 0
  | 2 => bitsN w 0 19 == 0 && xOk false (xArgs w)
  | 3 => bitsN w 0 19 == 0 && xOk true (xArgs w)
  | 4 => bitsN w 0 34 == 0 && maskOk cores (bitsN w 56 4)
  | 5 => bitsN w 0 29 == 0
  | 6 => bitsN w 0 37 == 0
  | 7 => bitsN w 0 60 == 0
  | _ => false

/-! ### Accesses of fields (Table 4.3, Table 4.8, Table 5.6, R542) -/

/-- One use of a stream: the stream, what is added to the beat index, the last beat index that acts, the bytes, and, where the
index of a window form stands in the beat index's place, the largest it takes (R238). -/
structure Use where
  st : Nat
  off : Nat
  last : Option Nat
  len : Nat
  wrap : Option Nat := none
  deriving DecidableEq, Repr

/-- R233, R241: the bytes from stream A's address on in which the window reads of a tile lie: its rows, columns and `blks` channel
blocks. -/
def winSpan (w : Win) (blks : Nat) : Nat := (w.trows - 1) * w.rp + (w.tcols - 1) * winBB w + (blks - 1) * w.cbp + winBB w

/-- R238: the tap quads of a window. -/
def winNQ (w : Win) : Nat := cdiv (w.kh * w.kw) 4

/-- The streams that a VX field uses in each beat; `win` is the window in force, if its VWIN is 1 (R232).
Assumption log: 57 (DEDUCED). -/
def vxUses (win : Option Win) (w : Nat) : List Use :=
  let a := vxArgs w
  let st := a.arg / 1024
  let wd := fmtBits a.fmt
  match bitsN w 42 6, (if bitsN w 42 6 = 0x20 ∧ a.va = 31 ∨ bitsN w 42 6 = 0x01 ∧ st = 0 then win else none) with
  | 0x20, some v => [⟨0, 0, none, winSpan v 1, some 0⟩, ⟨1, 0, none, 256, some (winNQ v - 1)⟩]
  | 0x01, some v => [⟨0, 0, none, winSpan v 1, some 0⟩]
  | op, _ => match op with
  | 0x01 => [⟨st, 0, none, if a.fmt = 0xB then 32 else if a.fmt = 0xC then 48 else 8 * wd, none⟩]
  | 0x02 => [⟨st, 0, none, 8 * wd, none⟩]
  | 0x03 => [⟨st, 0, none, 256, none⟩]
  | 0x04 => [⟨st, 0, none, 256, none⟩]
  | 0x05 => [⟨st, 0, none, 1, none⟩]
  | 0x06 => [⟨st, 0, none, 1, none⟩]
  | 0x07 => [⟨st, 0, none, 4, none⟩]
  | 0x08 => [⟨st, 0, none, 256, none⟩]
  | 0x09 => [⟨st, 0, some 8, 256, none⟩]
  | 0x0A => [⟨st, 0, some 2, 256, none⟩]
  | 0x0B =>
    let r := a.arg / 32 % 64
    ⟨3, r, none, 4, none⟩ :: (if bitN a.arg 4 then [] else [⟨2, r, none, 256, none⟩])
  | _ => []

/-- The streams that an MX field uses: A by rows, or by the window in force (R233), B, and AUX for FP8.
Assumption log: 57 (DEDUCED). -/
def mxUses (win : Option Win) (w : Nat) : List Use :=
  let m := mxArgs w
  match pairOf m.wfmt m.afmt with
  | none => []
  | some p =>
    let blk := 64 * bPitch p
    let sc := if m.sub32 then 128 else 64
    let rows : Use := match win with
      | some v => ⟨0, 0, none, winSpan v (max (winNB p) (v.cinp / winCpb v)), some 0⟩
      | none => ⟨0, m.rows, none, aBytes p, none⟩
    [rows, ⟨1, 0, none, if p = .f8 then 4096 + sc else blk, none⟩] ++
      (if p = .f8 then [⟨3, 0, none, sc, none⟩] else [])

/-- The streams that an MV field uses in each beat: MCOPY and MTRANS. -/
def mvUses (w : Nat) : List Use :=
  match bitsN w 28 4 with
  | 3 =>
    let len := bitsN w 16 8 + 1
    [⟨bitsN w 26 2, 0, none, len, none⟩, ⟨bitsN w 24 2, 0, none, len, none⟩]
  | 4 =>
    let e := 2 ^ bitsN w 22 2
    let n := bitsN w 0 5 + 1
    [⟨bitsN w 26 2, 0, none, (n - 1) * bitsN w 8 14 * 32 + e, none⟩, ⟨bitsN w 24 2, 0, none, n * e, none⟩]
  | _ => []

end Sys2Proof.Machine
end

