-- ==== Sys2Proof/Machine/Scan.lean ====
section
/-! DEFINITION. The program scan (03 section 9: R541, Table 3.16, R542): its checks over the banks of the placement. -/

namespace Sys2Proof.Machine
open Sys2Proof

/-- R112: whether a run of bar-store bytes touches a poisoned or uncorrectable 64-bit word (SECDED: two damaged bits). -/
def barBad (s : State) (a n : Nat) : Bool :=
  (upto ((a + n - 1) / 8 + 1 - a / 8)).any fun i =>
    mget flag0 s.mem.barPois (a / 8 + i) || 1 < mget nat0 s.mem.barEcc (a / 8 + i)

/-- R97: BAR_COUNT of cluster k's program record. -/
def barCount (s : State) (k : Nat) : Nat := baseReg s k 7 1 % 2 ^ 21

/-- R77: the segments of a bank from offset `off` on, with their offsets, up to n of them; it stops where one would pass
0xE_FFFF (check 1). -/
def walkBank (s : State) (k : Nat) : Nat → Nat → Nat → List (BarSeg × Nat)
  | _, _, 0 => []
  | b, off, n + 1 =>
    if 0xF0000 < off + 8 then []
    else
      let len := segLen (hdrOf (leNat (ramGet s (bankBase k + off) 8))) k
      if 0xF0000 < off + len then []
      else (segOf k b (ramGet s (bankBase k + off) len), off) :: walkBank s k (b + 1) (off + len) n

/-- The segment of bar b of cluster k, if the bank holds it. -/
def segAt (s : State) (k b : Nat) : Option BarSeg := (walkBank s k 0 0 (b + 1))[b]?.map fun x => x.1

/-- The offset of bar b in cluster k's bank. -/
def segOff (s : State) (k b : Nat) : Nat :=
  match (walkBank s k 0 0 (b + 1))[b]? with
  | some x => x.2
  | none => 0

/-- The nest that a cluster slot enters, if it is a NEST. -/
def nestOf (g : BarSeg) : Option Nat :=
  match g.kslot with
  | some w => if bitsN w 60 4 = 1 then some (w % 256) else none
  | none => none

/-- The descriptor number that a cluster slot names, by NEST or XPRE (R541). -/
def namedNest (g : BarSeg) : Option Nat :=
  match g.kslot with
  | some w => if bitsN w 60 4 = 1 then some (w % 256) else if bitsN w 60 4 = 3 then some (xArgs w).nest else none
  | none => none

/-- R101: whether a header carries a portable tie-point of the placement. -/
def portable (pl : Nat) (h : BarHdr) : Bool := h.tie && h.port && h.tpart == pl

/-- The product of the plan maxima of the levels below `upTo`. -/
def planProd (d : NestDesc) (upTo : Nat) : Nat := (upto (min upTo d.levels)).foldl (fun a i => a * (lvlAt d i).bound) 1

/-! ### Bank-wide checks (R541) -/

/-- R541 checks 2 to 4 on the bank of cluster k, against the program record of cluster k0.
Assumption log: 57 (DEDUCED). -/
def bankWide (s : State) (k0 k : Nat) : Nat :=
  let r (a i : Nat) := baseReg s k a i
  if barCount s k = 0 ∨ 2 ^ 20 < barCount s k then 0x23
  else if (upto 16).any fun i => r 7 i != baseReg s k0 7 i then 0x24
  else if ((upto 5).any fun a => (upto 16).any fun i => 2 ^ 46 ≤ r a i) ||
      ([5, 6].any fun a => (upto 16).any fun i => r a i != 0) ||
      2 ^ 32 ≤ r 7 0 || 2 ^ 21 ≤ r 7 1 || ((upto 14).any fun i => r 7 (i + 2) != 0) then 0x26
  else 0

/-! ### Descriptors (checks 4 and 5) -/

/-- R94, R95, check 4: a nonzero reserved field of a descriptor, from its 48 words. -/
def descReserved (ws : List Nat) : Bool :=
  let w (i : Nat) := ws.getD i 0
  let n := w 0 % 8
  let legal := decide (1 ≤ n) && decide (n ≤ 6)
  8 ≤ w 0 || 2 ^ 20 ≤ w 1 || 2 ^ 20 ≤ w 2 || 2 ^ 24 ≤ w 3 ||
  ((upto 4).any fun i => bitsN (w (5 + 2 * i)) 4 11 != 0) ||
  (legal && ((upto n).any fun i => bitsN (w (12 + 5 * i)) 28 4 != 0)) ||
  (legal && ((upto (6 - n)).any fun i => (upto 5).any fun j => w (12 + 5 * (n + i) + j) != 0)) ||
  ((upto 6).any fun i => w (42 + i) != 0)

/-- R94, R95, check 5: a descriptor that is not a nest of a program of `cnt` bars. -/
def descInvalid (ws : List Nat) (cnt : Nat) : Bool :=
  let d := descOf ws
  let n := ws.getD 0 0 % 8
  n == 0 || n == 7 || d.bodyLast < d.bodyFirst || cnt ≤ d.bodyLast ||
  ((upto 3).any fun p =>
    let a := (lvlAt d (2 * p)).outer
    let b := (lvlAt d (2 * p + 1)).outer
    if 2 * p + 1 < n then a == b else 2 * p < n && a) ||
  1 < (d.src.filter (· == 0xF)).length

/-- The words of the descriptor of nest n. -/
def descWords (s : State) (k n : Nat) : List Nat := leWords (ramGet s (descBase k n) 0xC0)

/-! ### Matrix spacing (check 6) -/

/-- One bar: the beats since each position's last MX issue (cut at 64), and whether an issue comes too early. -/
def mxBar (g : BarSeg) (d : List Nat) : Bool × List Nat :=
  let iss (p : Nat) := g.slots.any fun x => x.1 == p && slotMx x.2 != 0
  ((upto 4).any fun p => iss p && d.getD p 64 < 64,
   (upto 4).map fun p => min 64 ((if iss p then 0 else d.getD p 64) + g.hdr.rep + 1))

/-- A run of bars: the bars whose issue comes too early, and the beats at its end. -/
def mxRun : List BarSeg → List Nat → List Nat × List Nat
  | [], d => ([], d)
  | g :: gs, d =>
    let (bad, d) := mxBar g d
    let (r, d) := mxRun gs d
    (if bad then g.bar :: r else r, d)

/-- Check 6 over the bars of one bank, over every body wrap and every path that skips a body. A bar whose nest check 5 refuses
ends the walk, and nothing of it runs on into bar 0.
Assumption log: 57 (DEDUCED). -/
def mxWalk (s : State) (k : Nat) (segs : List BarSeg) : Nat → Nat → List Nat → List Nat × List Nat
  | 0, _, d => ([], d)
  | fuel + 1, b, d =>
    match segs[b]? with
    | none => ([], d)
    | some g =>
      let (bad, d1) := mxBar g d
      let here := if bad then [b] else []
      match nestOf g with
      | none =>
        let (r, d) := mxWalk s k segs fuel (b + 1) d1
        (here ++ r, d)
      | some n =>
        let ws := descWords s k n
        let ds := descOf ws
        if descInvalid ws segs.length || ds.bodyFirst != b + 1 then (here, [64, 64, 64, 64])
        else
          let body := slice segs (b + 1) (ds.bodyLast - b)
          let t := planProd ds 6
          let len := body.foldl (fun a g => a + g.hdr.rep + 1) 0
          let (r1, e1) := if t = 0 then ([], d1) else mxRun body d1
          let (r2, e2) := if 1 < t then mxRun body e1 else ([], e1)
          let iss (p : Nat) := body.any fun g => g.slots.any fun x => x.1 == p && slotMx x.2 != 0
          let e := (upto 4).map fun p => if iss p then e2.getD p 64 else min 64 (d1.getD p 64 + t * len)
          let skip := t == 0 || ds.src.any (· != 0)
          let e := (upto 4).map fun p => if skip then min (e.getD p 64) (d1.getD p 64) else e.getD p 64
          let (r, d) := mxWalk s k segs fuel (ds.bodyLast + 1) e
          (here ++ r1 ++ r2 ++ r, d)

/-- Check 6: the bars that it refuses; the program is a cycle (R75). -/
def mxFails (s : State) (k : Nat) (segs : List BarSeg) : List Nat :=
  let fuel := segs.length + 1
  let (r, d) := mxWalk s k segs fuel 0 [64, 64, 64, 64]
  r ++ (mxWalk s k segs fuel 0 d).1

/-! ### Tie spacing (check 7, section 9.2) -/

/-- The gap computation: the bar at which it refuses, if it does. -/
def gapWalk (s : State) (k pl : Nat) (segs : List BarSeg) : Nat → Nat → Nat → Option Nat
  | 0, _, _ => none
  | fuel + 1, b, gap =>
    match segs[b]? with
    | none => none
    | some g =>
      let gap := gap + g.hdr.rep + 1
      match nestOf g with
      | some n =>
        let ws := descWords s k n
        let ds := descOf ws
        if descInvalid ws segs.length || ds.bodyFirst != b + 1 then none
        else
          let bars := slice segs (b + 1) (ds.bodyLast - b)
          let body := bars.foldl (fun a g => a + g.hdr.rep + 1) 0
          match bars.find? fun g => portable pl g.hdr with
          | some t =>
            let sweep := body * planProd ds t.hdr.tieLvl
            if 65536 < gap + sweep then some b
            else gapWalk s k pl segs fuel (ds.bodyLast + 1) sweep
          | none =>
            let gap := gap + body * planProd ds 6
            if 65536 < gap then some b else gapWalk s k pl segs fuel (ds.bodyLast + 1) gap
      | none =>
        let gap' := if portable pl g.hdr then 0 else gap
        if 65536 < gap' then some b else gapWalk s k pl segs fuel (b + 1) gap'

/-! ### Bar checks -/

/-- What the scan carries along a bank: the descriptors named so far, the loaded nest, the nest that stays loaded when the program
wraps into bar 0 (R75, R98), the BOUND_LDs of the interval, and the held fields of each position with the beat
index that follows (R84). -/
structure ScanK where
  named : List Nat := []
  nest : Option Nat := none
  wnest : Option Nat := none
  lds : Nat := 0
  held : List (Nat × Nat × Nat × Nat) := []
  deriving DecidableEq, Repr

/-- A use of a stream by a core field at bar b: position, stream use, first and last beat index. -/
structure UseAt where
  pos : Nat
  use : Use
  j0 : Nat
  j1 : Nat
  deriving DecidableEq, Repr

/-- The beat indices that a use covers when its field acts in beats j0 to j1. -/
def useBeats (p : Nat) (j0 j1 : Nat) (u : Use) : List UseAt :=
  match u.wrap, u.last with
  | some m, _ => [⟨p, u, 0, min j1 m⟩]
  | none, none => [⟨p, u, j0, j1⟩]
  | none, some m => if m < j0 then [] else [⟨p, u, j0, min j1 m⟩]

/-- Whether a position has a slot in a bar. -/
def slotIn (g : BarSeg) (p : Nat) : Bool := g.slots.any fun x => x.1 == p

/-- The beats of a run of bars. -/
def beatsOf (gs : List BarSeg) : Nat := gs.foldl (fun a g => a + g.hdr.rep + 1) 0

/-- The bars of a nest body. -/
def bodyBars (gs : List BarSeg) (d : NestDesc) : List BarSeg := slice gs d.bodyFirst (d.bodyLast + 1 - d.bodyFirst)

/-- R84: what the further passes of a body add to the beat index of a slot that is held through it all.
Assumption log: 57 (DEDUCED). -/
def holdExt (gs : List BarSeg) (d : Option NestDesc) (p : Nat) : Nat :=
  match d with
  | some d => if (bodyBars gs d).any fun g => slotIn g p then 0 else (planProd d 6 - 1) * beatsOf (bodyBars gs d)
  | none => 0

/-- R84: a slot that is held at the end of a body acts again, in the next pass, in the bars before its first presence: its VX and
MV fields and the beat index, at bar g of position p.
Assumption log: 57 (DEDUCED). -/
def holdWrap (gs : List BarSeg) (d : Option NestDesc) (g : BarSeg) (p : Nat) : List (Nat × Nat × Nat × Nat) :=
  match d with
  | some d =>
    let b := g.bar
    if planProd d 6 < 2 || (slice gs d.bodyFirst (b + 1 - d.bodyFirst)).any fun g => slotIn g p then []
    else match (bodyBars gs d).reverse.find? fun g => slotIn g p with
      | some y => (y.slots.filter fun x => x.1 == p && bitN (slotCtl x.2) 15 && vxFieldOk (slotVx x.2) && mvFieldOk (slotMv x.2)).map fun x =>
          (p, slotVx x.2, slotMv x.2, beatsOf (slice gs y.bar (d.bodyLast + 1 - y.bar)) + beatsOf (slice gs d.bodyFirst (b - d.bodyFirst)))
      | none => []
  | none => []

/-- The stream uses of the core fields that act in a bar: present slots, and held slots of absent positions. `gs` are the bars of
the bank, `d` the nest whose body the bar lies in, and `win` its window entry, if its EN is 1 (R232).
Assumption log: 57 (DEDUCED). -/
def coreUses (z : ScanK) (gs : List BarSeg) (d : Option NestDesc) (win : Option Win) (g : BarSeg) : List UseAt :=
  let vwin := win.filter fun w => w.vwin
  (g.slots.flatMap fun x =>
    let mx := (mxUses win (slotMx x.2)).map fun u => (⟨x.1, u, 0, if u.st = 0 then u.off else 0⟩ : UseAt)
    let mx := mx.map fun u => { u with use := { u.use with off := 0 } }
    mx ++ (vxUses vwin (slotVx x.2) ++ mvUses (slotMv x.2)).flatMap (useBeats x.1 0 g.hdr.rep)) ++
  ((z.held.filter fun h => !slotIn g h.1).flatMap fun h =>
    (vxUses vwin h.2.1 ++ mvUses h.2.2.1).flatMap (useBeats h.1 h.2.2.2 (h.2.2.2 + g.hdr.rep + holdExt gs d h.1))) ++
  ((upto 4).flatMap fun p => (holdWrap gs d g p).flatMap fun h =>
    (vxUses vwin h.2.1 ++ mvUses h.2.2.1).flatMap (useBeats h.1 h.2.2.2 (h.2.2.2 + g.hdr.rep)))

/-- R542: the lowest and highest byte of a use of stream st, through base record `rec`, over the beats j0 to j1 and every
index vector of the plan. -/
def rangeOf (s : State) (k rec : Nat) (d : NestDesc) (inBody : Bool) (st j0 j1 len : Nat) : Int × Int :=
  let x := d.strm.getD st ⟨0, 0, false, 0⟩
  let a := (baseReg s k rec x.base : Int) + x.off
  let steps := (upto (if inBody then d.levels else 0)).map fun i =>
    ((lvlAt d i).bound - 1 : Nat) * (lvlAt d i).str.getD st 0
  let lo := steps.foldl (fun (t : Int) v => t + min 0 v) a
  let hi := steps.foldl (fun (t : Int) v => t + max 0 v) a
  let u := (j0 : Int) * x.inc
  let v := (j1 : Int) * x.inc
  (lo + min u v, hi + max u v + (len : Int))

/-- Whether a range lies in [lo, hi). -/
def within (r : Int × Int) (lo hi : Nat) : Bool := (lo : Int) ≤ r.1 && r.2 ≤ (hi : Int)

/-- Whether a descriptor enables a stream. -/
def strmEn (d : NestDesc) (st : Nat) : Bool := (d.strm.getD st ⟨0, 0, false, 0⟩).en

/-- The streams that a cluster slot names in its own cluster's loaded nest. -/
def kslotStreams (w : Nat) : List Nat :=
  match bitsN w 60 4 with
  | 2 => [(xArgs w).src, (xArgs w).dst]
  | 4 => [(ringArgs w).src, (ringArgs w).dst]
  | 5 => [(haloArgs w).src, (haloArgs w).dst]
  | 6 => if bitsN w 52 2 = 0 then [bitsN w 50 2] else []
  | _ => []

/-- The byte ranges of the endpoints of a cluster slot's transfers, over every index vector of the plan. -/
def kslotEnds (s : State) (k w : Nat) (d : NestDesc) (inBody : Bool) : List (Int × Int) :=
  let r (rec : Nat) (d : NestDesc) (body : Bool) (st rows len : Nat) := rangeOf s k rec d body st 0 rows len
  match bitsN w 60 4 with
  | 2 =>
    let a := xArgs w
    [r 4 d inBody a.src a.rows ((a.len + 1) * 32), r 4 d inBody a.dst a.rows ((a.len + 1) * 32)]
  | 3 =>
    let a := xArgs w
    let m := descAt s k a.nest
    [r 4 m true a.src a.rows ((a.len + 1) * 32), r 4 m true a.dst a.rows ((a.len + 1) * 32)]
  | 4 =>
    let a := ringArgs w
    (bitList 4 a.mask).flatMap fun p => [r p d inBody a.src 0 ((a.len + 1) * 256), r p d inBody a.dst 0 ((a.len + 1) * 256)]
  | 5 =>
    let a := haloArgs w
    (bitList 4 a.mask).flatMap fun p =>
      [r p d inBody a.src a.rows ((a.len + 1) * 32), r p d inBody a.dst a.rows ((a.len + 1) * 32)]
  | 6 => if bitsN w 52 2 = 0 then [r 4 d inBody (bitsN w 50 2) 0 ((bitsN w 38 12 + 1) * 32)] else []
  | _ => []

/-- Check 10 on a cluster slot: every transfer endpoint stays in [0, 2^46). -/
def kslotRange (s : State) (k w : Nat) (d : NestDesc) (inBody : Bool) : Bool :=
  (kslotEnds s k w d inBody).all fun x => within x 0 (2 ^ 46)

/-- Check 4 on the slots of a bar.
Assumption log: 57 (DEDUCED). -/
def slotsReserved (s : State) (k cores : Nat) (inBody : Bool) (g : BarSeg) : Bool :=
  (g.slots.any fun x => !(mxFieldOk (slotMx x.2) && vxFieldOk (slotVx x.2) && mvFieldOk (slotMv x.2) &&
    ctlFieldOk (slotCtl x.2))) ||
  match g.kslot with
  | none => false
  | some w =>
    !kslotOk cores w || (bitsN w 60 4 == 2 && (xArgs w).pf != 0 && !inBody) ||
    (bitsN w 60 4 == 3 && (descAt s k (xArgs w).nest).src.any (· == 0xF))

/-- Check 8: a tie-point outside R101 and R102; `ties` counts the tie-point bars of the body.
Assumption log: 57 (DEDUCED). -/
def tieBad (pl cnt b : Nat) (d : Option NestDesc) (ties : Nat) (h : BarHdr) : Bool :=
  let last := b + 1 == cnt
  if !h.tie then h.tpart != 0 || h.cg || h.port || h.tieLvl != 0 || last
  else
    let sub := h.tpart != 0 && (h.tpart &&& pl) == h.tpart
    !sub || (h.tpart != pl && (h.cg || h.port)) || (last && !portable pl h) ||
    match d with
    | none => h.tieLvl != 0
    | some d => d.levels < h.tieLvl || 1 < ties || d.src.any (· == 0xF)

/-- The checks 4 to 10 of bar b in the bank of cluster k, in order; 0 where all pass. `nests` are the NEST bars of the
bank, `names` the descriptors that its NESTs and XPREs name, `gs` its bars, and `recs` the BARs of the portable tie-point
table (R119). -/
def barCheck (s : State) (k pl cores cnt : Nat) (nests : List (Nat × Nat)) (names : List Nat) (mxf : List Nat) (gap : Option Nat)
    (recs : List Nat) (gs : List BarSeg) (z : ScanK) (g : BarSeg) : Nat :=
  let b := g.bar
  let loaded := z.nest.map fun n => descAt s k n
  let body := match loaded with
    | some d => if d.bodyFirst ≤ b ∧ b ≤ d.bodyLast then some d else none
    | none => none
  let inBody := body.isSome
  let fresh := match namedNest g with
    | some n => if z.named.contains n then none else some n
    | none => none
  let win := match z.nest with
    | some n => if inBody && (winAt s k n).en then some (winAt s k n) else none
    | none => none
  let uses := coreUses z gs body win g
  let dOf (u : UseAt) : Option NestDesc := if loaded.isNone && !slotIn g u.pos then z.wnest.map fun n => descAt s k n else loaded
  let ctl (op : Nat) := g.slots.filter fun x => bitsN (slotCtl x.2) 11 4 == op
  let kst := match g.kslot with
    | some w => kslotStreams w
    | none => []
  let lds := (if (nestOf g).isSome then 0 else z.lds) + (ctl 3).length
  let c4 := slotsReserved s k cores inBody g || (match fresh with
    | some n => descReserved (descWords s k n)
    | none => false)
  let c5 := (match fresh with
      | some n =>
        let d := descAt s k n
        descInvalid (descWords s k n) cnt || (nests.any fun e => d.bodyFirst ≤ e.1 && e.1 ≤ d.bodyLast) ||
          names.any fun m => m != n && ((descAt s k m).bodyFirst ≤ d.bodyLast && d.bodyFirst ≤ (descAt s k m).bodyLast)
      | none => false) ||
    (match nestOf g with
      | some n =>
        let d := descAt s k n
        d.bodyFirst != b + 1 || inBody || nests.any fun e => e.1 != b &&
          ((d.bodyFirst ≤ e.1 && e.1 ≤ d.bodyLast) ||
            ((descAt s k e.2).bodyFirst ≤ d.bodyLast && d.bodyFirst ≤ (descAt s k e.2).bodyLast))
      | none => false) ||
    1 < lds ||
    ((ctl 4).any fun x => match body with
      | some d => d.levels ≤ bitsN (slotCtl x.2) 8 3
      | none => true) ||
    (uses.any fun u => match dOf u with
      | none => true
      | some d => !strmEn d u.use.st) ||
    (match loaded with
      | none => !kst.isEmpty
      | some d => kst.any fun st => !strmEn d st) ||
    (match g.kslot with
      | some w => bitsN w 60 4 == 3 &&
          [(xArgs w).src, (xArgs w).dst].any fun st => !strmEn (descAt s k (xArgs w).nest) st
      | none => false)
  let port := portable pl g.hdr
  let c9 := (port != recs.contains b) || (b + 1 == cnt && recs.any (cnt ≤ ·))
  let d0 : NestDesc := loaded.getD ⟨0, 0, 0, [], [], []⟩
  let c10 := (uses.any fun u => match mapPos s k u.pos with
      | none => true
      | some n => !within (rangeOf s k u.pos ((dOf u).getD d0) inBody u.use.st (u.j0 + u.use.off) (u.j1 + u.use.off) u.use.len)
          (glob s (memBase n)) (glob s (memBase n) + 0x200000)) ||
    (match g.kslot with
      | some w => !kslotRange s k w d0 inBody
      | none => false)
  if c4 then 0x26 else if c5 then 0x27 else if mxf.contains b then 0x28 else if gap == some b then 0x29
  else if tieBad pl cnt b body (match body with
      | some d => ((bodyBars gs d).filter fun y => y.hdr.tie).length
      | none => 0) g.hdr then 0x2A else if c9 then 0x2B
  else if c10 then 0x33 else 0

/-- What the scan carries past a bar. -/
def scanNext (s : State) (k : Nat) (gs : List BarSeg) (z : ScanK) (g : BarSeg) : ScanK :=
  let nm := match namedNest g with
    | some n => if z.named.contains n then z.named else z.named ++ [n]
    | none => z.named
  let lds := (if (nestOf g).isSome then 0 else z.lds) + (g.slots.filter fun x => bitsN (slotCtl x.2) 11 4 == 3).length
  let nest := match nestOf g with
    | some n => some n
    | none => z.nest
  let last := match z.nest.map fun n => descAt s k n with
    | some d => if g.bar = d.bodyLast then some d else none
    | none => none
  let held := (upto 4).flatMap fun p =>
    match g.slots.find? fun x => x.1 == p with
    | some x => if bitN (slotCtl x.2) 15 && vxFieldOk (slotVx x.2) && mvFieldOk (slotMv x.2) then [(p, slotVx x.2, slotMv x.2, g.hdr.rep + 1)] else []
    | none => (z.held.filter fun h => h.1 == p).map fun h => (p, h.2.1, h.2.2.1, h.2.2.2 + g.hdr.rep + 1 + holdExt gs last p)
  ⟨nm, nest, z.wnest, lds, held⟩

/-- R75, R84: what the program's wrap carries into bar 0 of a bank: the slots that stay held, and the nest that stays loaded. The
BOUND_LDs of R90 are counted afresh from bar 0 on.
Assumption log: 57 (DEDUCED), 80 (DESIGN CHOICE). -/
def scanStart0 (s : State) (k : Nat) (gs : List BarSeg) : ScanK :=
  let e := gs.foldl (scanNext s k gs) {}
  { wnest := e.nest, held := e.held }

/-- A bank under scan. -/
structure ScanBank where
  k : Nat
  segs : List (BarSeg × Nat)
  nests : List (Nat × Nat)
  names : List Nat
  mxf : List Nat
  gap : Option Nat
  deriving DecidableEq, Repr

/-- R112: the runs of bar-store bytes that serve bar g of cluster k beside its segment: the descriptor that it names, and the base
records of the positions and the cluster slot that it holds. -/
def barServes (k : Nat) (g : BarSeg) : List (Nat × Nat) :=
  let recs := (g.slots.map fun x => x.1) ++ (if g.kslot.any (· != 0) then [4] else [])
  (match namedNest g with
    | some n => [(descBase k n, 0xC0)]
    | none => []) ++ recs.map fun r => (bankBase k + 0xFC000 + r * 0x80, 0x80)

/-- R112: whether the scan reads a bad word for bar b of a bank: in its segment, or in what serves it. -/
def scanEcc (s : State) (bk : ScanBank) (x : BarSeg × Nat) : Bool :=
  barBad s (bankBase bk.k + x.2) (segLen x.1.hdr bk.k) || (barServes bk.k x.1).any fun y => barBad s y.1 y.2

/-- The place of a code in the order of Table 3.16. -/
def codeRank (c : Nat) : Nat := if c = 0x33 then 0x2C else c

/-- The first check, in the order of Table 3.16, at which a bank of a list gives a code, and the first cluster whose bank does.
Assumption log: 57 (DEDUCED). -/
def firstCode : List (ScanBank × ScanK) → (ScanBank → ScanK → Nat) → Option (Nat × Nat)
  | [], _ => none
  | (b, z) :: r, f =>
    let c := f b z
    match firstCode r f with
    | none => if c ≠ 0 then some (c, b.k) else none
    | some (c', k') => if c ≠ 0 ∧ codeRank c ≤ codeRank c' then some (c, b.k) else some (c', k')

/-- Table 3.16 in bar order: the code, cluster and bar of the first failure. A bad word of R112 ranks behind check 1 and before
check 2.
Assumption log: 80 (DESIGN CHOICE). -/
def scanBars (s : State) (pl cores cnt : Nat) (recs : List Nat) : Nat → Nat → List (ScanBank × ScanK) →
    Option (Nat × Nat × Nat)
  | 0, _, _ => none
  | fuel + 1, b, bs =>
    let seg (bk : ScanBank) : Option (BarSeg × Nat) := bk.segs[b]?
    let hdr (bk : ScanBank) := (seg bk).map fun x => x.1.hdr
    let h0 := match bs with
      | [] => none
      | x :: _ => hdr x.1
    let pres (h : BarHdr) : Bool :=
      ((upto 32).any fun i => bitN h.cpres i && (!bitN pl (i / 4) || cores ≤ i % 4)) ||
      (upto 8).any fun i => bitN h.kpres i && !bitN pl i
    let r := (firstCode bs fun bk _ => if (seg bk).isNone then 0x23 else 0).orElse fun _ =>
      (firstCode bs fun bk _ => match seg bk with
        | some x => if scanEcc s bk x then 0x32 else 0
        | none => 0).orElse fun _ =>
      (firstCode bs fun bk _ => if hdr bk != h0 then 0x24 else 0).orElse fun _ =>
      (firstCode bs fun _ _ => match h0 with
        | some h => if pres h then 0x25 else 0
        | none => 0).orElse fun _ =>
      firstCode bs fun bk z => match seg bk with
        | some x => barCheck s bk.k pl cores cnt bk.nests bk.names bk.mxf bk.gap recs (bk.segs.map fun y => y.1) z x.1
        | none => 0
    match r with
    | some (code, k) => some (code, k, b)
    | none =>
      if b + 1 = cnt then none
      else scanBars s pl cores cnt recs fuel (b + 1) (bs.map fun x => (x.1, match seg x.1 with
        | some g => scanNext s x.1.k (x.1.segs.map fun y => y.1) x.2 g.1
        | none => x.2))

/-- A bank as the scan takes it up. -/
def scanBank (s : State) (pl cnt k : Nat) : ScanBank :=
  let segs := walkBank s k 0 0 cnt
  let gs := segs.map fun x => x.1
  { k := k, segs := segs, nests := gs.filterMap fun g => (nestOf g).map fun n => (g.bar, n),
    names := (gs.filterMap namedNest).eraseDups,
    mxf := mxFails s k gs, gap := gapWalk s k pl gs (cnt + 1) 0 0 }

/-- The result of a scan: the code, cluster and bar of the first failure (R541: 0xF_FFFF for a bank-wide check), or none
where every check passes. The failures of one check within a bar are reported in increasing cluster order.
Assumption log: 57 (DEDUCED). -/
def scanResult (s : State) (recs : List Nat) : Option (Nat × Nat × Nat) :=
  let pl := place s
  let ks := bitList 8 pl
  match ks with
  | [] => some (0x23, 0, 0xFFFFF)
  | k0 :: _ =>
    match ks.find? fun k => bankWide s k0 k != 0 with
    | some k => some (bankWide s k0 k, k, 0xFFFFF)
    | none =>
      let cnt := barCount s k0
      scanBars s pl (classCores (BitVec.ofNat 32 (baseReg s k0 7 0))) cnt recs cnt 0
        (ks.map fun k =>
          let bk := scanBank s pl cnt k
          (bk, if bk.segs.length = cnt then scanStart0 s k (bk.segs.map fun y => y.1) else {}))

end Sys2Proof.Machine
end

