-- ==== Sys2Proof/Machine/Program.lean ====
section
/-! DEFINITION. The chip program at run time (01 section 5, 03): blocked beats, fetch, bar store writes, tie-points, the
watchdog, the scan, enabling and stopping the engine, stepping nests, and the control field. -/

namespace Sys2Proof.Machine
open Sys2Proof

/-! ### Blocked beats (R37, R162, R196) -/

/-- BLOCKED_BEAT. `cs` are the causes that hold, as (stall set, cause) pairs; `acc` are words that bar-driven accesses of each
core position need in the beat beside those of the commands (which `bankConflicts` counts); their bank conflicts add
blocked beats of their own.
Assumption log: 9 (DESIGN CHOICE). -/
def execBlockedBeat (c : CAt) (cs : List (Nat × Nat)) (acc : List (Nat × List Nat)) (s : State) : Out :=
  let s := adv s c.cl c.dt
  let need := acc.map fun x => (x.1, extraBeats x.2)
  let n := need.foldl (fun m x => max m x.2) 0
  let s := if cs.isEmpty then s else blockedBeat s c.cl cs
  .next (conflictBeats s c.cl need n)

/-! ### Stopping (R108, R112, R124, R540) -/

/-- R173: every slot in FILLING of cluster k's memories becomes INVALID. -/
def slotsStop (s : State) (k : Nat) : State :=
  let stop (x : Nat × Slot) : Nat × Slot :=
    if memClu (x.1 / 512) = k ∧ x.2.tag = .filling then (x.1, { x.2 with tag := .invalid }) else x
  { s with mem := { s.mem with slots := s.mem.slots.map stop } }

/-- R540: what cluster k does with its transfers when the engine stops: the list empties, ring chunks are discarded, and
the held writes of its memories are discarded and acknowledged. -/
def xfersStop (s : State) (k : Nat) : State :=
  let s := updClu s k fun c => { c with xfers := [], ops := c.ops.filter fun o => !o.ring }
  let hs := s.mem.holds.filter fun h => memClu h.mem == k
  let s := { s with mem := { s.mem with holds := s.mem.holds.filter fun h => memClu h.mem != k } }
  foldS (fun s h => ackTo s h.owner h.xid h.ix (0x200000 * h.mem + 0x2000000000) h.job 0 0) hs s

/-- R124, R185: the QPOP READs of cluster k that wait, or whose wait has ended, are gone with its program. -/
def qpopStop (s : State) (k : Nat) : State :=
  let stop (t : Sq) : Sq := { t with waiting := t.waiting.filter (· != k), ended := t.ended.filter (· != k) }
  { s with vid := { s.vid with qs := s.vid.qs.map stop } }

/-- Cluster k stops before its next beat. -/
def cluStop (s : State) (k : Nat) : State :=
  slotsStop (updClu (qpopStop (xfersStop s k) k) k fun c => { c with running := false, waiting := false, parked := false, held := [], hit := [] }) k

/-- The engine stops: every cluster of the placement, RUNNING and PARKED, ENABLE, the arrivals and armed TIE groups. -/
def engineStop (s : State) : State :=
  let s := foldS cluStop (bitList 8 (place s)) s
  let s := wrB (wrB (wrB s rEngStatus 0 false) rEngStatus 1 false) rEngCtl 0 false
  loneDue (cgEngineStop { s with eng := { s.eng with arrived := [] } })

/-- R108 steps 1 to 4: the engine stops with a code, naming a cluster and its bar. -/
def engineFault (s : State) (code k bar : Nat) : State :=
  let s := engineStop s
  wrB (wr s rEngFault (BitVec.ofNat 32 (code * 2 ^ 24 + 2 ^ 20 * k + bar % 2 ^ 20))) rEngStatus 2 true

/-- The bar that cluster k is running. -/
def barOf (s : State) (k : Nat) : Nat :=
  match (clu s k).bar with
  | some g => g.bar
  | none => 0

/-! ### Fetch (R111, R112) -/

/-- R112: an injected upset of a stored 64-bit bar-store word: `b` more damaged bits.
Assumption log: 5 (DESIGN CHOICE). -/
def barUpset (s : State) (x : Nat × Nat) : State :=
  { s with mem := { s.mem with barEcc := mput nat0 (x.1 / 8) (mget nat0 s.mem.barEcc (x.1 / 8) + x.2) s.mem.barEcc } }

/-- R111: the fetch unit reads the next 64 bytes of the bank while its 1 KiB buffer has room. -/
def fetchMore (s : State) (k : Nat) : State :=
  let c := clu s k
  let a := c.fetchOff + c.fbuf.length
  if 1024 < c.fbuf.length + 64 then s
  else setClu s k { c with fbuf := c.fbuf ++ ramGet s (bankBase k + a) (min 64 (0x100000 - a)) }

/-- Moving the fetch pointer to a bar; the buffer refills from there. -/
def fetchAt (s : State) (k b : Nat) : State :=
  let b := if barCount s k = 0 then b else b % barCount s k
  updClu s k fun c => { c with fetchBar := b, fetchOff := segOff s k b, fbuf := [] }

/-- R111: execution goes on at bar b, as the nest counters and the end of the program say. The fetch unit has followed them, so
the bytes that it is ahead by are those from bar b on. -/
def fetchFollow (s : State) (k b : Nat) : State :=
  let off := segOff s k b
  updClu s k fun c =>
    { c with fetchBar := b, fetchOff := off, fbuf := ramGet s (bankBase k + off) (min c.fbuf.length (0x100000 - off)) }

/-- R84, R87: a core slot that is present in a new bar sets HOLD, ends the GUARD of its last bar and starts a new beat index. -/
def slotTake (s : State) (k : Nat) (x : Nat × Nat) : State :=
  match mapPos s k x.1 with
  | none => s
  | some n => updCore s n fun c =>
    { c with hold := bitN (slotCtl x.2) 15, guard := none, dw := none, word := x.2, wordAt := (clu s k).beat }

/-- R112: a corrected word of the bar store is counted in the RAS block, with an event while CE_EVT = 1.
Assumption log: 81 (DEDUCED). -/
def barCe1 (s : State) (k w : Nat) : State :=
  if mget nat0 s.mem.barEcc w != 1 then s
  else if rdB s rRasCtl 1 then rasPost s 4 15 0 k 0 k (8 * w % 0x100000 / 8) (glob s (8 * w))
  else if rdB s rRasCtl 0 then incr s (rRasDetCnt 4) else s

/-- R112: the corrected bar-store words of a run are counted.
Assumption log: 81 (DEDUCED). -/
def barCe (s : State) (k a n : Nat) : State :=
  foldS (fun s i => barCe1 s k (a / 8 + i)) (upto ((a + n - 1) / 8 + 1 - a / 8)) s

/-- R75, R93: the cluster moves to its next bar, whose segment is complete in the buffer: the nest that the last bar
entered becomes active, the bound it loaded comes into force, and fetch goes on behind the segment. -/
def barTake (s : State) (k : Nat) : State :=
  let c := clu s k
  let len := segLen (hdrOf (leAt c.fbuf 0 8)) k
  let g := segOf k c.fetchBar (c.fbuf.take len)
  let nest := match c.nestNext with
    | some n => some n
    | none => c.nest
  let dd := match c.ddNext with
    | some v => some v
    | none => c.ddBound
  let s := setClu s k { c with bar := some g, nest := nest, nestNext := none, ddBound := dd, ddNext := none, blocked := false,
                               pos := 0, acted := [], held := [], hit := [], tied := false }
  let s := foldS (fun s x => slotTake s k x) g.slots s
  let s := updClu s k fun c => { c with fetchBar := c.fetchBar + 1, fetchOff := c.fetchOff + len, fbuf := c.fbuf.drop len }
  if barCount s k ≤ c.fetchBar + 1 then fetchFollow s k 0 else s

/-- R41, R81, R89, R98: whether cluster k may move to its next bar: it runs and is neither waiting nor parked, its bar is
complete, a firing tie-point of it has been released, and a nest whose body it ends has stepped. -/
def mayTake (s : State) (k : Nat) : Bool :=
  let u := clu s k
  u.running && !u.waiting && !u.parked && barDone s k && (u.acted.contains stepKey || (!tieDue s k && !stepDue s k))

/-- R112: whether a stored word that serves the segment of cluster k at address a, of `len` bytes, is bad: one of the segment, or
of the descriptor and the base records that its fields use. -/
def segBad (s : State) (k a len : Nat) : Bool :=
  barBad s a len || (barServes k (segOf k 0 (ramGet s a len))).any fun y => barBad s y.1 y.2

/-- R112: whether such a word is poisoned. -/
def fetchPois (s : State) (k a len : Nat) : Bool :=
  ((a, len) :: barServes k (segOf k 0 (ramGet s a len))).any fun y =>
    (upto ((y.1 + y.2 - 1) / 8 + 1 - y.1 / 8)).any fun i => mget flag0 s.mem.barPois (y.1 / 8 + i)

/-- BAR_FETCH: one beat's fetch of cluster k. `ups` are upsets of stored words; with `take`, the cluster also moves to its
next bar, if it may. A bar that is not complete in the buffer blocks the beat with cause FETCH; a poisoned or uncorrectable
word that serves it stops the engine with BAR_ECC.
Assumption log: 5 (DESIGN CHOICE), 11 (DESIGN CHOICE). -/
def execBarFetch (c : CAt) (ups : List (Nat × Nat)) (take : Bool) (s : State) : Out :=
  let k := c.cl
  let s := fetchMore (foldS barUpset ups (adv s k c.dt)) k
  let u := clu s k
  if !take || !mayTake s k then .next s
  else
    let len := segLen (hdrOf (leAt u.fbuf 0 8)) k
    if u.fbuf.length < 8 ∨ u.fbuf.length < len then .next (blockedBeat s k [(4, 7)])
    else
      let a := bankBase k + u.fetchOff
      if segBad s k a len then
        let pois := fetchPois s k a len
        let s := engineFault s 0x32 k u.fetchBar
        .next (rasPost s 5 15 (if pois then 0x32 else 0x94) k 0 k (a % 0x100000 / 8) (glob s a))
      else
        let s := foldS (fun s y => barCe s k y.1 y.2) (barServes k (segOf k 0 (ramGet s a len))) (barCe s k a len)
        .next (barTake s k)

/-! ### Bar store writes (R112, R113) -/

/-- R112: what a write of 64-bit word w of the bar store leaves of the poisoned pattern: the pattern where a byte written into it came
with poison, and elsewhere the old one unless the word is written whole. -/
def barWord (s : State) (a : Nat) (ps : List Bool) (w : Nat) : State :=
  let here := slice ps (8 * w - a) (8 * w + 8 - max a (8 * w))
  let full := decide (a ≤ 8 * w) && decide (8 * w + 8 ≤ a + ps.length)
  let p := here.any id || (!full && mget flag0 s.mem.barPois w)
  { s with mem := { s.mem with barPois := mput flag0 w p s.mem.barPois, barEcc := mput nat0 w 0 s.mem.barEcc } }

/-- An accepted bank write of bytes, each with the poison flag of its 32-byte word: the check pattern of a poisoned write in the words
touched, or the end of an old pattern or error in the words written over; ADMITTED clears and a running scan becomes stale. -/
def bankWrite (s : State) (a : Nat) (bs : List Byte) (ps : List Bool) : State :=
  let ws := (upto ((a + bs.length - 1) / 8 + 1 - a / 8)).map fun i => a / 8 + i
  let s := foldS (fun s w => barWord s a ps w) ws (ramPut s a bs)
  let s := wrB s rEngAdmitStatus 30 false
  { s with eng := { s.eng with scan := s.eng.scan.map fun _ => ⟨true⟩ } }

/-- R113: a write to a bank by any agent: dropped, with CFG_WR_DROP, while the engine runs on the bank. -/
def bankStore (s : State) (a : Nat) (bs : List Byte) (ps : List Bool) : State :=
  if rdB s rEngCtl 0 && bitN (place s) (a % 0x400000000 / 0x100000) then cfgDrop s 2 else bankWrite s a bs ps

/-- BAR_STORE_WRITE of bytes at a bar-store address, with the poison flag of the write. While ENG_CTL.ENABLE = 1, a write
to a bank of the placement is dropped and sets CFG_WR_DROP. -/
def execBarStoreWrite (a : Nat) (bs : List Byte) (pois : Bool) (s : State) : Out :=
  if a < 0x2400000000 ∨ 0x2400800000 < a + bs.length ∨ bs = [] then .next s
  else .next (bankStore s a bs (List.replicate bs.length pois))

/-! ### Tie-points (R41, R101 to R106) -/

/-- TIE_ARRIVAL of cluster k after the last beat of its bar, once the bar is complete (R89). At a portable tie-point it waits, in
a blocked beat of cause TIE_WAIT, while a condition of Table 3.9 does not hold.
Assumption log: 9 (DESIGN CHOICE), 66 (DEDUCED). -/
def execTieArrival (c : CAt) (s : State) : Out :=
  let k := c.cl
  let s := adv s k c.dt
  match (clu s k).bar with
  | none => .next s
  | some g =>
    if !(clu s k).running || (clu s k).waiting || (clu s k).acted.contains stepKey || !barDone s k || !tieDue s k then .next s
    else if g.hdr.port && !quiet s k then .next (quiesceBeat s k)
    else
      let s := updClu s k fun c => { c with waiting := true, tied := true, winLeft := 64 }
      let t : Tie := ⟨g.bar, g.hdr.tpart, g.hdr.port, g.hdr.cg⟩
      .next { s with cross := s.cross ++ [⟨k, 0xC, .arrival k t⟩] }

/-- R410: the armed TIE groups whose point is this release, in arming order.
Assumption log: 23 (DEDUCED). -/
def groupsFor (s : State) (t : Tie) : List Nat :=
  if !t.cg then [] else s.fw.armed.filter fun g =>
    cgKind s g == 1 && !(cgOf s g).tagged && (rdF s (rCpCgPoint g) 19 0 == 0 || rdF s (rCpCgPoint g) 19 0 == t.bar + 1)

/-- R399: a pass starts. -/
def passStart (s : State) : State := incr (wr64 s rCpPassTsLo rCpPassTsHi (now s)) rCpPassCnt

/-- The islands that see a release: the participants, the islands outside the engine (R41), and at a full tie-point also
the clusters outside the placement (R104). -/
def seers (s : State) (part : Nat) : List Nat :=
  (upto 15).filter fun i => 8 ≤ i || bitN part i || (part == place s && !bitN (place s) i)

/-- TIE_RELEASE of the tie-point of bar b: sent when arrivals from every participant are present. STOP is sampled at a
portable tie-point, and the groups armed for it are tagged. -/
def execTieRelease (b : Nat) (s : State) : Out :=
  match s.eng.arrived.find? fun x => x.2.bar == b with
  | none => .next s
  | some (_, t) =>
    let here := (s.eng.arrived.filter fun x => x.2 == t).map fun x => x.1
    if !((bitList 8 t.part).all fun k => here.contains k) then .next s
    else
      let gs := groupsFor s t
      let r : Release := ⟨t, false, t.port && rdB s rEngCtl 2, gs, gs.flatMap (cgActs s)⟩
      let s := foldS (fun s g => cgUpd s g fun c => { c with tagged := true, ref := t.bar }) gs s
      let s := { s with eng := { s.eng with arrived := s.eng.arrived.filter fun x => x.2 != t,
                                            released := s.eng.released ++ (seers s t.part).map fun i => (i, r) } }
      let s := incr (wr s rEngTieStatus (BitVec.ofNat 32 (t.part * 2 ^ 24 + b2n t.port * 2 ^ 20 + t.bar))) rEngTieCnt
      let last := (bitList 8 (place s)).any fun k => t.bar + 1 == barCount s k
      let s := if t.port then traceRec s 3 0 else s
      .next (if last && t.port then passStart s else s)

/-- R84: a core before its slot's first presence: it holds nothing. -/
def coreStart (s : State) (n : Nat) : State :=
  updCore s n fun c => { c with hold := false, guard := none, dw := none, word := 0, wordAt := 0 }

/-- R106: what a cluster does when it sees the release of the enable: it starts fetching at ENG_START_BAR, with no nest
loaded. -/
def cluStart (s : State) (k : Nat) : State :=
  let s := foldS (fun s p => coreStart s (4 * k + p)) (upto 4) s
  let s := updClu s k fun c => { c with pos := 0, acted := [], held := [], hit := [], tied := false,
                                        running := true, waiting := false, parked := false, bar := none, nest := none,
                                        nestNext := none, ddBound := none, ddNext := none, bucket := 32768, winLeft := 64 }
  fetchAt s k (rdF s rEngStartBar 19 0)

/-- R105: a cluster sees a release of its tie-point: it goes on, or parks; the last participant to park sets PARKED. -/
def cluGo (s : State) (k : Nat) (r : Release) : State :=
  let s := updClu s k fun c => { c with waiting := false, parked := r.park, winLeft := 64 }
  if r.park && (bitList 8 r.tie.part).all fun i => (clu s i).parked then wrB s rEngStatus 1 true else s

/-! ### Watchdog, scan, enable, disable, stop -/

/-- PROGRAM_STALL: the watchdog of R108 expires with the clusters of `late` late. It does not run while ENG_TIE_TIMEOUT is
0, while the engine is not running, or while it is parked.
Assumption log: 8 (DESIGN CHOICE). -/
def execProgramStall (late : Nat) (s : State) : Out :=
  let m := late &&& place s
  if !running s || parkedB s || rdF s rEngTieTimeout 23 0 == 0 then .next s
  else match lowBit m 8 0 with
    | none => .next s
    | some k => .next (engineFault s 0x31 k (barOf s k))

/-- R122: the scan starts, unless ENABLE = 1 or a scan runs. -/
def scanStart (s : State) : State :=
  if rdB s rEngCtl 0 || rdB s rEngAdmitStatus 31 then s
  else
    let s := wrB (wrB s rEngAdmitStatus 31 true) rEngAdmitStatus 30 false
    { s with eng := { s.eng with scan := some ⟨false⟩ } }

/-- PROGRAM_SCAN_START: a write of 1 to ENG_ADMIT.START. -/
def execProgramScanStart (s : State) : Out :=
  .next (busWrite s rEngAdmit 1 scanStart)

/-- The running scan finishes; `recs` are the BARs of the portable tie-point table (check 9). ENG_PROG_CLASS is written by a scan
whose checks all pass, stale or not.
Assumption log: 80 (DESIGN CHOICE). -/
def scanDone (recs : List Nat) (s : State) : State :=
  match s.eng.scan with
  | none => s
  | some sc =>
    let s' := { s with eng := { s.eng with scan := none } }
    match scanResult s recs with
    | some (code, k, b) =>
      wrF (wr s' rEngAdmitStatus (BitVec.ofNat 32 (2 ^ 24 * k + b))) rEngStatus 15 8 code
    | none =>
      let k0 := (lowBit (place s) 8 0).getD 0
      let s' := wr s' rEngAdmitStatus (BitVec.ofNat 32 (b2n (!sc.stale) * 2 ^ 30))
      let s' := wrF s' rEngStatus 15 8 0
      wr s' rEngProgClass (BitVec.ofNat 32 (baseReg s k0 7 0))

/-- PROGRAM_SCAN_DONE; the portable tie-point table, which no bank holds, comes with the command as the BARs of its records.
Assumption log: 72 (DEDUCED), 80 (DESIGN CHOICE). -/
def execProgramScanDone (recs : List Nat) (s : State) : Out := .next (scanDone recs s)

/-- R123: the position-to-core mapping of a cluster changes: ADMITTED clears and a running scan becomes stale. -/
def mappingChanged (s : State) (k : Nat) : State :=
  if !bitN (place s) k then s
  else
    let s := wrB s rEngAdmitStatus 30 false
    { s with eng := { s.eng with scan := s.eng.scan.map fun _ => ⟨true⟩ } }

/-- R124, R46: the consistency check of ENG_CTL.ENABLE; 0 where it passes. With no shape class left no program's class matches.
Assumption log: 60 (DEDUCED). -/
def engineCheck (s : State) : Nat :=
  if !rdB s rEngAdmitStatus 30 then 0x2F
  else if shapeClass s = 0 ∨ shapeClass s ≠ rd s rEngProgClass then 0x2D
  else
    let c := classCores (rd s rEngProgClass)
    if (bitList 8 (place s)).any fun k => bit (rd s rRasQuar) k || (healthyPos s k).length < c then 0x2E
    else
      let b := rdF s rEngStartBar 19 0
      let k0 := (lowBit (place s) 8 0).getD 0
      if b = 0 then 0
      else if barCount s k0 ≤ b then 0x30
      else match segAt s k0 (b - 1) with
        | some g => if portable (place s) g.hdr then 0 else 0x30
        | none => 0x30

/-- R106, R248, R399: a successful enable acts as the release of an implicit tie-point before ENG_START_BAR, and sets every
generator state of the placement's cores to zero; the position-to-core mapping stands from here on (R453). -/
def engineOn (s : State) : State :=
  let s := wrB (wrB (wrB (wrB s rEngCtl 0 true) rEngStatus 0 true) rEngStatus 1 false) rEngStatus 2 false
  let r : Release := ⟨⟨rdF s rEngStartBar 19 0, place s, true, false⟩, true, false, [], []⟩
  let s := foldS (fun s n => updCore s n fun c => { c with gen := {} }) (upto 32) s
  let s := { s with eng := { s.eng with alive := (upto 32).foldl (fun m n => if healthy s n then m + 2 ^ n else m) 0 } }
  let s := { s with eng := { s.eng with released := s.eng.released ++ (seers s (place s)).map fun i => (i, r) } }
  passStart s

/-- R18, R124: the enable's check on the configuration that the enable write leaves, and its outcome.
Assumption log: 14 (DEDUCED). -/
def engineTry (s : State) : State :=
  let code := engineCheck s
  let s := wrF s rEngStatus 15 8 code
  if code = 0 then engineOn s else s

/-- R105: STOP := 0 while the engine is parked resumes every participant. -/
def stopClear (s : State) : State :=
  let s := wrB s rEngCtl 2 false
  if !parkedB s then s
  else wrB (foldS (fun s k => updClu s k fun c => { c with parked := false }) (upto 8) s) rEngStatus 1 false

/-- ENGINE_ENABLE: a write of ENG_CTL with ENABLE = 1, with the other fields of the write.
Assumption log: 11 (DESIGN CHOICE), 14 (DEDUCED). -/
def execEngineEnable (pl : Nat) (stop : Bool) (s : State) : Out :=
  .next (busWrite s rEngCtl (BitVec.ofNat 32 (pl % 256 * 256 + b2n stop * 4 + 1)) fun s =>
    if rdB s rEngCtl 0 then
      let s := if pl % 256 ≠ place s then cfgDrop s 2 else s
      if stop then wrB s rEngCtl 2 true else stopClear s
    else engineTry (wrB (wrF s rEngCtl 15 8 pl) rEngCtl 2 stop))

/-- R124: ENABLE := 0 stops a running engine. With `wins`, the write arrives in the cycle of a release: no island sees that
release, and the groups tagged with it abort. A retired core's NCn_CTL.ENABLE clears (R453). -/
def engineOff (s : State) (wins : Bool) : State :=
  let s := foldS (fun s n => if healthy s n then s else wrB s (rNcCtl n) 0 false) (upto 32) s
  if !rdB s rEngCtl 0 then s
  else
    let gs := if wins then s.eng.released.flatMap fun x => x.2.groups else []
    let s := if wins then { s with eng := { s.eng with released := [] } } else s
    let s := foldS (fun s g => cgAbort (cgUpd s g fun c => { c with tagged := false }) g 0xAE 0xF) gs.eraseDups s
    engineStop s

/-- ENGINE_DISABLE: a write of ENG_CTL.ENABLE := 0. -/
def execEngineDisable (wins : Bool) (s : State) : Out :=
  .next (busWrite s rEngCtl (setBit (rd s rEngCtl) 0 false) fun s => engineOff s wins)

/-- ENG_STOP_SET: a write of ENG_CTL.STOP := 1. -/
def execEngStopSet (s : State) : Out :=
  .next (busWrite s rEngCtl (setBit (rd s rEngCtl) 2 true) fun s => wrB s rEngCtl 2 true)

/-- ENG_STOP_CLEAR: a write of ENG_CTL.STOP := 0. -/
def execEngStopClear (s : State) : Out :=
  .next (busWrite s rEngCtl (setBit (rd s rEngCtl) 2 false) stopClear)

/-! ### Nests and the control field (R86 to R100) -/

/-- Whether the nest of cluster k may step now: R98, behind the bar's last action (R89) and its tie-point's release (R41). -/
def stepTurn (s : State) (k : Nat) : Bool :=
  let c := clu s k
  !c.running || (!c.waiting && !c.parked && barDone s k && !tieDue s k && !c.acted.contains stepKey)

/-- NEST_STEP after the last beat of the last bar of the active nest's body: the indices advance, and fetch continues with
the body or behind it. In a cluster that runs a program, the bar must be complete and its tie-point, if it fires, released, and
each pass steps once. -/
def execNestStep (c : CAt) (s : State) : Out :=
  let k := c.cl
  let s := adv s k c.dt
  match (clu s k).nest with
  | none => .next s
  | some ns =>
    if !ns.inBody || barOf s k != ns.desc.bodyLast || !stepTurn s k then .next s
    else
      let ns' := stepNest ns
      let s := acted (updClu s k fun c => { c with nest := some ns' }) k stepKey
      .next (if ns'.inBody then fetchFollow s k ns.desc.bodyFirst else s)

/-- The own-SPM slot n of core c. -/
def coreSlot (n slot : Nat) : Nat := n * 512 + slot % 512

/-- R196: the cause of a wait on a slot, by its SRC class.
Assumption log: 9 (DESIGN CHOICE). -/
def waitCause (v : Slot) : Nat :=
  match v.src with
  | .loc => 0
  | .halo => 3
  | .link => 6

/-- R86: whether the control operation `op` of a core may act now, in beat 0 of a bar whose slot carries it. -/
def ctlTurn (s : State) (a : At) (op : Nat) : Bool :=
  fieldTurn s a (if op = 5 then 4 else 0) && (!(clu s (a.core / 4)).running || match slotNow s a.core with
    | some (w, _) => slotOp w == op
    | none => false)

/-- R37: action b of cluster k, of the given key, is able to act: it acts if nothing else blocks the beat. -/
def passed (s : State) (k b key : Nat) : State :=
  let s := through s k b
  if heldAny s k then s else acted s k key

/-- SLOT_WAIT: passes while the slot is FULL; otherwise the beat blocks. `par` is a parity error of the tag read.
Assumption log: 9 (DESIGN CHOICE). -/
def execSlotWait (a : At) (slot : Nat) (par : Bool) (s : State) : Out :=
  let k := a.core / 4
  let s := adv s k a.dt
  if !ctlTurn s a 1 then .next s
  else
    let key := coreSlot a.core slot
    let s := if par then tagParity s key else tagSee s key
    let v := slotGet s key
    if v.tag = .full then .next (passed s k (blocker (a.core % 4) 0) (actKey a.core 0))
    else .next (blockBeat s k (a.core % 4) (waitCause v))

/-- R86: whether the SLOT_RELEASE of a core may act now: after the last beat of a bar whose slot carries it, once. -/
def releaseTurn (s : State) (n : Nat) : Bool :=
  let c := clu s (n / 4)
  !c.running || (!c.waiting && beatsDone s (n / 4) && !c.acted.contains (actKey n 5) && match slotNow s n with
    | some (w, true) => slotOp w == 2 && coreIn s n
    | _ => false)

/-- SLOT_RELEASE after the bar's last beat. -/
def execSlotRelease (a : At) (slot : Nat) (s : State) : Out :=
  let k := a.core / 4
  let s := adv s k a.dt
  if !releaseTurn s a.core then .next s
  else
    let key := coreSlot a.core slot
    let s := tagSee (acted s k (actKey a.core 5)) key
    if (slotGet s key).tag = .full then .next (slotTag s key .empty) else .next (tagBad s k 0)

/-- BOUND_LD: word 0 of the slot, once it is FULL, becomes the bound of the next nest entered after this bar. A poisoned
word is consumed (Table 12.7): the bound is taken as 0 and the consumption reported for the cluster's job. -/
def execBoundLd (a : At) (slot : Nat) (s : State) : Out :=
  let k := a.core / 4
  let s := adv s k a.dt
  if !ctlTurn s a 3 then .next s
  else
    let s := tagSee s (coreSlot a.core slot)
    let v := slotGet s (coreSlot a.core slot)
    if v.tag ≠ .full then .next (blockBeat s k (a.core % 4) (waitCause v))
    else
      let s := passed s k (blocker (a.core % 4) 0) (actKey a.core 0)
      if heldAny s k then .next s
      else
        let ad := memBase a.core + 4096 * (slot % 512)
        let ((bs, ps), s) := barRead s a.core ad 4
        let bad := ps.any id
        let s := if bad then consume s k k 3 (jobClu s k) (glob s ad) else s
        .next (updClu s k fun c => { c with ddNext := some (if bad then 0 else leNat bs) })

/-- GUARD: from this beat on, in every beat of the bar, the slot's MX, VX and MV fields act only where the condition holds.
Assumption log: 59 (DESIGN CHOICE). -/
def execGuard (a : At) (lvl mode v : Nat) (s : State) : Out :=
  let s := adv s (a.core / 4) a.dt
  match (clu s (a.core / 4)).nest with
  | none => .fault .guardOutside
  | some ns =>
    if ns.inBody && lvl < ns.desc.levels then
      if !ctlTurn s a 4 || heldAny s (a.core / 4) then .next s
      else .next (acted (updCore s a.core fun c => { c with guard := some ⟨lvl, mode % 4, v % 64⟩ }) (a.core / 4) (actKey a.core 0))
    else .fault .guardOutside

/-- EVENT: behind the other fields of its core in the beat (R88), a record is pushed into the ENG event FIFO; a full FIFO ignores
it and sets OVR. -/
def execEvent (a : At) (num : Nat) (s : State) : Out :=
  let k := a.core / 4
  let s := adv s k a.dt
  if !ctlTurn s a 5 || heldAny s k then .next s
  else
  let s := acted s k (actKey a.core 4)
  let w := num % 2048 * 2 ^ 21 + (4 * k + recOf s a.core) * 2 ^ 16 + barOf s k % 2 ^ 16
  .next { s with eng := { s.eng with events := (fifoPush 256 [BitVec.ofNat 32 w] s.eng.events).1 } }

/-- R204: level i of nest n is cut: TRUNCATED, the counter, and the log if TRUNCATED read 0. -/
def truncHit (s : State) (k n i : Nat) : State :=
  let st := rCluShapeStatus k
  let s := if rdB s st 1 then s else wrF (wrF s (rCluShapeLog k) 23 16 n) (rCluShapeLog k) 10 8 i
  incr (wrB s st 1 true) (rCluTruncCnt k)

/-- R218: nest n resolved a zero bound. -/
def emptyHit (s : State) (k n : Nat) : State :=
  let st := rCluShapeStatus k
  let s := if rdB s st 0 then s else wrF s (rCluShapeLog k) 31 24 n
  incr (wrB s st 0 true) (rCluEmptyCnt k)

/-- The value of the last BOUND_LD in force for cluster k; a free value where the program has run none.
Assumption log: 2 (DESIGN CHOICE). -/
def ddValue (s : State) (k : Nat) : Nat × State :=
  match (clu s k).ddBound with
  | some v => (v, s)
  | none => ((freeW s).1.toNat, (freeW s).2)

/-- NEST: the bounds of nest n resolve now, and the extents latch; the nest is active from the next bar on (R93). With a zero
bound, fetch continues behind the body. -/
def execNest (c : CAt) (n : Nat) (s : State) : Out :=
  let k := c.cl
  let n := n % 256
  let s := adv s k c.dt
  if !kslotTurn s k || heldAny s k then .next s
  else
  let s := acted s k kslotKey
  let uses := (descAt s k n).src.any (· == 0xF)
  let (dd, s) := if uses then ddValue s k else (0, s)
  let ns := enterNest s k n dd
  let cuts := cutsOf s k n ns.desc dd
  let s := foldS (fun s i => truncHit s k n i) cuts s
  let s := updClu s k fun c => { c with nestNext := some ns }
  .next (if ns.inBody then s else fetchAt (emptyHit s k n) k (ns.desc.bodyLast + 1))

end Sys2Proof.Machine
end

