-- ==== Sys2Proof/Machine/Fabric.lean ====
section
/-! DEFINITION. The chip fabric (12): windows, DRAM lines, and one read or write of an agent within
a 64-byte block of the local address map. -/

namespace Sys2Proof.Machine
open Sys2Proof

/-! ### Windows (R354, R355) -/

/-- R354: the enabled window that covers a global address with the permission. -/
def winOf (s : State) (wr : Bool) (g : Nat) : Option Nat :=
  (upto 32).find? fun i =>
    let a := g % 2 ^ 40
    let b := 0x10000 * rdF s (rMemWinBase i) 23 0
    rdB s (rMemWinCtl i) 31 && rdB s (rMemWinCtl i) (if wr then 28 else 29) &&
      rdF s (rMemWinCtl i) 5 0 == g / 2 ^ 40 && b ≤ a && a < b + 0x10000 * rdF s (rMemWinSize i) 23 0

/-- R355: the closes of window w so far. -/
def winEra (s : State) (w : Nat) : Nat := (s.lk.shut.filter (· == w)).length

/-- R355: an operation to a remote address is checked against the windows when it issues: the window that it passes, with the
closes of that window before it. -/
def winPass (s : State) (wr : Bool) (g : Nat) : Option (Nat × Nat) := (winOf s wr g).map fun i => (i, winEra s i)

/-- R355: EN := 0 of window w. -/
def winShut (s : State) (w : Nat) : State :=
  if rdB s (rMemWinCtl w) 31 then { wrB s (rMemWinCtl w) 31 false with lk := { s.lk with shut := s.lk.shut ++ [w] } }
  else s

/-! ### DRAM lines (R339 to R343) -/

/-- EPOCH of MEM_SCRUB_CTL. -/
def scrubEpoch (s : State) : Nat := rdF s rMemScrubCtl 19 16

/-- An unlisted line: its contents are undefined.
Assumption log: 42 (DESIGN CHOICE). -/
def dram0 : Nat → Option DLine := fun _ => none

/-- The canonical form of the memories: keys strictly rise, and no entry is what an unlisted key reads as. -/
def Memory.wf (m : Mem) : Bool :=
  mwf byte0 m.sram && mwf flag0 m.pois && mwf flag0 m.barPois && mwf nat0 m.ecc && mwf nat0 m.barEcc &&
    mwf slot0 m.slots && mwf dram0 m.dram

/-- Storing a line. -/
def linePut (s : State) (l : Nat) (v : DLine) : State :=
  { s with mem := { s.mem with dram := mput dram0 l (some v) s.mem.dram } }

/-- R331: the subchannel of a line. -/
def subOf (l : Nat) : Nat := l % 6

/-- R331: where a line lies in the DRAM devices of its subchannel. -/
structure DramPlace where
  sub : Nat
  rank : Nat
  group : Nat
  bank : Nat
  row : Nat
  col : Nat
  deriving DecidableEq, Repr

/-- R331: the place of line L, with nb bits of bank and nr of rank; the bank group is hashed with the row's lowest bits. -/
def dramPlace (nb nr L : Nat) : DramPlace :=
  let l := L / 6
  let row := l / 2 ^ (9 + nb + nr)
  ⟨subOf L, bitsN l (9 + nb) nr, (bitsN l 6 3).xor (row % 8), bitsN l 9 nb, row, bitsN l 0 6⟩

/-- R331: the place of a line under MEM_DDR_CFG. -/
def dramAt (s : State) (L : Nat) : DramPlace :=
  dramPlace (if rdF s rMemDdrCfg 2 0 = 0 then 1 else 2) (rdF s rMemDdrCfg 4 4) L

/-- R341: a line decodes uncorrectable: it is rewritten, counted, captured and reported. `tag` is the tag as read, `ok0` and
`ok1` say which codewords decoded, `devs` are the devices held suspect. An event that does not name one device alone has no kind of
Table 16.7 (assumption 12).
Assumption log: 12 (DESIGN CHOICE). -/
def lineUe (s : State) (l : Nat) (tag : LineTag) (ok0 ok1 : Bool) (devs : Nat) : State :=
  let s := linePut s l ⟨List.replicate 64 0, ⟨true, true, true, 0, 0, scrubEpoch s⟩⟩
  let s := incr s rMemUeCnt
  let info := 2 ^ 31 + b2n (ok0 && tag.lost) * 2 ^ 30 + subOf l * 2 ^ 27 + b2n ok0 * 2 ^ 26 + b2n ok1 * 2 ^ 25 +
    (if ok0 then tag.job % 4096 * 2 ^ 12 else 0) + (if ok1 then tag.epoch % 16 * 2 ^ 8 else 0) + devs % 32
  let s := if rdB s rMemUeInfo 31 then s
    else wr (wr64 s rMemUeAddrLo rMemUeAddrHi (64 * l)) rMemUeInfo (BitVec.ofNat 32 info)
  rasPost s 7 (if popN 5 devs = 1 then 4 else 15) 0x4D 8 (if ok0 then tag.job else 0) (subOf l * 8 + ((bitList 5 devs)[0]?).getD 0) 8 (glob s (64 * l))

/-- R341, R448: corrected symbols (of either codeword, by their index) are counted for their device; with RAS_CTL.CE_EVT = 1 each posts a health event. -/
def lineCe (s : State) (l : Nat) (syms : List Nat) : State :=
  foldS (fun s y =>
    let s := incr (incr s rMemCeCnt) (rMemCe (subOf l) (symDevice y))
    if rdB s rRasCtl 1 then rasPost s 7 4 0 8 0 (subOf l * 8 + symDevice y) (y % 8) (glob s (64 * l)) else s) syms s

/-- 64 free bytes. -/
def freeLine (c : Nat) : List Byte := freeBytes c ++ freeBytes (c + 8)

/-- The devices of corrected symbols, as MEM_UE_INFO.DEVICES names them. -/
def symDevices (syms : List Nat) : Nat := syms.foldl (fun m y => m ||| 2 ^ symDevice (y % 40)) 0

/-- A line whose contents are undefined is read (R537): whether it decodes, and what it then holds, is free (assumption 2);
what it holds is from now on the line's contents, with the current EPOCH where it is written back (R349). The symbols corrected in
a codeword that decodes are counted whatever the other does.
Assumption log: 2 (DESIGN CHOICE), 38 (DESIGN CHOICE), 42 (DESIGN CHOICE). -/
def lineFree (s : State) (l : Nat) : Option DLine × State :=
  let w := Config.freeNat s.free
  let s' := freeSkip s 32
  let tag : LineTag := ⟨bitN w 2, bitN w 3, bitN w 4, bitsN w 8 12, bitsN w 20 4, bitsN w 24 4⟩
  let ces (n : Nat) : List Nat := (upto (bitsN w 40 3 % (n + 1))).map fun i => bitsN w (44 + 6 * i) 6 % 40
  if bitN w 0 then
    let ok := bitsN w 80 2
    let cs := if ok = 0 then [] else ces 2
    (none, lineUe (lineCe s' l cs) l tag (ok == 1) (ok == 2) (bitsN w 32 5 ||| symDevices cs))
  else
    let cs := ces 4
    let v : DLine := ⟨freeLine (s.free + 1), if cs.isEmpty then tag else { tag with epoch := scrubEpoch s }⟩
    (some v, linePut (lineCe s' l cs) l v)

/-- R341: reading a line that no error has damaged; none where it decodes uncorrectable.
Assumption log: 42 (DESIGN CHOICE). -/
def lineGet (s : State) (l : Nat) : Option DLine × State :=
  match mget dram0 s.mem.dram l with
  | some v => (some v, s)
  | none => lineFree s l

/-- R339: whether a line is poisoned. -/
def linePois (v : DLine) : Bool := v.tag.poisA || v.tag.poisB

/-- A read of a line: 64 bytes, and the poison of both words. -/
def lineRead (s : State) (l : Nat) : (List Byte × Bool) × State :=
  match lineGet s l with
  | (some v, s) => ((v.data, linePois v), s)
  | (none, s) => ((List.replicate 64 0, true), s)

/-- Replacing bytes of a list from an offset. -/
def patch {α : Type} (l : List α) (o : Nat) (bs : List α) : List α := l.take o ++ bs ++ l.drop (o + bs.length)

/-- R342, R343: a write within one line; NOPOISON of R350 drops a poisoned one as a consumption. -/
def lineWrite (s : State) (w : Who) (a : Nat) (bs : List Byte) (ps : List Bool) : State :=
  let l := a / 64
  let bad := ps.any id
  let rgn := rgnOf s a
  let nop := match rgn with
    | some r => rdB s (rMemRgnCtl r) 29
    | none => false
  if nop && bad then consume s w.isl w.agent 4 w.job (glob s a)
  else
    let fmt := match w.fmt, rgn with
      | some f, _ => f
      | none, some r => rdF s (rMemRgnCtl r) 27 24
      | none, none => 0
    let tag (p : Bool) (s : State) : LineTag := ⟨p, p, false, w.job, fmt, scrubEpoch s⟩
    if bs.length = 64 then linePut s l ⟨bs, tag bad s⟩
    else
      let ((old, p), s) := lineRead s l
      linePut s l ⟨patch old (a % 64) bs, tag (bad || p) s⟩

/-- R478: a DRAM line access of an activity source. -/
def dramAct (s : State) (w : Who) : State :=
  match w.src with
  | some i => act s i 5 1
  | none => s

/-! ### Accesses within one 64-byte block -/

/-- R344: consumption of the poisoned words of a write into host-port SRAM: those words are dropped. -/
def hostWrite (s : State) (w : Who) (ws : List (Nat × Byte × Bool)) : State :=
  foldS (fun s k =>
    let here := ws.filter fun x => x.1 / 32 == k
    if here.any fun x => x.2.2 then incr (consume s w.isl w.agent 1 w.job (glob s (32 * k))) rHptPoisonDropCnt
    else { s with mem := { s.mem with sram := mputs byte0 (here.map fun x => (x.1, x.2.1)) s.mem.sram } }) (wordsOf ws) s

/-- R112: the poison of a bar-store byte: its 64-bit word is poisoned or uncorrectable. -/
def barPois (s : State) (a : Nat) : Bool := mget flag0 s.mem.barPois (a / 8) || 2 ≤ mget nat0 s.mem.barEcc (a / 8)

/-- What a read delivers: the bytes, the poison of each byte's word, and the code of a refusal, or 0. -/
structure Got where
  data : List Byte
  pois : List Bool
  code : Nat
  deriving DecidableEq, Repr

/-- R328: what a refused read delivers.
Assumption log: 34 (DEDUCED). -/
def gotNone (n code : Nat) : Got := ⟨List.replicate n 0, List.replicate n true, code⟩

/-- R457: a quarantined island carries no fabric traffic but writes from the control processor and the chip DMA.
Assumption log: 17 (DEDUCED), 34 (DEDUCED). -/
def barred (s : State) (w : Who) (wr : Bool) (a : Nat) : Bool :=
  match addrIsl a with
  | some i => rdB s rRasQuar i && !(wr && (w.agent == 13 || w.agent == 8))
  | none => false

/-- Reading n bytes, within one 64-byte block, of the local map by an agent. The registers take no such access:
it is of another width than 32 bits (R8).
Assumption log: 17 (DEDUCED), 34 (DEDUCED). -/
def fabRead (s : State) (w : Who) (a n : Nat) : Got × State :=
  let code := accessCode s w false a
  if code ≠ 0 then (gotNone n code, refuse s w code (glob s a))
  else if barred s w false a then (gotNone n 0x96, s)
  else match regionOf a with
    | some .dram =>
      let ((bs, p), s) := lineRead (dramAct s w) (a / 64)
      (⟨slice bs (a % 64) n, List.replicate n p, 0⟩, s)
    | some .hostp => (⟨ramGet s a n, List.replicate n false, 0⟩, s)
    | some .bars => (⟨ramGet s a n, (upto n).map fun i => barPois s (a + i), 0⟩, s)
    | some .rom => (⟨(upto n).map fun i => Config.romByte (a % 0x100000 + i), List.replicate n false, 0⟩, s)
    | some .regs => (⟨List.replicate n 0, List.replicate n false, 0⟩, incr s rTopBadaccCnt)
    | _ =>
      let s := match memAt a with
        | some m => actMem s (memClu m) (wordsIn a n)
        | none => s
      let ((bs, ps, _), s) := sramRead s a n
      (⟨bs, ps, 0⟩, s)

/-- Writing bytes, within one 64-byte block, of the local map by an agent, past the tags: the outcome is the refusal's code,
or 0.
Assumption log: 17 (DEDUCED), 34 (DEDUCED). -/
def fabWrite (s : State) (w : Who) (a : Nat) (bs : List Byte) (ps : List Bool) : Nat × State :=
  let code := accessCode s w true a
  if code ≠ 0 then (code, refuse s w code (glob s a))
  else if barred s w true a then (0x96, s)
  else match regionOf a with
    | some .dram => (0, lineWrite (dramAct s w) w a bs ps)
    | some .hostp => (0, hostWrite s w (runWrites a bs ps))
    | some .bars => (0, bankStore s a bs ps)
    | some .rom => (0, s)
    | some .regs => (0, incr s rTopBadaccCnt)
    | _ =>
      let s := match memAt a with
        | some m => actMem s (memClu m) (wordsIn a bs.length)
        | none => s
      (0, sramWrite s (runWrites a bs ps))

/-- The 64-byte pieces of a run: (offset, address, length). -/
def pieces (a n : Nat) : List (Nat × Nat × Nat) :=
  if n = 0 then []
  else (upto ((a + n - 1) / 64 + 1 - a / 64)).map fun i =>
    let lo := max a ((a / 64 + i) * 64)
    let hi := min (a + n) ((a / 64 + i + 1) * 64)
    (lo - a, lo, hi - lo)

/-- Reading a run of the local map: its 64-byte pieces, and the first refusal. -/
def fabReads (s : State) (w : Who) (a n : Nat) : Got × State :=
  (pieces a n).foldl (fun acc p =>
    let (g, s) := fabRead acc.2 w p.2.1 p.2.2
    (⟨acc.1.data ++ g.data, acc.1.pois ++ g.pois, if acc.1.code = 0 then g.code else acc.1.code⟩, s)) (⟨[], [], 0⟩, s)

/-- Writing a run of the local map. -/
def fabWrites (s : State) (w : Who) (a : Nat) (bs : List Byte) (ps : List Bool) : Nat × State :=
  (pieces a bs.length).foldl (fun acc p =>
    let (c, s) := fabWrite acc.2 w p.2.1 (slice bs p.1 p.2.2) (slice ps p.1 p.2.2)
    (if acc.1 = 0 then c else acc.1, s)) (0, s)

/-- A write whose code nothing looks at. -/
def fabStore (s : State) (w : Who) (a : Nat) (bs : List Byte) (ps : List Bool) : State := (fabWrites s w a bs ps).2

end Sys2Proof.Machine
end

