-- ==== Sys2Proof/Machine/Isp.lean ====
section
/-! DEFINITION. The image pipeline (10 section 5 and 6): the stages of Table 10.7, the output formats of R299 and the
statistics of R301, as functions of an image and a parameter set. -/

namespace Sys2Proof.Machine
open Sys2Proof

/-- A plane of samples, by rows. -/
abbrev Img := List (List Int)

/-- R297: the mirrored position of a neighbour outside the frame. -/
def mirror (n : Nat) (x : Int) : Nat :=
  if x < 0 then (-x).toNat else if (n : Int) ≤ x then (2 * ((n : Int) - 1) - x).toNat else x.toNat

/-- A sample, mirrored at the edges of a frame of W by H. -/
def px (g : Img) (w h : Nat) (x y : Int) : Int := (g.getD (mirror h y) []).getD (mirror w x) 0

/-- An image computed site by site. -/
def mkImg (w h : Nat) (f : Nat → Nat → Int) : Img := (upto h).map fun y => (upto w).map fun x => f x y

/-- R297: the clamp of every stage. -/
def clamp16 (x : Int) : Int := max 0 (min x 65535)

/-- Table 10.9: a parameter set, as the words of the set. -/
abbrev Params := Nat → Word

/-- A 16-bit field of a parameter set. -/
def p16 (p : Params) (off : Nat) : Nat := fld (p (off / 4)) (off % 4 * 8 + 15) (off % 4 * 8)

/-- A signed 16-bit field. -/
def s16 (p : Params) (off : Nat) : Int := sextN 16 (p16 p off)

/-- An enable bit of parameter word 0. -/
def pOn (p : Params) (i : Nat) : Bool := bit (p 0) i

/-- The CFA channel of a site (Table 10.9). -/
def cfaCh (x y : Nat) : Nat := y % 2 * 2 + x % 2

/-- The colour of a site: 0 R, 1 G, 2 B. -/
def cfaCol (p : Params) (x y : Nat) : Nat :=
  ((match fld (p 0) 1 0 with
    | 0 => [0, 1, 1, 2]
    | 1 => [1, 0, 2, 1]
    | 2 => [1, 2, 0, 1]
    | _ => [2, 1, 1, 0]).getD (cfaCh x y) 0)

/-- Stage 1: black level. -/
def stBlack (p : Params) (w h : Nat) (g : Img) : Img :=
  mkImg w h fun x y => max (px g w h x y - p16 p (0x004 + 2 * cfaCh x y)) 0

/-- The eight same-colour neighbours. -/
def near8 (g : Img) (w h x y : Nat) : List Int :=
  [(-2, -2), (0, -2), (2, -2), (-2, 0), (2, 0), (-2, 2), (0, 2), (2, 2)].map
    fun (d : Int × Int) => px g w h ((x : Int) + d.1) ((y : Int) + d.2)

/-- Stage 2: defect correction. -/
def stDpc (p : Params) (w h : Nat) (g : Img) : Img :=
  if !pOn p 8 then g
  else mkImg w h fun x y =>
    let ns := near8 g w h x y
    let lo := ns.foldl min 65535 - p16 p 0x00C
    let hi := ns.foldl max 0 + p16 p 0x00C
    clamp16 (max lo (min (px g w h x y) hi))

/-- R298: the lens-shading gain at a site. -/
def lscGain (p : Params) (w h x y : Nat) : Nat :=
  let sx := 2 * cdiv w 24
  let sy := 2 * cdiv h 24
  let gx := x / sx
  let fx := x % sx
  let gy := y / sy
  let fy := y % sy
  let G (a b : Nat) := p16 p (0x500 + 2 * (52 * b + 4 * a + cfaCh x y))
  (G gx gy * (sx - fx) * (sy - fy) + G (gx + 1) gy * fx * (sy - fy) + G gx (gy + 1) * (sx - fx) * fy +
    G (gx + 1) (gy + 1) * fx * fy + sx * sy / 2) / (sx * sy)

/-- Stage 3: lens shading. -/
def stLsc (p : Params) (w h : Nat) (g : Img) : Img :=
  if !pOn p 9 then g
  else mkImg w h fun x y => min ((px g w h x y * lscGain p w h x y + 512) / 1024) 65535

/-- Stage 4: denoise. -/
def stNr (p : Params) (w h : Nat) (g : Img) : Img :=
  if !pOn p 10 then g
  else mkImg w h fun x y =>
    let c := px g w h x y
    let qs := c :: ((near8 g w h x y).filter fun q => decide ((q - c).natAbs ≤ p16 p 0x010))
    let n : Int := qs.length
    let a := (qs.foldl (· + ·) 0 + n / 2) / n
    clamp16 (c + ((a - c) * (bitsN (p16 p 0x00E) 0 4 : Nat) + 8) / 16)

/-- Stage 5: white balance. -/
def stWb (p : Params) (w h : Nat) (g : Img) : Img :=
  mkImg w h fun x y => min ((px g w h x y * p16 p (0x018 + 2 * cfaCh x y) + 2048) / 4096) 65535

/-- R298: avg. -/
def avg2 (a b : Int) : Int := (a + b + 1) / 2

/-- R298: green at a red or blue site, before the final clamp. -/
def greenAt (p : Params) (w h : Nat) (g : Img) (x y : Nat) : Int :=
  let q (dx dy : Int) := px g w h ((x : Int) + dx) ((y : Int) + dy)
  if cfaCol p x y = 1 then q 0 0
  else
    let c := 2 * q 0 0
    let dH := (q (-1) 0 - q 1 0).natAbs + (c - q (-2) 0 - q 2 0).natAbs
    let dV := (q 0 (-1) - q 0 1).natAbs + (c - q 0 (-2) - q 0 2).natAbs
    let eH := avg2 (q (-1) 0) (q 1 0) + (c - q (-2) 0 - q 2 0 + 2) / 4
    let eV := avg2 (q 0 (-1)) (q 0 1) + (c - q 0 (-2) - q 0 2 + 2) / 4
    let t := p16 p 0x012
    if dH + t < dV then eH else if dV + t < dH then eV else avg2 eH eV

/-- R298: the colour `k` (0 R, 2 B) at a site, from the image and every green. -/
def colourAt (p : Params) (w h : Nat) (g gr : Img) (k x y : Nat) : Int :=
  let d (dx dy : Int) := px g w h ((x : Int) + dx) ((y : Int) + dy) - px gr w h ((x : Int) + dx) ((y : Int) + dy)
  let c := cfaCol p x y
  if c = k then px g w h x y
  else if c = 1 then
    if cfaCol p (x + 1) y = k then px gr w h x y + avg2 (d (-1) 0) (d 1 0)
    else px gr w h x y + avg2 (d 0 (-1)) (d 0 1)
  else px gr w h x y + (d (-1) (-1) + d 1 (-1) + d (-1) 1 + d 1 1 + 2) / 4

/-- Three planes. -/
abbrev Rgb := Img × Img × Img

/-- Stage 6: demosaic. -/
def stDemosaic (p : Params) (w h : Nat) (g : Img) : Rgb :=
  let gr := mkImg w h fun x y => greenAt p w h g x y
  (mkImg w h fun x y => clamp16 (colourAt p w h g gr 0 x y), mkImg w h fun x y => clamp16 (px gr w h x y),
    mkImg w h fun x y => clamp16 (colourAt p w h g gr 2 x y))

/-- Stages 7 and 9: a matrix and its offsets at an offset of the set. -/
def stMatrix (p : Params) (m o : Nat) (w h : Nat) (c : Rgb) : Rgb :=
  let row (i x y : Nat) : Int :=
    clamp16 ((s16 p (m + 6 * i) * px c.1 w h x y + s16 p (m + 6 * i + 2) * px c.2.1 w h x y +
      s16 p (m + 6 * i + 4) * px c.2.2 w h x y + 2048) / 4096 + s16 p (o + 2 * i))
  (mkImg w h (row 0), mkImg w h (row 1), mkImg w h (row 2))

/-- Stage 8: tone, of one sample. -/
def toneOf (p : Params) (v : Int) : Int :=
  let i := v.toNat / 128
  let f := v.toNat % 128
  ((p16 p (0x080 + 2 * i) * (128 - f) + p16 p (0x080 + 2 * (i + 1)) * f + 64) / 128 : Nat)

/-- Three planes changed alike. -/
def map3 (f : Img → Img) (c : Rgb) : Rgb := (f c.1, f c.2.1, f c.2.2)

/-- Stage 10: the scaler. -/
def stScale (sc w h : Nat) (g : Img) : Img :=
  let n := 2 ^ sc
  mkImg (w / n) (h / n) fun x y =>
    let t := ((upto n).flatMap fun j => (upto n).map fun i => px g w h ((x * n + i : Nat) : Int) ((y * n + j : Nat) : Int)).foldl (· + ·) 0
    (t + (n * n / 2 : Nat)) / (n * n : Nat)

/-- Stage 11: a sample as a byte. -/
def v8 (v : Int) : Nat := min ((v.toNat + 128) / 256) 255

/-- A byte from a number. -/
def byteN (n : Nat) : Byte := BitVec.ofNat 8 n

/-- The mean of the samples of a plane at some positions, rounded half up, as a byte of stage 11. -/
def mean8 (g : Img) (w h : Nat) (ps : List (Nat × Nat)) : Byte :=
  let qs := ps.filter fun q => decide (q.1 < w ∧ q.2 < h)
  let t := (qs.map fun q => v8 (px g w h q.1 q.2)).foldl (· + ·) 0
  byteN ((t + qs.length / 2) / max 1 qs.length)

/-- R299: the bytes of a frame in an output format of Table 10.8. -/
def formatOut (ofmt fold w h : Nat) (c : Rgb) : List Byte :=
  let at8 (g : Img) (x y : Nat) : Byte := byteN (v8 (px g w h x y))
  match ofmt with
  | 1 => (upto h).flatMap fun y => (upto w).flatMap fun x => [at8 c.1 x y, at8 c.2.1 x y, at8 c.2.2 x y]
  | 2 => (upto h).flatMap fun y => (upto w).flatMap fun x =>
      let q := [(x / 2 * 2, y), (x / 2 * 2 + 1, y)]
      [at8 c.1 x y, if x % 2 = 0 then mean8 c.2.1 w h q else mean8 c.2.2 w h q]
  | 3 => ((upto h).flatMap fun y => (upto w).map fun x => at8 c.1 x y) ++
      (upto (h / 2)).flatMap fun y => (upto (w / 2)).flatMap fun x =>
        let q := [(2 * x, 2 * y), (2 * x + 1, 2 * y), (2 * x, 2 * y + 1), (2 * x + 1, 2 * y + 1)]
        [mean8 c.2.1 w h q, mean8 c.2.2 w h q]
  | 4 => (upto h).flatMap fun y => (upto w).map fun x => at8 c.1 x y
  | _ => (upto (cdiv h fold)).flatMap fun y => (upto (cdiv w fold)).flatMap fun x => (upto 32).map fun ch =>
      let px' := x * fold + ch / 3 % fold
      let py := y * fold + ch / 3 / fold
      if 3 * fold * fold ≤ ch ∨ w ≤ px' ∨ h ≤ py then 0
      else at8 (if ch % 3 = 0 then c.1 else if ch % 3 = 1 then c.2.1 else c.2.2) px' py

/-- R299: the frame size of an output format, in bytes, for an output of w by h (WIDTH by HEIGHT on the RAW path). -/
def frameSize (ofmt fold w h : Nat) : Nat :=
  match ofmt with
  | 0 => 2 * w * h
  | 1 => 3 * w * h
  | 2 => 2 * w * h
  | 3 => 3 * w * h / 2
  | 4 => w * h
  | 5 => 32 * cdiv w fold * cdiv h fold
  | _ => w * h

/-- Stages 1 to 3 of a BAYER frame.
Assumption log: 68 (DEDUCED). -/
def bayerHead (p : Params) (w h : Nat) (g : Img) : Img := stLsc p w h (stDpc p w h (stBlack p w h g))

/-- Stages 4 to 8 of a BAYER frame.
Assumption log: 68 (DEDUCED). -/
def bayerTail (p : Params) (w h : Nat) (g : Img) : Rgb :=
  let c := stDemosaic p w h (stWb p w h (stNr p w h g))
  let c := if pOn p 11 then stMatrix p 0x020 0x034 w h c else c
  if pOn p 12 then map3 (fun g => mkImg w h fun x y => toneOf p (px g w h x y)) c else c

/-- Stages 9 to 11.
Assumption log: 68 (DEDUCED). -/
def ispOut (p : Params) (ofmt fold sc w h : Nat) (c : Rgb) : List Byte :=
  let c := if 2 ≤ ofmt ∧ ofmt ≤ 4 then stMatrix p 0x040 0x054 w h c else c
  formatOut ofmt fold (w / 2 ^ sc) (h / 2 ^ sc) (map3 (stScale sc w h) c)

/-! ### Statistics (R301) -/

/-- A histogram of 256 bins over the values of a plane, as bytes. -/
def histo (vs : List Nat) : List Byte :=
  (upto 256).flatMap fun b => leBytes 4 (min 0xFFFFFFFF (vs.filter fun v => v / 256 == b).length)

/-- The values of a plane. -/
def flatN (g : Img) : List Nat := (g.flatMap id).map Int.toNat

/-- One zone: the means of its cells and SAT. `raw` is the input of stage 1, `top` its largest code. -/
def zoneOf (p : Params) (w h zw zh : Nat) (g raw : Img) (top : Int) (zx zy : Nat) : List Byte :=
  let cells := (upto (zh / 2)).flatMap fun j => (upto (zw / 2)).filterMap fun i =>
    let x := zx * zw + 2 * i
    let y := zy * zh + 2 * j
    if x < w ∧ y < h then some (x, y) else none
  let n : Int := cells.length
  let sites (c : Nat × Nat) : List (Nat × Nat) := [(c.1, c.2), (c.1 + 1, c.2), (c.1, c.2 + 1), (c.1 + 1, c.2 + 1)]
  let val (k : Nat) (c : Nat × Nat) : Int :=
    let q := (sites c).filter fun z => cfaCol p z.1 z.2 == k
    let t := (q.map fun z => px g w h z.1 z.2).foldl (· + ·) 0
    if k = 1 then (t + 1) / 2 else t
  let mean (k : Nat) : Nat := if cells.isEmpty then 0 else (((cells.map (val k)).foldl (· + ·) 0 + n / 2) / n).toNat
  let sat := (cells.filter fun c => (sites c).any fun z => px raw w h z.1 z.2 == top).length
  leBytes 2 (mean 0) ++ leBytes 2 (mean 1) ++ leBytes 2 (mean 2) ++ leBytes 2 (min sat 65535)

/-- The record from 0x018 on: zone sizes, reserved bytes, DONE still 0, histograms, zones, reserved bytes. -/
def statsBody (p : Params) (w h : Nat) (raw g3 : Img) (c8 : Rgb) (top : Int) : List Byte :=
  let zw := 2 * cdiv w 32
  let zh := 2 * cdiv h 32
  let luma := mkImg w h fun x y => (77 * px c8.1 w h x y + 150 * px c8.2.1 w h x y + 29 * px c8.2.2 w h x y + 128) / 256
  leBytes 4 (zw + zh * 65536) ++ List.replicate 0x24 0 ++ histo (flatN c8.1) ++ histo (flatN c8.2.1) ++
    histo (flatN c8.2.2) ++ histo (flatN luma) ++
    ((upto 16).flatMap fun zy => (upto 16).flatMap fun zx => zoneOf p w h zw zh g3 raw top zx zy) ++ List.replicate 0x7C0 0

end Sys2Proof.Machine
end

