-- ==== Sys2Proof/Machine/Camera.lean ====
section
/-! DEFINITION. Camera ingest (10 sections 1 to 4): ports, streams, frames, fusion sets, and the image pipeline's steps. -/

namespace Sys2Proof.Machine
open Sys2Proof

/-! ### Streams and their registers -/

/-- A stream. -/
def strOf (s : State) (m : Nat) : CsiStr := s.csi.strs.getD m {}

/-- Changing a stream. -/
def updStr (s : State) (m : Nat) (f : CsiStr → CsiStr) : State := { s with csi := { s.csi with strs := s.csi.strs.modify m f } }

/-- CSI_STRm_CFG.EN. -/
def strOn (s : State) (m : Nat) : Bool := rdB s (rCsiStrCfg m) 31

/-- PATH: 0 BAYER, 1 COLOUR, 2 RAW. -/
def strPath (s : State) (m : Nat) : Nat := rdF s (rCsiStrCfg m) 30 29

/-- WIDTH. -/
def strW (s : State) (m : Nat) : Nat := rdF s (rCsiStrGeom m) 15 0

/-- HEIGHT. -/
def strH (s : State) (m : Nat) : Nat := rdF s (rCsiStrGeom m) 31 16

/-- DT. -/
def strDt (s : State) (m : Nat) : Nat := rdF s (rCsiStrCfg m) 15 10

/-- OFMT. -/
def strOfmt (s : State) (m : Nat) : Nat := rdF s (rCsiStrOut m) 31 28

/-- SCALE. -/
def strScale (s : State) (m : Nat) : Nat := rdF s (rCsiStrOut m) 25 24

/-- NBUF. -/
def strNbuf (s : State) (m : Nat) : Nat := rdF s (rCsiStrHdr m) 31 28 + 1

/-- BUF_STRIDE. -/
def strStride (s : State) (m : Nat) : Nat := rdF s (rCsiStrBufStride m) 31 6 * 64

/-- BUF_BASE, a global address. -/
def strBase (s : State) (m : Nat) : Nat := 2 ^ 32 * rdF s (rCsiStrBufHi m) 13 0 + rdF s (rCsiStrBufLo m) 31 6 * 64

/-- The address of an offset of media SRAM. -/
def medAddr (o : Nat) : Nat := 0x2100000000 + o

/-- The frame header of buffer i. -/
def hdrAddr (s : State) (m i : Nat) : Nat := medAddr (rdF s (rCsiStrHdr m) 22 5 * 32 + 32 * i)

/-- EMB_MAX. -/
def embMax (s : State) (m : Nat) : Nat := rdF s (rCsiStrEmb m) 31 16

/-- EMB_BASE, an offset of media SRAM. -/
def embBase (s : State) (m : Nat) : Nat := rdF s (rCsiStrEmb m) 15 0 * 128

/-- NSTAT. -/
def nstat (s : State) (m : Nat) : Nat := rdF s (rCsiStrStats m) 31 28

/-- The statistics record of a frame. -/
def statAddr (s : State) (m seq : Nat) : Nat :=
  medAddr (0x2000 * rdF s (rCsiStrStats m) 22 13 + 0x2000 * (seq % max 1 (nstat s m)))

/-- The agent of stream m's writes: DRAM lines of OFMT 5 name format 0x2, all others 0x0 (R299). -/
def whoCsi (s : State) (m : Nat) : Who :=
  ⟨0xA, 9, rdF s (rCpJobCsi m) 11 0, some (if strOfmt s m = 5 ∧ strPath s m ≠ 2 then 2 else 0), some (48 + m)⟩

/-- Bytes written by stream m, none of them poisoned. -/
def csiPut (s : State) (m a : Nat) (bs : List Byte) : State :=
  fabStore s (whoCsi s m) a bs (List.replicate bs.length false)

/-- A flag of Table 10.4 is set in the open frame and in CSI_STRm_STATUS. -/
def frameFlag (s : State) (m i : Nat) : State :=
  updStr (wrB s (rCsiStrStatus m) i true) m fun t => { t with cur := t.cur.map fun f => { f with flags := f.flags ||| 2 ^ i } }

/-- The enabled streams of a port and VC, in rising number. -/
def strsOn (s : State) (p vc : Nat) : List Nat :=
  (upto 48).filter fun m => strOn s m && rdF s (rCsiStrCfg m) 23 20 == p && rdF s (rCsiStrCfg m) 19 16 == vc

/-- The streams a packet reaches (R283): frame and line packets all of its port and VC, embedded data the first of them, a
long packet the one of its data type. -/
def reached (s : State) (p : Nat) (k : CsiPkt) : List Nat :=
  if k.dt < 4 then strsOn s p k.vc
  else if k.dt = 0x12 then (strsOn s p k.vc).take 1
  else (strsOn s p k.vc).filter fun m => strDt s m == k.dt

/-! ### Ports (R278 to R282) -/

/-- Table 10.1: the supported long data types. -/
def longOk (dt : Nat) : Bool :=
  [0x2A, 0x2B, 0x2C, 0x2D, 0x2E, 0x1E, 0x24, 0x12].contains dt || (0x30 ≤ dt && dt ≤ 0x37)

/-- The packets in the FIFO of port p. -/
def portQ (s : State) (p : Nat) : List (CsiPkt × Nat) := s.csi.ports.getD p []

/-- Replacing the FIFO of port p; COUNT and FULL are read from it. -/
def setPort (s : State) (p : Nat) (q : List (CsiPkt × Nat)) : State :=
  { s with csi := { s.csi with ports := s.csi.ports.set p q } }

/-- The bytes in the FIFO of port p. -/
def portBytes (s : State) (p : Nat) : Nat := ((portQ s p).map fun k => k.1.data.length).foldl (· + ·) 0

/-- R280: FULL of port p: either limit is reached. -/
def portFull (s : State) (p : Nat) : Bool := 256 ≤ (portQ s p).length || 32768 ≤ portBytes s p

/-- R16, R280: whether a packet of n bytes meets a full FIFO, or fills it before its last byte. -/
def portOverrun (s : State) (p n : Nat) : Bool := portFull s p || decide (32768 < portBytes s p + n)

/-- PKT_LOST for the open frames a packet would have reached. -/
def pktLost (s : State) (p : Nat) (k : CsiPkt) : State :=
  foldS (fun s m => if (strOf s m).cur.isSome then frameFlag s m 7 else s) (reached s p k) s

/-- A packet discarded under R278 with a flag of CSI_PORTp_ERR. -/
def portDrop (s : State) (p i : Nat) : State := incr (wrB s (rCsiPortErr p) i true) (rCsiPortDropCnt p)

/-- A packet whose header is good. -/
def pktIn (s : State) (p : Nat) (k : CsiPkt) : State :=
  if 8 ≤ k.dt ∧ k.dt < 0x10 then s
  else if 0x10 ≤ k.dt ∧ !longOk k.dt then portDrop s p 3
  else if (reached s p k).isEmpty then portDrop s p 4
  else if portOverrun s p k.data.length then
    pktLost (incr (wrB s (rCsiPortPktCount p) 31 true) (rCsiPortOvrCnt p)) p k
  else if 0x10 ≤ k.dt ∧ !k.crcOk then
    pktLost (incr (wrB s (rCsiPortErr p) 2 true) (rCsiPortCrcCnt p)) p k
  else setPort s p (portQ s p ++ [(k, now s)])

/-- CSI_PACKET_RECEIVE of a packet on port p; a port of a disabled block takes none (R21).
Assumption log: 13 (DESIGN CHOICE). -/
def execCsiPacketReceive (p : Nat) (k : CsiPkt) (s : State) : Out :=
  let p := p % 12
  if !rdB s rCsiCtl 0 || (!rdB s (rCsiPortCtl p) 31 && !s.csi.closing.contains p) then .next s
  else if k.hdr = 2 then .next (incr (wrB s (rCsiPortErr p) 1 true) (rCsiPortHdrCnt p))
  else
    let s := if k.hdr = 1 then incr (wrB s (rCsiPortErr p) 0 true) (rCsiPortHdrCorrCnt p) else s
    .next (pktIn s p k)

/-- R281: a write of FLUSH := 1. -/
def portFlush (s : State) (p : Nat) : State := wrB s (rCsiPortCtl p) 30 true

/-- PORT_FLUSH of port p. -/
def execPortFlush (p : Nat) (s : State) : Out :=
  let p := p % 12
  .next (busWrite s (rCsiPortCtl p) (setBit (rd s (rCsiPortCtl p)) 30 true) fun s => portFlush s p)

/-- R282: EN := 0 of a port. -/
def portOff (s : State) (p : Nat) : State :=
  let s := wrB s (rCsiPortCtl p) 31 false
  { s with csi := { s.csi with closing := s.csi.closing.filter (· != p) ++ [p] } }

/-- PORT_DISABLE of port p. -/
def execPortDisable (p : Nat) (s : State) : Out :=
  let p := p % 12
  .next (busWrite s (rCsiPortCtl p) (setBit (rd s (rCsiPortCtl p)) 31 false) fun s =>
    if rdB s (rCsiPortCtl p) 31 then portOff s p else s)

/-! ### Lines (R287 to R290, R296, R297) -/

/-- The samples of a RAWn line, by the packing of CSI-2 (assumption 20).
Assumption log: 20 (PRESUMED). -/
def rawSamples (dt : Nat) (d : List Byte) : List Nat :=
  let b (i : Nat) : Nat := (byteAt d i).toNat
  if dt = 0x2B then (upto (d.length * 4 / 5)).map fun i => b (i / 4 * 5 + i % 4) * 4 + bitsN (b (i / 4 * 5 + 4)) (i % 4 * 2) 2
  else if dt = 0x2C then (upto (d.length * 2 / 3)).map fun i => b (i / 2 * 3 + i % 2) * 16 + bitsN (b (i / 2 * 3 + 2)) (i % 2 * 4) 4
  else if dt = 0x2D then (upto (d.length * 4 / 7)).map fun i =>
    b (i / 4 * 7 + i % 4) * 64 + bitsN (leAt d (i / 4 * 7 + 4) 3) (i % 4 * 6) 6
  else if dt = 0x2E then (upto (d.length / 2)).map fun i => b (2 * i) * 256 + b (2 * i + 1)
  else d.map fun x => x.toNat

/-- Bits of a RAW data type. -/
def rawBits (dt : Nat) : Nat :=
  if dt = 0x2B then 10 else if dt = 0x2C then 12 else if dt = 0x2D then 14 else if dt = 0x2E then 16 else 8

/-- A component of 8 bits, widened (R297).
Assumption log: 20 (PRESUMED). -/
def widen8 (c : Byte) : Nat := c.toNat * 257

/-- The pixels of a COLOUR line: three samples each, R, G, B.
Assumption log: 20 (PRESUMED). -/
def colourSamples (dt : Nat) (d : List Byte) : List Nat :=
  let b (i : Nat) : Nat := widen8 (byteAt d i)
  if dt = 0x24 then (upto (d.length / 3)).flatMap fun i => [b (3 * i + 2), b (3 * i + 1), b (3 * i)]
  else (upto (d.length / 2)).flatMap fun i =>
    let q := i / 2 * 4
    let (r, g, bl) := Config.yuvToRgb (b (q + 1 + i % 2 * 2)) (b q) (b (q + 2))
    [min r 65535, min g 65535, min bl 65535]

/-- Samples per pixel of a stream's input lines. -/
def perPx (s : State) (m : Nat) : Nat := if strPath s m = 1 then 3 else 1

/-- The samples of a line as the stream takes them: aligned to 16 bits on the BAYER path; for OFMT 0 right-aligned (two bytes
each of a user-defined type, assumption 20); bytes for OFMT 6.
Assumption log: 20 (PRESUMED). -/
def lineSamples (s : State) (m : Nat) (d : List Byte) : List Nat :=
  let dt := strDt s m
  if strPath s m = 0 then (rawSamples dt d).map fun v => v * 2 ^ (16 - rawBits dt)
  else if strPath s m = 1 then colourSamples dt d
  else if strOfmt s m = 6 then d.map fun x => x.toNat
  else if 0x30 ≤ dt then (upto (d.length / 2)).map fun i => leAt d (2 * i) 2
  else rawSamples dt d

/-- A line padded with PADPIX or cut to WIDTH. -/
def fitLine (s : State) (m : Nat) (v : List Nat) : List Nat :=
  (v ++ List.replicate (perPx s m * strW s m) (rdF s (rCsiStrPadpix m) 15 0)).take (perPx s m * strW s m)

/-- The bytes of a line on the RAW path. -/
def rawBytes (s : State) (m : Nat) (v : List Nat) : List Byte :=
  v.flatMap fun x => leBytes (if strOfmt s m = 6 then 1 else 2) x

/-- A line of the RAW path is written out.
Assumption log: 68 (DEDUCED). -/
def rawPut (s : State) (m buf line : Nat) (v : List Nat) : State :=
  let bs := rawBytes s m v
  match localOf s (strBase s m) with
  | some a => csiPut s m (a + buf * strStride s m + line * bs.length) bs
  | none => s

/-- Pad lines are written out on the RAW path; elsewhere a line that is absent at the end is a pad line. -/
def padLines (s : State) (m buf from' n : Nat) : State :=
  if strPath s m ≠ 2 then s else foldS (fun s i => rawPut s m buf (from' + i) (fitLine s m [])) (upto n) s

/-- R290: a line is discarded under LINE_DROP. -/
def lineDrop (s : State) (m : Nat) : State := incr (frameFlag s m 6) (rCsiStrLdropCnt m)

/-- R290: place i of the staging area of stream m: WIDTH x 2 bytes. -/
def stageAddr (s : State) (m i : Nat) : Nat := medAddr (embBase s m + strNbuf s m * embMax s m + i * (2 * strW s m))

/-- The bytes of a line in the staging area: the 16-bit samples of a BAYER line, little-endian; the spec does not say how a COLOUR
line of three components lies in WIDTH x 2 bytes, and those bytes are free.
Assumption log: 87 (DESIGN CHOICE). -/
def stageBytes (s : State) (m : Nat) (v : List Nat) : List Byte × State :=
  if strPath s m = 0 then (v.flatMap fun x => leBytes 2 x, s)
  else ((upto (2 * strW s m)).map fun i => BitVec.ofNat 8 (Config.freeNat (s.free + i)), freeSkip s (2 * strW s m))

/-- R290: a line enters the staging area, or is discarded under LINE_DROP, as every line is while the pipeline is disabled (R303).
The lines take the places of the area in turn.
Assumption log: 87 (DESIGN CHOICE). -/
def stageLine (s : State) (m : Nat) (f : Frame) (v : List Nat) : State :=
  if rdF s (rCsiStrOut m) 23 16 ≤ (strOf s m).staged.length || !rdB s rIspCtl 0 then lineDrop s m
  else
    let i := (strOf s m).place % max 1 (rdF s (rCsiStrOut m) 23 16)
    let (bs, s) := stageBytes s m v
    let s := csiPut s m (stageAddr s m i) bs
    let s := updStr s m fun t => { t with staged := t.staged ++ [⟨f.seq, f.next, v, s.csi.order, i⟩], place := i + 1 }
    { s with csi := { s.csi with order := s.csi.order + 1 } }

/-- R287, R288: one long packet of the open frame of stream m. -/
def lineIn (s : State) (m : Nat) (d : List Byte) : State :=
  match (strOf s m).cur with
  | none =>
    if (strOf s m).dropping then s else incr (wrB s (rCsiStrStatus m) 9 true) (rCsiStrNofsCnt m)
  | some f =>
    let s := updStr s m fun t => { t with cur := some { f with got := f.got + 1, skip := false } }
    if f.skip then s
    else if strH s m ≤ f.next then frameFlag s m 4
    else
      let v := lineSamples s m d
      let s := act s (48 + m) 7 (strW s m)
      let n := v.length / perPx s m
      let s := if n < strW s m then frameFlag s m 1 else if strW s m < n then frameFlag s m 2 else s
      let s := if strPath s m = 2 then rawPut s m f.buf f.next (fitLine s m v) else stageLine s m f (fitLine s m v)
      updStr s m fun t => { t with cur := t.cur.map fun f => { f with next := f.next + 1 } }

/-- R288: a line start with line number n on stream m. -/
def lineStart (s : State) (m n : Nat) : State :=
  match (strOf s m).cur with
  | none => s
  | some f =>
    if !rdB s (rCsiStrCfg m) 28 then s
    else if n = 0 || strH s m < n || n - 1 < f.next then
      updStr (frameFlag s m 4) m fun t => { t with cur := t.cur.map fun f => { f with skip := true } }
    else
      let s := if f.next < n - 1 then frameFlag (padLines s m f.buf f.next (n - 1 - f.next)) m 3 else s
      updStr s m fun t => { t with cur := t.cur.map fun f => { f with next := n - 1, skip := false } }

/-! ### Frames (R285 to R291) -/

/-- R285: a stream takes no buffer: its count steps back. -/
def wrBack (s : State) (m : Nat) : State :=
  wrF (updStr s m fun t => { t with wr := t.wr - 1 }) (rCsiStrWr m) 7 0 (((strOf s m).wr + 255) % 256)

/-- R303: whether the pipeline of stream m is disabled, so that its frames are dropped. -/
def ispOff (s : State) (m : Nat) : Bool := strPath s m != 2 && !rdB s rIspCtl 0

/-- R287, R289, R303, R445, R455: the open frame of stream m closes; `chk` is a mismatch of the pipe's check line. A frame that
closes while its pipeline is disabled is dropped as one under R289.
Assumption log: 87 (DESIGN CHOICE). -/
def frameClose (s : State) (m : Nat) (chk : Bool) : State :=
  match (strOf s m).cur with
  | none => s
  | some f =>
    let s := if f.next < strH s m then frameFlag (padLines s m f.buf f.next (strH s m - f.next)) m 3 else s
    let pipe := rdF s (rCsiStrCfg m) 9 8
    let s := if chk && strPath s m != 2 then rasPost s 9 6 0x9B 0xA 0 pipe 0 0 else s
    let f := ((strOf s m).cur).getD f
    let bad := bitsN f.flags 1 8 != 0
    let s := if bad then incr s (rCsiStrDmgCnt m) else s
    let s := if strPath s m ≠ 2 && bit (rd s rRasRetirePipe) pipe then logMsg (wrB s (rCsiStrCfg m) 31 false) 0xC 0x90 (leBytes 4 m) else s
    if (bad && rdB s (rCsiStrCfg m) 27) || ispOff s m then
      let s := incr (wrBack s m) (rCsiStrDropCnt m)
      updStr s m fun t => { t with cur := none, staged := t.staged.filter fun g => g.seq != f.seq }
    else
      updStr s m fun t => { t with cur := none, shut := t.shut ++
        [{ f with flags := f.flags ||| b2n bad, written := strPath s m == 2 }] }

/-- R300: an armed parameter set becomes active at a frame start. The frames of the stream that are closed and not done keep the set
that was active for them. -/
def loadArmed (s : State) (m : Nat) : State :=
  let r := if m < 32 then rIspArmLo else rIspArmHi
  if !rdB s r (m % 32) then s
  else
    let old := (upto 1024).map fun w => mget word0 s.csi.isp (1024 * m + w)
    let s := updStr s m fun t => { t with shut := t.shut.map fun f => { f with par := f.par <|> some old } }
    let ws := (upto 1024).map fun w => (1024 * m + w, rd s (rIspStrParam m w))
    let s := { s with csi := { s.csi with isp := mputs word0 ws s.csi.isp } }
    wrB s r (m % 32) false

/-- R285, R286, R291, R301: a frame start on stream m, sampled at `t0`. -/
def frameStart (s : State) (m num t0 : Nat) : State :=
  let s := match (strOf s m).cur with
    | some _ => frameClose (frameFlag s m 5) m false
    | none => s
  if !strOn s m then s
  else if strNbuf s m ≤ (rdF s (rCsiStrWr m) 7 0 + 256 - rdF s (rCsiStrRel m) 7 0) % 256 then
    updStr (incr (wrB s (rCsiStrStatus m) 10 true) (rCsiStrDropCnt m)) m fun t => { t with dropping := true }
  else
    let t := strOf s m
    let f : Frame := { seq := t.seq % 2 ^ 32, num := num, ts := (t0 : Int) - (rd s (rCsiStrTsOffset m)).toInt,
                       buf := t.wr % strNbuf s m }
    let s := updStr s m fun t => { t with cur := some f, dropping := false, seq := t.seq + 1, wr := t.wr + 1 }
    let s := wrF s (rCsiStrWr m) 7 0 ((t.wr + 1) % 256)
    let s := csiPut s m (hdrAddr s m f.buf + 0x1C) (leBytes 4 0)
    let s := if strPath s m = 0 ∧ nstat s m ≠ 0 then csiPut s m (statAddr s m f.seq + 0x3C) (leBytes 4 0) else s
    loadArmed s m

/-- R287: a frame end on stream m. -/
def frameEnd (s : State) (m : Nat) (chk : Bool) : State :=
  if (strOf s m).cur.isSome then frameClose s m chk
  else if (strOf s m).dropping then updStr s m fun t => { t with dropping := false }
  else incr (wrB s (rCsiStrStatus m) 9 true) (rCsiStrNofsCnt m)

/-- The router takes the oldest packet of port p, if it is of a kind and the block is enabled (R21). -/
def routed (s : State) (p : Nat) (kind : CsiPkt → Bool) (f : State → CsiPkt → Nat → State) : Out :=
  match portQ s (p % 12) with
  | [] => .next s
  | (k, t) :: q => if rdB s rCsiCtl 0 && kind k then .next (f (setPort s (p % 12) q) k t) else .next s

/-- FRAME_START: the router takes a frame start from port p. -/
def execFrameStart (p : Nat) (s : State) : Out :=
  routed s p (fun k => k.dt == 0) fun s k t => foldS (fun s m => frameStart s m k.num t) (reached s (p % 12) k) s

/-- FRAME_END: the router takes a frame end from port p; `chk` are the streams whose pipe's check line mismatches. -/
def execFrameEnd (p : Nat) (chk : List Nat) (s : State) : Out :=
  routed s p (fun k => k.dt == 1) fun s k _ => foldS (fun s m => frameEnd s m (chk.contains m)) (reached s (p % 12) k) s

/-- LINE_START: the router takes a line start, or a line end, from port p. -/
def execLineStart (p : Nat) (s : State) : Out :=
  routed s p (fun k => k.dt == 2 || k.dt == 3) fun s k _ =>
    if k.dt = 2 then foldS (fun s m => lineStart s m k.num) (reached s (p % 12) k) s else s

/-- LINE_PACKET: the router takes a long packet of pixel data from port p. -/
def execLinePacket (p : Nat) (s : State) : Out :=
  routed s p (fun k => 0x10 ≤ k.dt && k.dt != 0x12) fun s k _ => foldS (fun s m => lineIn s m k.data) (reached s (p % 12) k) s

/-- R283: embedded data of the open frame of stream m. -/
def embIn (s : State) (m : Nat) (d : List Byte) : State :=
  match (strOf s m).cur with
  | none => s
  | some f =>
    let d := d.take (embMax s m - f.emb)
    let s := if d.isEmpty then s else csiPut s m (medAddr (embBase s m + f.buf * embMax s m + f.emb)) d
    updStr s m fun t => { t with cur := t.cur.map fun f => { f with emb := f.emb + d.length } }

/-- EMBEDDED_DATA_PACKET: the router takes an embedded-data packet from port p. -/
def execEmbeddedDataPacket (p : Nat) (s : State) : Out :=
  routed s p (fun k => k.dt == 0x12) fun s k _ => foldS (fun s m => embIn s m k.data) (reached s (p % 12) k) s

/-- FLUSH_BOUNDARY: the packet boundary of port p. -/
def execFlushBoundary (p : Nat) (s : State) : Out :=
  let p := p % 12
  let off := s.csi.closing.contains p
  if !rdB s (rCsiPortCtl p) 30 && !off then .next s
  else
    let s := foldS (fun s k => pktLost s p k.1) (portQ s p) s
    let s := incr (wrB (setPort s p []) (rCsiPortCtl p) 30 false) (rCsiPortFlushCnt p)
    if !off then .next s
    else
      let s := { s with csi := { s.csi with closing := s.csi.closing.filter (· != p) } }
      .next (foldS (fun s m =>
        if rdF s (rCsiStrCfg m) 23 20 == p && (strOf s m).cur.isSome then frameClose (frameFlag s m 5) m false else s)
        (upto 48) s)

/-! ### The pipes (R290, R296 to R303) -/

/-- The active parameter set of stream m. -/
def activeSet (s : State) (m : Nat) : Params := fun w => mget word0 s.csi.isp (1024 * m + w)

/-- R300: the parameter set of a frame: the one that was active from its start on. -/
def frameSet (s : State) (m : Nat) (f : Frame) : Params :=
  match f.par with
  | some ws => fun w => ws.getD w 0
  | none => activeSet s m

/-- The line that pipe q takes next: the one staged longest among its streams. -/
def pipeNext (s : State) (q : Nat) : Option (Nat × Staged) :=
  let all := (upto 48).filterMap fun m =>
    if rdF s (rCsiStrCfg m) 9 8 = q ∧ strPath s m ≠ 2 then ((strOf s m).staged.head?).map fun g => (m, g) else none
  all.foldl (fun a c => match a with
    | some b => if c.2.order < b.2.order then some c else a
    | none => some c) none

/-- A line that a pipe has taken joins its frame. -/
def joinLine (f : Frame) (g : Staged) (bad : Bool) : Frame :=
  if f.seq ≠ g.seq then f
  else { f with lines := f.lines ++ [(g.line, g.px)], bad := if bad then f.bad ++ [g.line] else f.bad,
                flags := if bad then f.flags ||| 0x101 else f.flags }

/-- PIPE_LINE: pipe q takes the longest-waiting staged line; `bad` says that a word of it carried its poison flag, beside what the
staging area itself shows. A disabled pipeline takes no line: it is discarded under LINE_DROP (R303).
Assumption log: 68 (DEDUCED), 87 (DESIGN CHOICE). -/
def execPipeLine (q : Nat) (bad : Bool) (s : State) : Out :=
  match pipeNext s q with
  | none => .next s
  | some (m, g) =>
    if ispOff s m then .next (updStr (lineDrop s m) m fun t => { t with staged := t.staged.tail }) else
    let r := fabReads s (whoCsi s m) (stageAddr s m g.slot) (2 * strW s m)
    let s := r.2
    let bad := bad || r.1.pois.any id
    let s := if bad then wrB s (rCsiStrStatus m) 8 true else s
    let s := incrBy s (rIspPipePixCnt q) (strW s m)
    .next (updStr s m fun t =>
      { t with staged := t.staged.tail, cur := t.cur.map fun f => joinLine f g bad,
               shut := t.shut.map fun f => joinLine f g bad })

/-- The input plane of a frame: component c of its lines, absent lines padded. -/
def inPlane (s : State) (m : Nat) (f : Frame) (c : Nat) : Img :=
  let n := perPx s m
  (upto (strH s m)).map fun y =>
    let v := ((f.lines.find? fun l => l.1 == y).map fun l => l.2).getD (fitLine s m [])
    (upto (strW s m)).map fun x => ((v.getD (n * x + c) 0 : Nat) : Int)

/-- R301: the statistics record of a frame.
Assumption log: 68 (DEDUCED). -/
def putStats (s : State) (m : Nat) (f : Frame) (raw g3 : Img) (c8 : Rgb) : State :=
  let a := statAddr s m f.seq
  let b := rawBits (strDt s m)
  let top : Int := (2 ^ b - 1 : Nat) * (2 ^ (16 - b) : Nat)
  let head := leBytes 4 m ++ leBytes 4 f.seq ++ leBytes 4 f.num ++ leBytes 4 f.flags ++ leBytes 8 (truncI 64 f.ts)
  let s := csiPut s m a (head ++ statsBody (frameSet s m f) (strW s m) (strH s m) raw g3 c8 top)
  csiPut s m (a + 0x3C) (leBytes 4 1)

/-- The flag of each byte of an output of w by h (Table 10.8), of which the rows of `bad` come from a poisoned line: a 32-byte word
is flagged if any of its samples comes from one of them. -/
def outPois (ofmt fold w h : Nat) (bad : List Nat) : List Bool :=
  let row (y : Nat) : Bool := bad.contains y
  let bs : List Bool := match ofmt with
    | 1 => (upto h).flatMap fun y => List.replicate (3 * w) (row y)
    | 2 => (upto h).flatMap fun y => List.replicate (2 * w) (row y)
    | 3 => ((upto h).flatMap fun y => List.replicate w (row y)) ++
        (upto (h / 2)).flatMap fun y => List.replicate (w / 2 * 2) (row (2 * y) || row (2 * y + 1))
    | 4 => (upto h).flatMap fun y => List.replicate w (row y)
    | _ => (upto (cdiv h fold)).flatMap fun y => (upto (cdiv w fold)).flatMap fun _ => (upto 32).map fun ch =>
        decide (ch < 3 * fold * fold) && row (y * fold + ch / 3 / fold)
  (upto bs.length).map fun i => (slice bs (i / 32 * 32) 32).any id

/-- The output of a frame of the BAYER or COLOUR path is written to its buffer; the 32-byte words of output rows that
come from a poisoned line are written with their flag.
Assumption log: 68 (DEDUCED). -/
def putFrame (s : State) (m : Nat) (f : Frame) : State :=
  let w := strW s m
  let h := strH s m
  let p := frameSet s m f
  let sc := strScale s m
  let fold := rdF s (rCsiStrOut m) 27 26
  let g0 := inPlane s m f 0
  let g3 := bayerHead p w h g0
  let c8 : Rgb := if strPath s m = 0 then bayerTail p w h g3 else (g0, inPlane s m f 1, inPlane s m f 2)
  let s := if strPath s m = 0 ∧ nstat s m ≠ 0 then putStats s m f g0 g3 c8 else s
  let bs := ispOut p (strOfmt s m) fold sc w h c8
  let ps := outPois (strOfmt s m) fold (w / 2 ^ sc) (h / 2 ^ sc) (f.bad.map fun y => y / 2 ^ sc)
  match localOf s (strBase s m) with
  | some a => fabStore s (whoCsi s m) (a + f.buf * strStride s m) bs ps
  | none => s

/-! ### Fusion (R292 to R295) -/

/-- A fusion group. -/
def fgOf (s : State) (g : Nat) : Fg := s.csi.fgs.getD g {}

/-- Changing a fusion group. -/
def updFg (s : State) (g : Nat) (f : Fg → Fg) : State := { s with csi := { s.csi with fgs := s.csi.fgs.modify g f } }

/-- Table 10.5: a set record. -/
def setRec (seq flags : Nat) (tRef : Int) (ms : List Member) : List Word :=
  let present := ms.foldl (fun v x => v ||| 2 ^ x.str) 0
  let bufs := ms.foldl (fun v x => v + x.buf % 16 * 2 ^ (4 * x.str)) 0
  let t0 := (ms.head?.map fun x => x.ts).getD tRef
  let hi := ms.foldl (fun v x => max v x.ts) t0
  let lo := ms.foldl (fun v x => min v x.ts) t0
  let dmg := b2n (ms.any fun x => x.damaged) * 16
  let t := truncI 64 tRef
  ([seq, flags + dmg, t, t / 2 ^ 32, present, present / 2 ^ 32] ++ (upto 6).map (fun i => bufs / 2 ^ (32 * i)) ++
    [min (hi - lo).toNat 0xFFFFFFFF, 0, 0, 0]).map (BitVec.ofNat 32)

/-- R295: a record is posted to the set queue of group g. -/
def postSet (s : State) (g : Nat) (r : List Word) : State :=
  let (q, full) := fifoPush 64 r (fgOf s g).q
  let s := updFg s g fun x => { x with q := q }
  let s := cgSignal (traceRec s 6 0) g ((r.getD 0 0).toNat)
  if full then incr s (rCsiFgOvrCnt g) else s

/-- R293: the open set of group g closes: 0 COMPLETE, 1 TIMEOUT, 2 SPLIT. -/
def closeSet (s : State) (g kind : Nat) : State :=
  match (fgOf s g).cur with
  | none => s
  | some o =>
    let s := updFg s g fun x => { x with cur := none }
    let s := if kind = 0 then s else incr s (rCsiFgPartialCnt g)
    postSet s g (setRec o.seq (2 ^ kind) o.tRef o.present)

/-- A number for the next set. -/
def nextSet (s : State) (g : Nat) : Nat × State :=
  ((fgOf s g).seq, updFg s g fun x => { x with seq := (x.seq + 1) % 2 ^ 32 })

/-- R293: whether PRESENT equals MEMBERS. -/
def setFull (o : OpenSet) : Bool :=
  (o.members.all fun m => o.present.any fun y => y.str == m) && o.present.all fun y => o.members.contains y.str

/-- R293: the set of group g that a frame joins or opens, and the set's number. -/
def joinSet (s : State) (g : Nat) (x : Member) : Nat × State :=
  let (n, s) := match (fgOf s g).cur with
    | some o => (o.seq, updFg s g fun y => { y with cur := some { o with present := o.present ++ [x] } })
    | none =>
      let ms := (upto 48).filter fun m => strOn s m && rdF s (rCsiStrCfg m) 4 0 == g
      let (n, s) := nextSet s g
      (n, updFg s g fun y => { y with cur := some ⟨n, x.ts, now s, [x], ms⟩ })
  match (fgOf s g).cur with
  | some o => (n, if setFull o then closeSet s g 0 else s)
  | none => (n, s)

/-- R293: a frame of group g, whose enable reads 1, is done: the number of the set it joins. -/
def fuse (s : State) (g : Nat) (x : Member) : Nat × State :=
  let tol : Int := (rd s (rCsiFgTol g)).toNat
  match (fgOf s g).cur with
  | none => joinSet s g x
  | some o =>
    if (o.present.any fun y => y.str == x.str) || decide (o.tRef + tol < x.ts) then joinSet (closeSet s g 2) g x
    else if x.ts < o.tRef - tol then
      let (n, s) := nextSet s g
      (n, postSet (incr s (rCsiFgOowCnt g)) g (setRec n 8 x.ts [x]))
    else joinSet s g x

/-- FUSION_ARRIVAL: the SET_SEQ of a done frame. The spec gives no FLAGS for the COMPLETE bit of the singles queue, and no
SET_SEQ for a frame whose group is disabled: those are free.
Assumption log: 36 (DESIGN CHOICE). -/
def arriveFg (s : State) (m : Nat) (f : Frame) : Nat × State :=
  let g := rdF s (rCsiStrCfg m) 4 0
  let x : Member := ⟨m, f.buf, f.ts, bitN f.flags 0⟩
  if !rdB s (rCsiFgCtl g) 31 then ((freeW s).1.toNat, (freeW s).2)
  else if g = 16 then
    let (n, s) := freeN s
    let (k, s) := nextSet s 16
    (0xFFFFFFFF, postSet s 16 (setRec k (n % 2) f.ts [x]))
  else fuse s g x

/-- R303: a closed frame whose pipeline is disabled is dropped: its lines go under LINE_DROP, no header completes, and where no later
frame has started WR steps back (R289).
Assumption log: 87 (DESIGN CHOICE). -/
def frameLost (s : State) (m : Nat) (rest : List Frame) : State :=
  let s := incr (wrB s (rCsiStrStatus m) 6 true) (rCsiStrDropCnt m)
  let s := if rest.isEmpty && (strOf s m).cur.isNone then wrBack s m else s
  updStr s m fun t => { t with shut := rest }

/-- FRAME_DONE: the oldest closed frame of stream m, once its staged lines are taken: its output and statistics are written,
its header completed, and the frame offered to its fusion group.
Assumption log: 68 (DEDUCED). -/
def execFrameDone (m : Nat) (s : State) : Out :=
  match (strOf s m).shut with
  | [] => .next s
  | f :: rest =>
    if (strOf s m).staged.any fun g => g.seq == f.seq then .next s
    else if ispOff s m && !f.written then .next (frameLost s m rest)
    else
      let s := if f.written then s else putFrame s m f
      let s := updStr s m fun t => { t with shut := rest }
      let (n, s) := arriveFg s m f
      let a := hdrAddr s m f.buf
      let s := csiPut s m a (leBytes 4 f.seq ++ leBytes 2 f.num ++ leBytes 2 f.flags ++ leBytes 8 (truncI 64 f.ts) ++
        leBytes 2 f.got ++ leBytes 2 0 ++ leBytes 4 n ++ leBytes 4 0)
      .next (incr (csiPut s m (a + 0x1C) (leBytes 4 1)) (rCsiStrFrameCnt m))

/-- R293: whether WAIT of the open set of group g has elapsed. -/
def setLate (s : State) (g : Nat) : Bool :=
  match (fgOf s g).cur with
  | some o => decide (rdF s (rCsiFgWait g) 19 0 * 1000 ≤ now s - o.tOpen)
  | none => false

/-- SET_TIMEOUT of group g: its open set closes once WAIT has elapsed.
Assumption log: 8 (DESIGN CHOICE). -/
def execSetTimeout (g : Nat) (s : State) : Out := if g = 16 || !setLate s g then .next s else .next (closeSet s g 1)

/-! ### Buffers and parameters (R285, R300) -/

/-- R285: a write of CSI_STRm_REL. -/
def relWrite (s : State) (m v : Nat) : State :=
  if strNbuf s m < (rdF s (rCsiStrWr m) 7 0 + 256 - v % 256) % 256 then wrB s (rCsiStrStatus m) 11 true
  else wrF s (rCsiStrRel m) 7 0 v

/-- BUFFER_RELEASE of stream m with a new REL. -/
def execBufferRelease (m v : Nat) (s : State) : Out :=
  let m := m % 48
  .next (busWrite s (rCsiStrRel m) (BitVec.ofNat 32 (v % 256)) fun s => relWrite s m v)

/-- R300: the check of a shadow set: 0, or ISP_PARAM. A stage that the stream's path does not run may not be enabled. -/
def paramCheck (s : State) (m : Nat) : Nat :=
  let p : Params := fun w => rd s (rIspStrParam m w)
  let w0 := (p 0).toNat
  let zero (off : Nat) := p16 p off == 0
  let resv := bitsN w0 2 6 != 0 || bitsN w0 13 19 != 0 || bitsN (p16 p 0x00E) 4 12 != 0 || !zero 0x032 || !zero 0x03A || !zero 0x03C || !zero 0x03E ||
    !zero 0x052 || !((upto 19).all fun i => zero (0x05A + 2 * i)) || !zero 0x014 || !zero 0x016 ||
    !((upto 63).all fun i => zero (0x482 + 2 * i)) || !((upto 732).all fun i => zero (0xA48 + 2 * i))
  if resv || (strPath s m ≠ 0 && bitsN w0 8 5 != 0) then 0x67 else 0

/-- R300: a write of 1 to stream m's arm bit starts the check of its shadow set; in a commit group, whose prepare phase has been that
check, it arms the set at once. -/
def ispArm (direct : Bool) (s : State) (m : Nat) : State :=
  let (r, b) := armOf m
  if rdB s r b then s
  else if direct then wrB s r b true
  else { s with rf := { s.rf with chk := s.rf.chk ++ [⟨0x5C, r, b⟩] } }

/-- ISP_ARM of stream m: a write of 1 to its arm bit. The check ends with CONSISTENCY_CHECK_END. -/
def execIspArm (m : Nat) (s : State) : Out :=
  let m := m % 48
  .next (busWrite s (armOf m).1 (BitVec.ofNat 32 (2 ^ (armOf m).2)) fun s => ispArm false s m)

/-! ### Checks (R279, R284, R292) -/

/-- R279: the check of a port's EN. -/
def portCheck (s : State) (p : Nat) : Nat :=
  let r := rCsiPortCtl p
  let n := rdF s r 26 24
  let v := rdF s r 15 0
  let bad := if rdB s r 27 then n = 0 || 3 < n || v < 80 || 6000 < v
    else !([1, 2, 4].contains n) || v < 80 || 4500 < v
  if bad || !rdB s rCsiCtl 0 then 0x60 else 0

/-- R284 condition 3. -/
def geomBad (s : State) (m : Nat) : Bool :=
  let w := strW s m
  let h := strH s m
  let sc := strScale s m
  match strPath s m with
  | 0 => w < 2 || 8192 < w || h < 2 || 8192 < h || w % 2 != 0 || h % 2 != 0 || sc == 3 || w % 2 ^ sc != 0 || h % 2 ^ sc != 0
  | 1 => sc == 3 || w % 2 ^ sc != 0 || h % 2 ^ sc != 0
  | 2 => w == 0 || h == 0
  | _ => true

/-- R284 condition 4. -/
def bufBad (s : State) (m : Nat) : Bool :=
  let path := strPath s m
  let o := strOfmt s m
  let sc := if path = 2 then 0 else strScale s m
  let fold := rdF s (rCsiStrOut m) 27 26
  let size := frameSize o fold (strW s m / 2 ^ sc) (strH s m / 2 ^ sc)
  let inside := match localOf s (strBase s m) with
    | some a => a < 0x2000000000 || (0x2100000000 ≤ a && a < 0x2100800000)
    | none => false
  let med := 0x800000
  !inside || strStride s m < size || med < rdF s (rCsiStrHdr m) 22 5 * 32 + 32 * strNbuf s m ||
    med < embBase s m + strNbuf s m * embMax s m || med < 0x2000 * rdF s (rCsiStrStats m) 22 13 + 0x2000 * nstat s m ||
    !(if path = 2 then o == 0 || o == 6 else 1 ≤ o && o ≤ 5) || (o == 5 && fold == 0) || (nstat s m != 0 && path != 0)

/-- R284: the check of a stream's EN. -/
def streamCheck (s : State) (m : Nat) : Nat :=
  let r := rCsiStrCfg m
  let port := rdF s r 23 20
  let dup := (upto 48).any fun i => i != m && strOn s i && rdF s (rCsiStrCfg i) 23 10 == rdF s r 23 10
  let pipe := rdF s r 9 8
  let load := ((upto 48).filter fun i => i == m || (strOn s i && strPath s i != 2 && rdF s (rCsiStrCfg i) 9 8 == pipe)).foldl
    (fun t i => t + rdF s (rCsiStrOut i) 15 0) 0
  let g := rdF s r 4 0
  if 11 < port || !rdB s (rCsiPortCtl port) 31 then 0x61
  else if dup then 0x62
  else if geomBad s m then 0x63
  else if bufBad s m then 0x64
  else if strPath s m ≠ 2 && pipe < 3 && bit (rd s rRasRetirePipe) pipe then 0x90
  else if strPath s m ≠ 2 && (pipe == 3 || 1600 < load) then 0x65
  else if 17 ≤ g || !rdB s (rCsiFgCtl g) 31 then 0x66 else 0

/-- A stream's enable has passed: its frames are counted from zero. -/
def streamOn (s : State) (m : Nat) : State :=
  updStr (wrB s (rCsiStrCfg m) 31 true) m fun t => { t with seq := 0, cur := none, dropping := false, staged := [] }

/-- R292: the check of a group's EN. -/
def groupCheck (s : State) (g : Nat) : Nat :=
  let t := (rd s (rCsiFgTol g)).toNat
  let w := rdF s (rCsiFgWait g) 19 0
  if g = 16 then 0 else if t < 1 || 10000000 < t || w < 1 || 1000000 < w then 0x66 else 0

end Sys2Proof.Machine
end

