-- ==== Sys2Proof/Machine/Operands.lean ====
section
/-! DEFINITION. The operand forms of the vector unit: lanes and masks, memory operands with the last-tile rule (06 section
3), random draws (08 sections 1 to 4), function tables (04 section 6.1), and the result of an elementwise operation. -/

namespace Sys2Proof.Machine
open Sys2Proof

/-! ### Lanes -/

/-- A vector lane. -/
def laneGet (c : Core) (r l : Nat) : Word := mget word0 c.vreg (r * 64 + l)

/-- A lane's poison bit. -/
def laneP (c : Core) (r l : Nat) : Bool := mget flag0 c.vpois (r * 64 + l)

/-- The lanes of a governing mask, rising (R147). -/
def govLanes (c : Core) (m : Nat) : List Nat := bitList 64 (maskGet c m).toNat

/-- A lane as an FP32 value. -/
def laneF (c : Core) (r l : Nat) : FVal := dec32 (laneGet c r l)

/-- A PB word. -/
def pbGet (c : Core) (i : Nat) : Word := mget word0 c.pb i

/-- A PB word as an FP32 value. -/
def pbF (c : Core) (i : Nat) : FVal := dec32 (pbGet c i)

/-- R37, R83, R87: whether the VX field of a core acts now. -/
def vxTurn (s : State) (a : At) : Bool := guardOk s a.core && fieldTurn s a 2 && !heldAny s (a.core / 4)

/-- R37, R83, R87: whether the MV field of a core, of an operation that does not block, acts now. -/
def mvTurn (s : State) (a : At) : Bool := guardOk s a.core && fieldTurn s a 3 && !heldAny s (a.core / 4)

/-- The frame of a vector operation: a reserved encoding is refused; where the GUARD does not hold, it is not the field's turn
(R83, R84, R88) or the beat is blocked (R37) nothing acts; otherwise one vector operation is counted (R478) and `f` acts.
Assumption log: 58 (DESIGN CHOICE). -/
def vxDo (op : Nat) (a : At) (x : VxArgs) (s : State) (f : State → Out) : Out :=
  if !vxOk op x then .refused .reservedEncoding
  else
    let s := adv s (a.core / 4) a.dt
    if !vxTurn s a then .next s else f (act (acted s (a.core / 4) (actKey a.core 2)) (a.core / 4) 3 1)

/-- R147, R148: an operation that computes each active lane of VD alone. `srcs` are the registers its poison comes from. -/
def vxLanes (s : State) (n : Nat) (x : VxArgs) (l : Nat) (srcs : List Nat) (f : Nat → Num Word) : State :=
  let c := coreOf s n
  let (ws, fl) := numRun ((govLanes c x.mask).mapM fun i => do
    let v ← f i
    return (x.vd * 64 + i, v, srcs.any fun r => laneP c r i))
  applyFl (pend s n l (.lanes ws)) n fl

/-! ### Random draws (R246 to R254) -/

/-- R247: one Philox round. -/
def philoxRound (k0 k1 : Nat) (c : Nat × Nat × Nat × Nat) : Nat × Nat × Nat × Nat :=
  let p0 := 0xD2511F53 * c.1
  let p1 := 0xCD9E8D57 * c.2.2.1
  let w := 2 ^ 32
  ((p1 / w).xor (c.2.1.xor k0), p1 % w, (p0 / w).xor (c.2.2.2.xor k1), p0 % w)

/-- R247: rounds from round r on, with the keys of round r. -/
def philoxGo (k0 k1 : Nat) (c : Nat × Nat × Nat × Nat) : Nat → Nat × Nat × Nat × Nat
  | 0 => c
  | n + 1 => philoxGo ((k0 + 0x9E3779B9) % 2 ^ 32) ((k1 + 0xBB67AE85) % 2 ^ 32) (philoxRound k0 k1 c) n

/-- R247: Philox-4x32-10 of a key and a counter. -/
def philox (k0 k1 c0 c1 c2 c3 : Nat) : Nat × Nat × Nat × Nat := philoxGo k0 k1 (c0, c1, c2, c3) 10

/-- R249: the global element index of lane l for the beat offset jj. -/
def genIndex (g : Gen) (l jj : Nat) : Nat :=
  truncI 64 ((g.idxHi.toNat : Int) * 2 ^ 32 + ((mget word0 g.ri l).toNat : Int) + (jj : Int) * g.rinc.toInt)

/-- R246: the evaluation for an element index and a draw class. -/
def genEval (g : Gen) (cls e : Nat) : Nat × Nat × Nat × Nat :=
  let q := e / 4
  philox g.keyLo.toNat g.keyHi.toNat (q % 2 ^ 32) (q / 2 ^ 32) g.stream.toNat (cls % 256 * 2 ^ 24 + g.round % 2 ^ 24)

/-- R254: the word of an element. -/
def genWord (g : Gen) (cls e : Nat) : Nat :=
  let w := genEval g cls e
  match e % 4 with
  | 0 => w.1
  | 1 => w.2.1
  | 2 => w.2.2.1
  | _ => w.2.2.2

/-- R254: the slice of an element. -/
def genSlice (g : Gen) (cls e : Nat) : Nat := (genEval g cls e).1 / 256 ^ (e % 4) % 256

/-- The rounding of a MODE field for lane l and beat offset jj; SR takes the slice of class 0x01 (R257). -/
def mdOf (c : Core) (mode l jj : Nat) : Rnd :=
  if mode = 0 then .rne else if mode = 1 then .sr (genSlice c.gen 1 (genIndex c.gen l jj)) else .rup

/-! ### Function tables (R151, R259) -/

/-- A word of function table t: LO, INV_W, then BASE and SLOPE of each entry. -/
def tabF (c : Core) (t i : Nat) : FVal := dec32 (mget word0 c.tabs (1024 * t + i))

/-- R151: VLUT. -/
def vlut (c : Core) (t : Nat) (x : FVal) : Num FVal :=
  if fIsNan x then return .nan
  else do
    let d ← sub32 x (tabF c t 0)
    let u ← mul32 d (tabF c t 1)
    if fIsNan u then return .nan
    else
      let (i, f) : Nat × FVal :=
        if fLt u fZero then (0, fZero)
        else if fLe (fOfInt 256) u then (255, fOne)
        else
          let i := (fFloor u).toNat
          (i, fAddX u (fOfInt (-(i : Int))))
      fma32 (tabF c t (3 + 2 * i)) f (tabF c t (2 + 2 * i))

/-- 2^n as an exact value. -/
def fPow2 (n : Int) : FVal := .fin false 1 n

/-- R151: VEXP2. -/
def vexp2 (c : Core) (t : Nat) (x : FVal) : Num FVal :=
  if fIsNan x then return .nan
  else if fIsInf x then return (if fNeg x then fZero else x)
  else do
    let n := max (-160) (min (fFloor x) 160)
    let f ← step32 [x] (fAddX x (fOfInt (-n)))
    let y ← vlut c t f
    step32 [y] (fMulX y (fPow2 n))

/-- x = m * 2^e with m in [1, 2), for a finite positive value. -/
def fSplit : FVal → FVal × Int
  | .fin _ m e => let k := Nat.log2 m; (.fin false m (-(k : Int)), e + k)
  | x => (x, 0)

/-- LN2 of R259. -/
def ln2 : FVal := dec32 0x3F317218

/-- R259: LOG with table t. -/
def vlog (c : Core) (t : Nat) (x : FVal) : Num FVal :=
  if fIsNan x || (fNeg x && !fIsZero x) then return .nan
  else if fIsZero x then return .inf true
  else if fIsInf x then return x
  else do
    let (m, e) := fSplit x
    let l ← vlut c t m
    let a ← step32 [l] (fAddX (fOfInt e) l)
    mul32 a ln2

/-- R260: the Gumbel noise of a word of class 0x03. -/
def gumbel (c : Core) (t w : Nat) : Num FVal := do
  let u := FVal.fin false (w / 256 + 1) (-24)
  let a ← vlog c t u
  let b := max32 (fNegate a) (fPow2 (-30))
  let g ← vlog c t b
  return fNegate g

/-! ### Memory operands (R147, R214) -/

/-- R214: what the last-tile rule does to lane l of a memory operation in beat j: whether it is masked. -/
def laneMasked (s : State) (k j l : Nat) : Bool :=
  maskedBy (coreValid s k 8) j || maskedBy (coreValid s k 12) l

/-- R214: the pad element of a format. -/
def padOf (s : State) (k fmt : Nat) : Nat := (padWord s k).toNat % 2 ^ fmtBits fmt

/-- The run of bytes that element l of a stream of `bits`-bit elements lies in. -/
def elemRun (addr bits l : Nat) : Nat × Nat := if bits = 4 then (addr + l / 2, 1) else (addr + l * (bits / 8), bits / 8)

/-- The code of element l, from the bytes of its run. -/
def elemCode (bits l : Nat) (bs : List Byte) : Nat := if bits = 4 then leNat bs / 16 ^ (l % 2) % 16 else leNat bs

/-- An access of no lane needs no address. -/
def addrIf (need : Bool) (x : Except Fault Nat) : Except Fault Nat := if need then x else .ok 0

/-- The lanes of a memory operation: those that the last-tile rule leaves, and the masked ones (R214). -/
def liveLanes (s : State) (n : Nat) (x : VxArgs) (j : Nat) : List Nat × List Nat :=
  let ls := govLanes (coreOf s n) x.mask
  (ls.filter (fun l => !laneMasked s (n / 4) j l), ls.filter (fun l => laneMasked s (n / 4) j l))

/-- Loading lanes: `run l` is the run of bytes of lane l, `val` its value, `extra` the registers whose poison it also takes,
`padFmt` the format its pad element is read and widened in. -/
def loadLanes (s : State) (n : Nat) (x : VxArgs) (lat : Nat) (j padFmt : Nat) (run : Nat → Nat × Nat)
    (val : Nat → List Byte → Word) (extra : List Nat) : State :=
  let c := coreOf s n
  let (live, masked) := liveLanes s n x j
  let (got, s) := barReadRuns s n (live.map run)
  let ws := (List.zip live got).map fun y =>
    (x.vd * 64 + y.1, val y.1 y.2.1, y.2.2 || extra.any fun r => laneP c r y.1)
  let pads := masked.map fun l => (x.vd * 64 + l, widen padFmt (padOf s (n / 4) padFmt), false)
  pend s n lat (.lanes (ws ++ pads))

/-- Storing bytes or nibbles per lane: the conversion of each active, unmasked lane, in order of lanes. -/
def convLanes (s : State) (n : Nat) (x : VxArgs) (j : Nat) (ls : List Nat) : List (Nat × Nat) × State :=
  let c := coreOf s n
  let (r, fl) := numRun (ls.mapM fun l => do
    if x.fmt = 0 then return (l, (laneGet c x.va l).toNat % 256)
    else
      let v ← convert x.fmt (mdOf c x.mode l j) x.sat (laneVal (bitN x.arg 9) (laneGet c x.va l))
      return (l, v))
  (r, applyFl s n fl)

/-! ### Window reads of the vector unit (R232, R238, R241) -/

/-- The window in force with VWIN = 1. -/
def vwinOn (s : State) (k : Nat) : Option (NestSt × Win) :=
  match winOn s k with
  | some (ns, w) => if w.vwin then some (ns, w) else none
  | none => none

end Sys2Proof.Machine
end

