-- ==== Sys2Proof/Machine/Transfer.lean ====
section
/-! DEFINITION. Transfers (05 sections 2 and 4 to 8, 06 section 6): slots and epochs at a memory, the operations of a
transfer, their reads and writes, releases and commits. -/

namespace Sys2Proof.Machine
open Sys2Proof

/-! ### Slots -/

/-- R168: the keys of the slots that a local byte range covers; none outside the engine memories. -/
def slotKeys (a n : Nat) : List Nat :=
  match memAt a with
  | none => []
  | some _ => if n = 0 then [] else
    (upto ((a + n - 1) / 4096 + 1 - a / 4096)).map fun i => a % 0x2000000000 / 4096 + i

/-- R220: the placement epoch of cluster k. -/
def cluEpoch (s : State) (k : Nat) : Nat := rdF s (rCluEpoch k) 15 0

/-- R221: whether an operation with an epoch is stale at memory m. -/
def isStale (s : State) (m epoch : Nat) : Bool := epoch != 0 && epoch != cluEpoch s (memClu m)

/-- R221: a stale operation or message at memory m. -/
def staleHit (s : State) (m : Nat) : State :=
  incr (wrB s (rCluShapeStatus (memClu m)) 2 true) (rCluStaleCnt (memClu m))

/-- R172: a commit of an owner at the slots of one memory. -/
def commitSlots (s : State) (o : Owner) (epoch : Nat) (ks : List Nat) : State :=
  match ks with
  | [] => s
  | k :: _ =>
    if isStale s (k / 512) epoch then staleHit s (k / 512)
    else foldS (fun s k =>
      let s := tagSee s k
      let v := slotGet s k
      if v.tag = .filling && v.owner == o then slotTag s k .full else s) ks s

/-- R184: a release at the slots of one memory. -/
def releaseSlots (s : State) (epoch : Nat) (ks : List Nat) : State :=
  match ks with
  | [] => s
  | k :: _ =>
    if isStale s (k / 512) epoch then staleHit s (k / 512)
    else foldS (fun s k =>
      let s := tagSee s k
      if (slotGet s k).tag = .full then slotTag s k .empty else s) ks s

/-- What becomes of a write operation at a memory. -/
inductive Arr where
  | landed
  | held
  | stale
  | full
  deriving DecidableEq, Repr

/-- The held operations of memory m. -/
def heldOf (s : State) (m : Nat) : List Held := s.mem.holds.filter fun h => h.mem == m

/-- The slot that a held operation waits for. -/
def heldKey (h : Held) : Nat := h.addr % 0x2000000000 / 4096

/-- R170, R171: whether a write operation may land at its slot: it is the owner's, or begins a fill of an EMPTY slot that no older
held operation waits for. -/
def mayLand (s : State) (h : Held) : Bool :=
  let v := slotGet s (heldKey h)
  (v.tag == .empty && !(s.mem.holds.any fun o => heldKey o == heldKey h)) || (v.tag == .filling && v.owner == h.owner)

/-- R170, R171, R221: a write operation of a transfer reaches memory m: it is stale, lands, begins a fill, or is held; a full
hold store accepts nothing. -/
def arrive (s : State) (m epoch : Nat) (h : Held) : Arr × State :=
  let key := heldKey h
  if (heldOf s m).length = 64 then (.full, s)
  else if isStale s m epoch then (.stale, staleHit s m)
  else
  let s := tagSee s key
  let v := slotGet s key
  if mayLand s h then
    let s := if v.tag = .empty then slotPut s key ⟨.filling, h.cls, h.owner⟩ else s
    let s := actMem s (memClu m) (wordsIn h.addr h.data.length)
    (.landed, sramWrite s (runWrites h.addr h.data h.pois))
  else
    let s := incr { s with mem := { s.mem with holds := s.mem.holds ++ [h] } } (rCluHoldCnt (memClu m))
    (.held, if (heldOf s m).length = 64 then wrB s (rCluTagStatus (memClu m)) 3 true else s)

/-- R171: held operations of one issuer for a slot land, in order of arrival. -/
def heldLand (s : State) (h : Held) : State :=
  let s := actMem s (memClu h.mem) (wordsIn h.addr h.data.length)
  ackTo (sramWrite s (runWrites h.addr h.data h.pois)) h.owner h.xid h.ix h.addr h.job 0 0

/-- R171: the oldest held operation of an EMPTY slot begins a fill, and those of the same issuer for the slot land. -/
def holdLand (s : State) (key : Nat) : State :=
  let here (h : Held) := heldKey h == key
  let s := tagSee s key
  match (if (slotGet s key).tag = .empty then s.mem.holds.find? here else none) with
  | none => s
  | some h0 =>
    let go := s.mem.holds.filter fun h => here h && h.owner == h0.owner
    let s := { s with mem := { s.mem with holds := s.mem.holds.filter fun h => !(here h && h.owner == h0.owner) } }
    foldS heldLand go (slotPut s key ⟨.filling, h0.cls, h0.owner⟩)

/-! ### The rows and operations of a transfer (R181, R183, R216) -/

/-- The source address of row i. -/
def rowSrcA (x : Xfer) (i : Nat) : Nat := truncI 64 ((x.src : Int) + (i : Int) * x.sInc)

/-- The destination address of row i. -/
def rowDstA (x : Xfer) (i : Nat) : Nat := truncI 64 ((x.dst : Int) + (i : Int) * x.dInc)

/-- Whether a global address lies in an SPM or a cluster store, of any chip. -/
def inEngine (g : Nat) : Bool := (memAt (g % 2 ^ 40)).isSome

/-- R190: the parts of a row: the whole row, or what has merged into one. -/
def rowParts (x : Xfer) (i : Nat) : List XPart :=
  if x.parts.isEmpty then [⟨x.rowLen, x.maskFrom ≤ i, x.pad, x.cls, x.ring, x.dirDec, x.hops⟩] else x.parts

/-- The operations of parts that begin at offset o of a row: pieces of the destination, none where a masked row has its bytes
outside the engine memories (R216). -/
def partPieces (base o : Nat) : List XPart → List (Nat × Nat × Nat)
  | [] => []
  | p :: ps =>
    (((pieces (base + o) p.len).map fun y => (o + y.1, y.2.1, y.2.2)).filter fun y => !p.masked || inEngine y.2.1) ++
      partPieces base (o + p.len) ps

/-- The part that byte o of a row lies in. -/
def partAt (o : Nat) : List XPart → Option XPart
  | [] => none
  | p :: ps => if o < p.len then some p else partAt (o - p.len) ps

/-- The operations of row i. -/
def rowPieces (x : Xfer) (i : Nat) : List (Nat × Nat × Nat) := partPieces (rowDstA x i) 0 (rowParts x i)

/-- The operations of a transfer: (row, offset in the row, destination address, length). -/
def xferOps (x : Xfer) : List (Nat × Nat × Nat × Nat) :=
  (upto x.rows).flatMap fun i => (rowPieces x i).map fun p => (i, p.1, p.2.1, p.2.2)

/-- The number of operations of a transfer. -/
def opCount (x : Xfer) : Nat := (xferOps x).length

/-- The own-chip source slots of a transfer. -/
def srcKeys (s : State) (x : Xfer) : List Nat :=
  ((upto x.rows).flatMap fun i => match localOf s (rowSrcA x i) with
    | some a => slotKeys a x.rowLen
    | none => []).eraseDups

/-- R193: a write operation of a transfer is refused or not sent: its destination receives no commit either. -/
def denyDst (x : Xfer) (dst len : Nat) : Xfer :=
  { x with denied := x.denied ++ (slotKeys (dst % 2 ^ 40) len).map fun q => (dst / 2 ^ 40, q) }

/-- R184: whether the source slots of a transfer let its first read issue, each tag read once. Where the source lies on another
chip no rule says how its tags become known: it is a free value in each attempt.
Assumption log: 83 (DESIGN CHOICE). -/
def srcReady (s : State) (x : Xfer) : Bool × State :=
  if !x.swait then (true, s)
  else
    let s := foldS tagSee (srcKeys s x) s
    if !((srcKeys s x).all fun key => (slotGet s key).tag == .full) then (false, s)
    else if x.src / 2 ^ 40 ≠ ownChip s ∧ inEngine x.src then
      let (n, s) := freeN s
      (n % 2 == 1, s)
    else (true, s)

/-- The destination slots of a transfer that it writes, with the chip they lie on. -/
def dstKeys (x : Xfer) : List (Nat × Nat) :=
  ((upto x.rows).flatMap fun i =>
    (slotKeys (rowDstA x i % 2 ^ 40) x.rowLen).map fun k => (rowDstA x i / 2 ^ 40, k)).eraseDups

/-- Whether an endpoint of a transfer lies on another chip. -/
def xferRemote (s : State) (x : Xfer) : Bool := x.src / 2 ^ 40 != ownChip s || x.dst / 2 ^ 40 != ownChip s

/-- The core of cluster k whose SPM holds a global address. -/
def spmOf (s : State) (k g : Nat) : Option Nat :=
  match localOf s g with
  | none => none
  | some a => match memAt a with
    | some m => if m < 32 ∧ m / 4 = k then some m else none
    | none => none

/-- R183: the core that an operation is charged to. -/
def chargeOf (s : State) (k src dst : Nat) : Nat :=
  match spmOf s k src, spmOf s k dst with
  | some n, _ => n
  | none, some n => n
  | none, none => (mapPos s k 0).getD (4 * k)

/-- Bytes of a masked row (R216): byte b of the row receives byte b mod 4 of PAD. -/
def padBytes (pad off n : Nat) : List Byte := (upto n).map fun i => BitVec.ofNat 8 (pad / 256 ^ ((off + i) % 4))

/-- The slots of some keys, split by memory. -/
def byMem (ks : List Nat) : List (List Nat) :=
  ((ks.map fun k => k / 512).eraseDups).map fun m => ks.filter fun k => k / 512 == m

/-- A 512-bit slot map as 64 bytes (Table 15.4). -/
def slotMap (ks : List Nat) : List Byte :=
  leBytes 64 (ks.foldl (fun v k => v ||| 2 ^ (k % 512)) 0)

/-- The slot keys of a slot map of memory m. -/
def mapSlots (m : Nat) (bs : List Byte) : List Nat := (bitList 512 (leNat bs)).map fun b => m * 512 + b

/-- A commit or release message to a memory on another chip. -/
def slotSeg (s : State) (kind chip m epoch job tag : Nat) (ks : List Nat) : State :=
  (segSend s { seg0 s kind chip (2 ^ 40 * chip + memBase m) 1 tag epoch job with data := slotMap ks }).2

/-- R184: the source slots of a transfer are released: at once in the issuer's own cluster, by a message elsewhere.
Assumption log: 66 (DEDUCED). -/
def releaseSrc (s : State) (isl : Nat) (x : Xfer) : State :=
  let s := foldS (fun s ks =>
    let d := memClu (ks.headD 0 / 512)
    if d = isl then releaseSlots s x.epoch ks
    else { s with cross := s.cross ++ [⟨isl, d, .release x.epoch ks⟩] }) (byMem (srcKeys s x)) s
  if x.src / 2 ^ 40 = ownChip s then s
  else
    let ks := ((upto x.rows).flatMap fun i => slotKeys (rowSrcA x i % 2 ^ 40) x.rowLen).eraseDups
    foldS (fun s ks => slotSeg s 6 (x.src / 2 ^ 40) (ks.headD 0 / 512) x.epoch x.job x.id ks) (byMem ks) s

/-- R172, R193: the commit of a transfer that is written: on the ring at once, elsewhere by one message to each memory; what was
refused receives none.
Assumption log: 66 (DEDUCED). -/
def commitDst (s : State) (isl : Nat) (o : Owner) (x : Xfer) : State :=
  let ks := (dstKeys x).filter fun k => !x.denied.contains k
  let here := (ks.filter fun k => k.1 == ownChip s).map fun k => k.2
  let far := ks.filter fun k => k.1 != ownChip s
  let s := foldS (fun s ks =>
    if x.ring then commitSlots s o x.epoch ks
    else { s with cross := s.cross ++ [⟨isl, memClu (ks.headD 0 / 512), .commit o x.epoch ks⟩] }) (byMem here) s
  foldS (fun s c => foldS (fun s ks => slotSeg s 5 c (ks.headD 0 / 512) x.epoch x.job x.id ks)
    (byMem ((far.filter fun k => k.1 == c).map fun k => k.2)) s) ((far.map fun k => k.1).eraseDups) s

/-! ### Reads and writes of operations -/

/-- The result of handing a write to its destination: still here, handed on (held, or on a link), or acknowledged. -/
inductive Sent where
  | wait
  | gone
  | done
  deriving DecidableEq, Repr

/-- R194: a parity mismatch at the encoder of a destination: reported per word. -/
def parReport (s : State) (a n : Nat) : State :=
  foldS (fun s w => sramEvent (cluIncr s w rCluParCnt) 6 0x94 (32 * w)) (runWords (a, n)) s

/-- R170, R193, R328: a write operation of this chip reaches its local destination: the firewall, then the memory. `par` is a
parity mismatch. -/
def writeLocal (s : State) (w : Who) (o : Owner) (y : XOp) (a : Nat) (bs : List Byte) (ps : List Bool)
    (par notag : Bool) : Sent × State :=
  let code := if y.ring then 0 else accessCode s w true a
  if code ≠ 0 then (.done, refuse s w code (glob s a))
  else
    let ps := if par then ps.map fun _ => true else ps
    match (if notag then none else memAt a) with
    | some m =>
      match arrive s m y.epoch ⟨m, a, o, y.cls, y.xid, y.ix, y.job, bs, ps⟩ with
      | (.full, s) => (.wait, s)
      | (.held, s) => (.gone, if par then parReport s a bs.length else s)
      | (.landed, s) => (.done, if par then parReport s a bs.length else s)
      | (.stale, s) => (.done, s)
    | none =>
      let s := (fabWrite s w a bs ps).2
      (.done, if par then parReport s a bs.length else s)

/-- R193, R345, R355, R422, R433: a write operation leaves for another chip, through the window it passed when it issued: with no
window it is refused; otherwise poison is consumed and not sent, a missing route refuses it, or a WR segment is queued under a
new TAG. -/
def writeRemote (s : State) (w : Who) (o : Owner) (y : XOp) (bs : List Byte) (ps : List Bool) : Sent × Nat × State :=
  match y.pass <|> winPass s true y.dst with
  | none => (.done, 0x46, refuse s w 0x46 y.dst)
  | some (i, era) =>
    if ps.any id then (.done, 0, consume s w.isl w.agent 2 w.job y.dst)
    else
      let t := freeTag s
      let chip := y.dst / 2 ^ 40
      let g := { seg0 s 1 chip y.dst y.len t y.epoch y.job with data := blockOf y.dst bs }
      match segSend s g with
      | (false, s) => (.done, 0x76, logRefusal s w.isl 0x76 w.agent w.job y.dst)
      | (true, s) =>
        let s := match w.src with
          | some i => act s i 6 1
          | none => s
        (.gone, t, newRop s ⟨t, false, o, y.xid, y.ix, i, now s, chip, y.dst, y.job, era⟩)

/-- R193, R422, R433: a read operation of another chip's memory issues: refused with zero poisoned bytes, or a RDREQ under a
new TAG. -/
def readRemote (s : State) (w : Who) (o : Owner) (y : XOp) : XOp × Nat × State :=
  let zero := { y with data := some (List.replicate y.len 0, List.replicate y.len true) }
  match winPass s false y.src with
  | none => (zero, 0x46, refuse s w 0x46 y.src)
  | some (i, era) =>
    let t := freeTag s
    let chip := y.src / 2 ^ 40
    match segSend s (seg0 s 2 chip y.src y.len t y.epoch y.job) with
    | (false, s) => (zero, 0x76, logRefusal s w.isl 0x76 w.agent w.job y.src)
    | (true, s) => ({ y with tag := some t }, 0, newRop s ⟨t, true, o, y.xid, y.ix, i, now s, chip, y.src, y.job, era⟩)

/-- The agent of cluster k's transfers. -/
def whoClu (k job : Nat) : Who := ⟨k, k, job, none, some k⟩

/-- Changing a transfer of a pending list. -/
def updXfer (s : State) (k xid : Nat) (f : Xfer → Xfer) : State :=
  updClu s k fun c => { c with xfers := c.xfers.map fun x => if x.id = xid then f x else x }

/-- Changing an operation of a cluster. -/
def updOp (s : State) (k xid ix : Nat) (f : XOp → XOp) : State :=
  updClu s k fun c => { c with ops := c.ops.map fun y => if y.xid = xid ∧ y.ix = ix then f y else y }

/-- A transfer of a pending list. -/
def xferOf (s : State) (k xid : Nat) : Option Xfer := (clu s k).xfers.find? fun x => x.id == xid

/-- R184, R216: after a transfer's last read, SREL acts. A transfer all of whose rows are masked and written nowhere has no read; it
releases once SWAIT lets it. -/
def readsDone (s : State) (k xid : Nat) : State :=
  match xferOf s k xid with
  | none => s
  | some x =>
    if x.srel && !x.released && x.reads == opCount x then
      let r := if opCount x = 0 then srcReady s x else (true, s)
      if r.1 then releaseSrc (updXfer r.2 k xid fun x => { x with released := true }) k x else r.2
    else s

/-- Whether every operation of a transfer is acknowledged, and its release, if any, has acted. -/
def xferWritten (x : Xfer) : Bool := x.acks == opCount x && (!x.srel || x.released)

/-- R172: transfers without COMMIT leave the pending list when they are complete. -/
def xfersDone (s : State) (k : Nat) : State :=
  updClu s k fun c => { c with xfers := c.xfers.filter fun x => x.commit || !xferWritten x }

/-- An operation of a cluster has its data. -/
def opData (s : State) (k xid ix : Nat) (bs : List Byte) (ps : List Bool) : State :=
  let s := updOp s k xid ix fun y => { y with data := some (bs, ps) }
  xfersDone (readsDone (updXfer s k xid fun x => { x with reads := x.reads + 1 }) k xid) k

/-- An operation of a cluster is acknowledged. -/
def opAck (s : State) (k xid ix : Nat) : State :=
  xfersDone (ackTo s (.cluster k) xid ix 0 0 0 0) k

/-- R38: whether the ring of cluster k is held: its beat is blocked, by something else than a wait for its transfers to complete,
or it waits at a tie-point.
Assumption log: 82 (DEDUCED). -/
def ringHeld (s : State) (k : Nat) : Bool :=
  let c := clu s k
  c.running && (c.waiting || c.parked || heldBy s k (blocker 4 0))

/-- R193, R355: an operation of cluster k whose write is refused when it issues: it is dropped and counts as acknowledged. -/
def opRefused (s : State) (k xid dst len : Nat) : State :=
  xfersDone (readsDone (updXfer s k xid fun x =>
    denyDst { x with reads := x.reads + 1, acks := x.acks + 1 } dst len) k xid) k

/-- R193: a write of cluster k's transfer that is refused or not sent: acknowledged, and its destination gets no commit. -/
def opDenied (s : State) (k xid ix dst len : Nat) : State := opAck (updXfer s k xid fun x => denyDst x dst len) k xid ix

/-- R182, R183, R184, R187, R355: the cluster DMA issues the next operation of a transfer; one that writes to another chip is
checked against the windows.
Assumption log: 60 (DEDUCED), 67 (DEDUCED), 77 (DEDUCED). -/
def opIssue (s : State) (k xid : Nat) : State :=
  match xferOf s k xid with
  | none => s
  | some x =>
    match (xferOps x)[x.next]? with
    | none => xfersDone (readsDone s k xid) k
    | some (row, off, dst, len) =>
      let p := (partAt off (rowParts x row)).getD ⟨x.rowLen, false, x.pad, x.cls, x.ring, x.dirDec, x.hops⟩
      let src := truncI 64 ((rowSrcA x row + off : Nat) : Int)
      let core := chargeOf s k (rowSrcA x row) dst
      let used := ((clu s k).ops.filter fun y => y.core == core).length
      if !rdB s (rCluCtl k) 0 || 256 ≤ used || (p.ring && ringHeld s k) then s
      else
        let r := if x.next = 0 then srcReady s x else (true, s)
        if !r.1 then r.2
        else
          let s := updXfer r.2 k xid fun x => { x with next := x.next + 1 }
          let far := dst / 2 ^ 40 ≠ ownChip s
          let pass := if far then winPass s true dst else none
          let y : XOp := { xid := xid, ix := x.next, src := src, dst := dst, len := len, core := core, ring := p.ring,
                           cls := p.cls, epoch := x.epoch, job := x.job, data := none, pass := pass }
          let add (s : State) (y : XOp) := updClu s k fun c => { c with ops := c.ops ++ [y] }
          if far ∧ pass.isNone then opRefused (refuse s (whoClu k x.job) 0x46 dst) k xid dst len
          else if p.masked then
            opData (add s y) k xid y.ix (padBytes p.pad off len) (List.replicate len false)
          else if src / 2 ^ 40 = ownChip s then add s y
          else
            let (y, _, s) := readRemote s (whoClu k x.job) (.cluster k) y
            match y.data with
            | none => add s y
            | some d => opData (add s y) k xid y.ix d.1 d.2

/-- R182, R328: the read of a local operation returns.
Assumption log: 67 (DEDUCED). -/
def opRead (s : State) (k xid ix : Nat) : State :=
  match (clu s k).ops.find? fun y => y.xid == xid && y.ix == ix with
  | none => s
  | some y =>
    if y.data.isSome || y.tag.isSome || scrubbing s (y.src % 2 ^ 40) || (y.ring && ringHeld s k) then s
    else
      let a := y.src % 2 ^ 40
      if y.ring then
        let ((bs, ps, _), s) := sramRead (actMem s k (wordsIn a y.len)) a y.len
        opData s k xid ix bs ps
      else
        let (g, s) := fabReads s (whoClu k y.job) a y.len
        opData s k xid ix g.data g.pois

/-- R36, R183: whether an earlier write of the same issuer to the same memory is still to leave.
Assumption log: 67 (DEDUCED). -/
def opBehind (s : State) (k : Nat) (y : XOp) : Bool :=
  ((clu s k).ops.takeWhile fun z => !(z.xid == y.xid && z.ix == y.ix)).any fun z =>
    !z.sent && z.dst / 0x200000 == y.dst / 0x200000

/-- TRANSFER_WRITE_ARRIVE's effect for an operation of cluster k: a local write reaches its memory, a remote one is handed
to its link.
Assumption log: 67 (DEDUCED). -/
def opWrite (s : State) (k xid ix : Nat) (par : Bool) : State :=
  match (clu s k).ops.find? fun y => y.xid == xid && y.ix == ix with
  | none => s
  | some y =>
    match y.data with
    | none => s
    | some (bs, ps) =>
      if y.sent || opBehind s k y || (y.ring && ringHeld s k) then s
      else
        let w := whoClu k y.job
        if y.dst / 2 ^ 40 = ownChip s then
          match writeLocal s w (.cluster k) y (y.dst % 2 ^ 40) bs ps par false with
          | (.wait, s) => s
          | (.gone, s) => updOp s k xid ix fun y => { y with sent := true }
          | (.done, s) => opAck s k xid ix
        else
          match writeRemote s w (.cluster k) y bs ps with
          | (.done, _, s) => opDenied s k xid ix y.dst y.len
          | (_, t, s) => updOp s k xid ix fun y => { y with sent := true, tag := some t }

/-- R172: the commit of a transfer of cluster k, once it is written and no earlier transfer of the list still writes one of
its slots; the transfer is then complete.
Assumption log: 67 (DEDUCED). -/
def xferCommit (s : State) (k xid : Nat) : State :=
  match xferOf s k xid with
  | none => s
  | some x =>
    let before := (clu s k).xfers.takeWhile fun z => z.id != xid
    let clash := before.any fun z => (dstKeys z).any fun q => (dstKeys x).contains q
    if !x.commit || !xferWritten x || clash || (x.ring && ringHeld s k) then s
    else
      updClu (commitDst s k (.cluster k) x) k fun c => { c with xfers := c.xfers.filter fun z => z.id != xid }

end Sys2Proof.Machine
end

