-- ==== Sys2Proof/Machine/Movement.lean ====
section
/-! DEFINITION. The move field, the transfer operations of the cluster slot, what the cluster DMA and the memories then do,
the scrubber, and the chip DMA (05). -/

namespace Sys2Proof.Machine
open Sys2Proof

/-! ### The move field (R176 to R179) -/

/-- R83, R87: whether the MV field of a core, of an operation that may block, acts now. -/
def mvDue (s : State) (a : At) : Bool := guardOk s a.core && fieldTurn s a 3

/-- The MV field of a core has acted in the current beat. -/
def mvActed (s : State) (n : Nat) : State := acted s (n / 4) (actKey n 3)

/-- SCLAIM: in beat 0 the slot becomes FILLING for the core's bar, or the beat blocks; it takes the slot only where nothing else
blocks the beat (R178).
Assumption log: 9 (DESIGN CHOICE), 58 (DESIGN CHOICE). -/
def execSclaim (a : At) (slot : Nat) (s : State) : Out :=
  let k := a.core / 4
  let s := adv s k a.dt
  let key := coreSlot a.core slot
  if !mvDue s a then .next s
  else if a.j ≠ 0 then .next (if heldAny s k then s else mvActed s a.core)
  else
    let s := tagSee s key
    let v := slotGet s key
    if v.tag = .empty ∨ (v.tag = .filling ∧ v.owner = .core a.core) then
      let s := passed s k (blocker (a.core % 4) 1) (actKey a.core 3)
      if heldAny s k || v.tag = .filling then .next s else .next (slotPut s key ⟨.filling, .loc, .core a.core⟩)
    else .next (blockBeat s k (a.core % 4) 1)

/-- The bytes that a pending result writes. -/
def pendBytes (w : PendW) : List Nat :=
  match w with
  | .mem _ ws => ws.map fun x => x.1
  | .nib _ ws => ws.map fun x => x.1
  | _ => []

/-- R179: the end of the first beat by which every write that core n issued to a slot in earlier beats has been written. -/
def commitDue (s : State) (n slot : Nat) : Nat :=
  let lo := memBase n + slot * 4096
  (coreOf s n).pend.foldl (fun m p =>
    if p.born < (clu s (n / 4)).beat && (pendBytes p.w).any fun b => lo ≤ b && b < lo + 4096 then max m p.due else m) (clu s (n / 4)).beat

/-- SCOMMIT: in beat 0, the commit of the slot is due when every earlier write of the core to it has been written. -/
def execScommit (a : At) (slot : Nat) (s : State) : Out :=
  let k := a.core / 4
  let s := adv s k a.dt
  if !mvTurn s a then .next s
  else
    let s := mvActed s a.core
    let due := commitDue s a.core (slot % 512)
    .next (if a.j ≠ 0 then s else
      updCore s a.core fun c => { c with pend := c.pend ++ [⟨due, (clu s k).beat, .commit (slot % 512)⟩] })

/-- Bytes with their poison as writes of MV (rank 2 of R163). -/
def mvWrites (ad : Nat) (got : List (List Byte × Bool)) : List (Nat × Byte × Bool) :=
  ((got.flatMap fun g => g.1.map fun b => (b, g.2)).zipIdx).map fun x => (ad + x.2, x.1.1, x.1.2)

/-- Whether MCOPY and MTRANS neither read nor write in beat j (R215). -/
def mvMasked (s : State) (n j : Nat) : Bool := maskedBy (coreValid s (n / 4) 8) j

/-- MCOPY: `len` holds LEN − 1.
Assumption log: 58 (DESIGN CHOICE). -/
def execMcopy (a : At) (src dst len : Nat) (s : State) : Out :=
  let n := a.core
  let s := adv s (n / 4) a.dt
  if !mvTurn s a then .next s
  else if mvMasked s n a.j then .next (mvActed s n)
  else
    let s := mvActed s n
    let len := len % 256 + 1
    onOk (coreAddr s n src a.j len) fun x => onOk (coreAddr s n dst a.j len) fun y =>
      let ((bs, ps), s) := barRead s n x len
      .next (pend s n 3 (.mem 2 (runWrites y bs ps)))

/-- MTRANS: E codes 1, 2 or 4 bytes, `pitch` counts 32-byte units, `cnt` holds N − 1.
Assumption log: 58 (DESIGN CHOICE). -/
def execMtrans (a : At) (src dst e pitch cnt : Nat) (s : State) : Out :=
  let n := a.core
  if 3 ≤ e || pitch = 0 || 2 ^ 14 ≤ pitch then .refused .reservedEncoding
  else
    let s := adv s (n / 4) a.dt
    if !mvTurn s a then .next s
    else if mvMasked s n a.j then .next (mvActed s n)
    else
      let s := mvActed s n
      let size := 2 ^ e
      let cnt := cnt % 32 + 1
      onOk (coreAddr s n src a.j ((cnt - 1) * pitch * 32 + size)) fun x =>
      onOk (coreAddr s n dst a.j (cnt * size)) fun y =>
        let (got, s) := barReadRuns s n ((upto cnt).map fun i => (x + i * pitch * 32, size))
        .next (pend s n 3 (.mem 2 (mvWrites y got)))

/-! ### Entering transfers (R180 to R192) -/

/-- R182: whether a global address lies in the SPMs or the store of cluster k, and the ring stop it is at. -/
def stopOf (s : State) (k g : Nat) : Option Nat :=
  match localOf s g with
  | none => none
  | some a => match memAt a with
    | none => none
    | some m => if memClu m = k then some (if m < 32 then m % 4 else 4) else none

/-- A transfer of cluster k, with its class, route and identity. -/
def mkXfer (s : State) (k src dst : Nat) (sInc dInc : Int) (rowLen rows : Nat) (swait srel commit : Bool) : Xfer :=
  let a := stopOf s k src
  let b := stopOf s k dst
  let up := ((b.getD 0) + 5 - (a.getD 0)) % 5
  { id := (clu s k).nextXid, src := src, dst := dst, sInc := sInc, dInc := dInc, rowLen := rowLen, rows := rows,
    maskFrom := rows, pad := 0, swait := swait, srel := srel, commit := commit, nomerge := true, mergeable := false,
    cls := if src / 2 ^ 40 = ownChip s then .loc else .link, ring := a.isSome && b.isSome, dirDec := 2 < up,
    hops := min up (5 - up), epoch := cluEpoch s k, job := jobClu s k, queue := none }

/-- R190: whether a transfer merges with the one entered just before it. -/
def mayMerge (p x : Xfer) : Bool :=
  p.id + 1 == x.id && p.next == 0 && p.mergeable && x.mergeable && p.src + p.rowLen == x.src && p.dst + p.rowLen == x.dst &&
  p.rowLen + x.rowLen ≤ 4096 && !p.nomerge && !x.nomerge && p.swait == x.swait && !p.commit && !p.srel

/-- R190: a part joins those before it: as one with the last where they differ in length alone. -/
def joinPart (ps : List XPart) (q : XPart) : List XPart :=
  match ps.getLast? with
  | some p => if { p with len := q.len } = q then ps.dropLast ++ [{ p with len := p.len + q.len }] else ps ++ [q]
  | none => [q]

/-- R190: the merge of a transfer with the one before it. Its bytes keep what each transfer's own rows and route give them. -/
def mergeXfer (p x : Xfer) : Xfer :=
  let ps := (rowParts x 0).foldl joinPart (rowParts p 0)
  { p with id := x.id, rowLen := p.rowLen + x.rowLen, srel := x.srel, commit := x.commit, ring := p.ring && x.ring,
           parts := if ps.length = 1 then [] else ps }

/-- A transfer enters the pending list of cluster k, or merges. A transfer without operations is complete at once, but for the
SREL that waits for its source slots (R216). -/
def enterXfer (s : State) (k : Nat) (x : Xfer) : State :=
  let c := clu s k
  match c.xfers.getLast? with
  | some p =>
    if mayMerge p x then
      incr (setClu s k { c with xfers := c.xfers.dropLast ++ [mergeXfer p x], nextXid := x.id + 1 }) (rCluMergeCnt k)
    else xfersDone (readsDone (setClu s k { c with xfers := c.xfers ++ [x], nextXid := x.id + 1 }) k x.id) k
  | none => xfersDone (readsDone (setClu s k { c with xfers := c.xfers ++ [x], nextXid := x.id + 1 }) k x.id) k

/-- R37: the cluster slot's operation of cluster k is able to act: whether nothing else blocks the beat, and then it has acted. -/
def kslotPass (s : State) (k cause : Nat) : Bool × State :=
  let s := passed s k (blocker 4 cause) kslotKey
  (!heldAny s k, s)

/-- R187: transfers enter together, or the beat blocks until all of them fit.
Assumption log: 9 (DESIGN CHOICE). -/
def enterAll (s : State) (k : Nat) (mk : List (State → Xfer)) : Out :=
  if 64 < (clu s k).xfers.length + mk.length then .next (blockBeat s k 4 0)
  else
    let r := kslotPass s k 0
    .next (if r.1 then foldS (fun s f => enterXfer s k (f s)) mk r.2 else r.2)

/-- R181: a row transfer over the streams of a nest at an index vector, with base record 4 and the mask of R216. -/
def rowXfer (s : State) (k : Nat) (ns : NestSt) (idx : List Nat) (x : XArgs) : Xfer :=
  let src := truncI 64 (strmBase s k 4 ns idx x.src)
  let dst := truncI 64 (strmBase s k 4 ns idx x.dst)
  let t := mkXfer s k src dst (strmInc ns x.src) (strmInc ns x.dst) ((x.len + 1) * 32) (x.rows + 1) x.swait x.srel x.commit
  { t with maskFrom := cutBy (x.rows + 1) (validOf s k ns idx 16), pad := (edgePad s k ns.id).toNat,
           nomerge := x.nomerge, mergeable := x.rows == 0 }

/-- Whether the two streams of a transfer are enabled in a nest.
Assumption log: 59 (DESIGN CHOICE). -/
def xStrmOk (ns : NestSt) (x : XArgs) : Bool :=
  (ns.desc.strm.getD x.src ⟨0, 0, false, 0⟩).en && (ns.desc.strm.getD x.dst ⟨0, 0, false, 0⟩).en

/-- XFER: with PF = d, the transfer of the step d passes ahead (R188).
Assumption log: 58 (DESIGN CHOICE). -/
def execXfer (c : CAt) (x : XArgs) (s : State) : Out :=
  let k := c.cl
  if !xOk false x then .refused .reservedEncoding
  else
    let s := adv s k c.dt
    if !kslotTurn s k then .next s else
    match (clu s k).nest with
    | none => if x.pf ≠ 0 then .refused .reservedEncoding else .fault .noNest
    | some ns =>
      if x.pf ≠ 0 && !ns.inBody then .refused .reservedEncoding
      else if !xStrmOk ns x then .fault .streamOff
      else if x.pf ≠ 0 && steps ns ≤ ns.pass + x.pf then .next (kslotPass s k 0).2
      else
        let idx := if x.pf = 0 then ns.idx else idxAfter ns (ns.pass + x.pf)
        enterAll s k [fun s => rowXfer s k ns idx x]

/-- XPRE: the transfer of nest m at step τ (R189).
Assumption log: 58 (DESIGN CHOICE). -/
def execXpre (c : CAt) (x : XArgs) (s : State) : Out :=
  let k := c.cl
  let s := adv s k c.dt
  let ns := enterNest s k x.nest 0
  if !xOk true x || ns.desc.src.any (· == 0xF) then .refused .reservedEncoding
  else if !kslotTurn s k then .next s
  else if !xStrmOk ns x then .fault .streamOff
  else if steps ns ≤ x.step then .next (kslotPass s k 0).2
  else enterAll s k [fun s => rowXfer s k ns (idxAfter ns x.step) x]

/-- A stream address of the loaded nest through a base record. -/
def recAddr (s : State) (k rec : Nat) (ns : NestSt) (st : Nat) : Nat := truncI 64 (strmBase s k rec ns ns.idx st)

/-- The nest whose streams a RING or HALO uses.
Assumption log: 59 (DESIGN CHOICE). -/
def rStrm (s : State) (k : Nat) (r : RArgs) : Except Fault NestSt :=
  match strmOk s k r.src with
  | .error e => .error e
  | .ok _ => strmOk s k r.dst

/-- R191: the next member after p in direction `dec`. -/
def nextMember (mask : Nat) (dec : Bool) (p : Nat) : Nat :=
  let at_ (i : Nat) := if dec then (p + 8 - i) % 4 else (p + i) % 4
  (((upto 4).map fun i => at_ (i + 1)).find? fun q => bitN mask q).getD p

/-- R191: the transfer of member p of a RING. -/
def ringXfer (s : State) (k : Nat) (ns : NestSt) (r : RArgs) (p : Nat) : Xfer :=
  let t := mkXfer s k (recAddr s k p ns r.src) (recAddr s k (nextMember r.mask r.dir p) ns r.dst) 0 0
    ((r.len + 1) * 256) 1 r.swait r.srel r.commit
  let up := ((stopOf s k t.dst).getD 0 + 5 - (stopOf s k t.src).getD 0) % 5
  { t with dirDec := r.dir, hops := if r.dir then (5 - up) % 5 else up }

/-- R192: the transfer of member p of a HALO. -/
def haloXfer (s : State) (k : Nat) (ns : NestSt) (r : RArgs) (p : Nat) : Xfer :=
  { mkXfer s k (recAddr s k p ns r.src) (recAddr s k p ns r.dst) (strmInc ns r.src) (strmInc ns r.dst)
      ((r.len + 1) * 32) (r.rows + 1) r.swait r.srel r.commit with cls := .halo }

/-- RING: one transfer per member to the next member.
Assumption log: 58 (DESIGN CHOICE). -/
def execRing (c : CAt) (r : RArgs) (s : State) : Out :=
  let k := c.cl
  if !maskOk (classCores (rd s rEngProgClass)) r.mask || 2 ^ 14 ≤ r.len then .refused .reservedEncoding
  else
    let s := adv s k c.dt
    if !kslotTurn s k then .next s else
    onOk (rStrm s k r) fun ns =>
      enterAll s k ((bitList 4 r.mask).map fun p s => ringXfer s k ns r p)

/-- HALO: one transfer per member, with both addresses of its own record; fills carry the class HALO.
Assumption log: 58 (DESIGN CHOICE). -/
def execHalo (c : CAt) (r : RArgs) (s : State) : Out :=
  let k := c.cl
  if 16 ≤ r.mask || 2 ^ 12 ≤ r.len || 256 ≤ r.rows then .refused .reservedEncoding
  else
    let s := adv s k c.dt
    if !kslotTurn s k then .next s else
    onOk (rStrm s k r) fun ns =>
      enterAll s k ((bitList 4 r.mask).map fun p s => haloXfer s k ns r p)

/-- FENCE: blocks until every transfer entered before it is complete.
Assumption log: 9 (DESIGN CHOICE). -/
def execFence (c : CAt) (s : State) : Out :=
  let s := adv s c.cl c.dt
  let xs := (clu s c.cl).xfers
  if !kslotTurn s c.cl then .next s
  else if xs.isEmpty then .next (kslotPass s c.cl 0).2
  else .next (blockBeat s c.cl 4 (if xs.any (xferRemote s) then 6 else 0))

/-! ### The pending list and the memories -/

/-- TRANSFER_OPERATION_ISSUE: the next operation of transfer `x` of cluster k.
Assumption log: 60 (DEDUCED). -/
def execTransferOperationIssue (k x : Nat) (s : State) : Out := .next (opIssue s k x)

/-- TRANSFER_READ_RETURN: the read of operation `ix` of transfer `x` returns its data. -/
def execTransferReadReturn (k x ix : Nat) (s : State) : Out := .next (opRead s k x ix)

/-- TRANSFER_WRITE_ARRIVE: the write of operation `ix` of transfer `x`; `par` is a parity mismatch at its destination.
Assumption log: 5 (DESIGN CHOICE). -/
def execTransferWriteArrive (k x ix : Nat) (par : Bool) (s : State) : Out := .next (opWrite s k x ix par)

/-- TRANSFER_COMMIT of transfer `x`. -/
def execTransferCommit (k x : Nat) (s : State) : Out := .next (xferCommit s k x)

/-- HOLD_STORE_LAND at a slot of an engine memory. -/
def execHoldStoreLand (m slot : Nat) (s : State) : Out :=
  .next (foldS xfersDone (upto 8) (holdLand s (m * 512 + slot % 512)))

/-- R167: whether the scrubber of cluster k runs.
Assumption log: 60 (DEDUCED). -/
def scrubOn (s : State) (k : Nat) : Bool :=
  rdB s (rCluCtl k) 0 && rdF s (rCluScrubCtl k) 15 0 != 0 && !parkedB s && !(clu s k).waiting && (clu s k).winLeft == 0

/-- The word at pointer i of the scrubber of cluster k. -/
def scrubWord (s : State) (k i : Nat) : Nat := (memBase (cluMem k i) + 32 * (clu s k).scrub.getD i 0) / 32

/-- R344, R167: the scrubber of media SRAM (0) or control SRAM (1) reads the word at its pointer. Neither has an interval register or
an island's pauses: the reads come with the command.
Assumption log: 84 (DESIGN CHOICE). -/
def sideScrub (s : State) (i : Nat) : State :=
  if i = 0 then
    let s := scrubRead s (0x2100000000 / 32 + s.mem.scrubM)
    { s with mem := { s.mem with scrubM := (s.mem.scrubM + 1) % 262144 } }
  else
    let s := scrubRead s (0x2300000000 / 32 + s.mem.scrubC)
    { s with mem := { s.mem with scrubC := (s.mem.scrubC + 1) % 32768 } }

/-- R166, R168, R194: an injected upset: damaged bits of the word at pointer 0 to 4 of cluster k, the parity of a tag (5 to 9, with
the slot), the parity of the next write of a word (10), a damaged bit of a word (11); or a scrub read of media or control SRAM (12).
Assumption log: 5 (DESIGN CHOICE). -/
def upset (k : Nat) (s : State) (x : Nat × Nat) : State :=
  if x.1 < 5 then eccPut s (scrubWord s k x.1) (eccGet s (scrubWord s k x.1) + x.2)
  else if x.1 < 10 then { s with mem := { s.mem with tagUps := s.mem.tagUps ++ [cluMem k (x.1 - 5) * 512 + x.2 % 512] } }
  else if x.1 = 10 then { s with mem := { s.mem with parUps := s.mem.parUps ++ [x.2] } }
  else if x.1 = 11 then eccPut s x.2 (eccGet s x.2 + 1)
  else sideScrub s x.2

/-- R167: the scrubber of cluster k reads the word at pointer i and moves the pointer on. -/
def scrubStep (k : Nat) (s : State) (i : Nat) : State :=
  updClu (scrubRead s (scrubWord s k i)) k fun c => { c with scrub := c.scrub.modify i fun p => (p + 1) % 65536 }

/-- SPM_SCRUB_READ: the scrubber of cluster k reads the word at each of its five pointers, with errors handled as by any
read. `ups` are upsets that happen before it.
Assumption log: 5 (DESIGN CHOICE). -/
def execSpmScrubRead (c : CAt) (ups : List (Nat × Nat)) (s : State) : Out :=
  let k := c.cl
  let s := foldS (upset k) ups (adv s k c.dt)
  if !scrubOn s k then .next s else .next (foldS (scrubStep k) (upto 5) s)

/-- ECC_WRITE_BACK of a 32-byte word whose corrected value waits. -/
def execEccWriteBack (w : Nat) (s : State) : Out :=
  if s.mem.wb.contains w then .next (wordFresh s w) else .next s

/-! ### The chip DMA (R199) -/

/-- The agent of chip DMA channel n. -/
def whoDma (s : State) (n : Nat) : Who := ⟨8, 8, rdF s (rCpJobDma n) 11 0, none, some (8 + n)⟩

/-- The ring size of a channel. -/
def dmaSize (s : State) (n : Nat) : Nat := 16 * 4 ^ rdF s (rDmaChCfg n) 1 0

/-- The global address of the descriptor at TAIL. -/
def dmaDescAt (s : State) (n : Nat) : Nat :=
  2 ^ 32 * rdF s (rDmaChBaseHi n) 13 0 + rdF s (rDmaChBaseLo n) 31 6 * 64 + 32 * rdF s (rDmaChTail n) 9 0

/-- A channel. -/
def dmaOf (s : State) (n : Nat) : DmaCh := s.dma.getD n {}

/-- R494: the pinned object that holds an address, with the number of the block. -/
def pinnedAt (s : State) (a : Nat) : Option (Obj × Nat) :=
  (s.fw.objs.find? fun o => o.region.isSome && o.base ≤ a && a < o.base + o.total).map fun o => (o, (a - o.base) / 65536)

/-- R494: the first read of a pinned block: its hash is compared with the block table.
Assumption log: 74 (DEDUCED). -/
def firstTouch (s : State) (a : Nat) : Bool × State :=
  match pinnedAt s a with
  | none => (true, s)
  | some (o, b) =>
    if o.verified.contains b then (true, s)
    else
      let n := min 65536 (o.total - 65536 * b)
      let (g, s) := fabReads s ⟨0xE, 15, 0, none, none⟩ (o.base + 65536 * b) n
      if (Config.shake g.data).take 32 = o.hashes.getD b [] then
        let up (p : Obj) : Obj := if p.handle = o.handle then { p with verified := p.verified ++ [b] } else p
        (true, { s with fw := { s.fw with objs := s.fw.objs.map up } })
      else (false, incr s rSecBlkfailCnt)

/-- The first refusal of a channel's descriptor. -/
def dmaCode (s : State) (n code : Nat) : State :=
  updDma s n fun d => { d with code := if d.code = 0 then code else d.code }

/-- An operation of a channel has its data. -/
def dmaData (s : State) (n ix : Nat) (bs : List Byte) (ps : List Bool) : State :=
  let s := updDma s n fun d =>
    { d with ops := d.ops.map (fun y => if y.ix = ix then { y with data := some (bs, ps) } else y),
             pois := d.pois || ps.any id, xfer := d.xfer.map fun x => { x with reads := x.reads + 1 } }
  match (dmaOf s n).xfer with
  | some x =>
    if x.srel && x.reads == opCount x && !(dmaOf s n).released then
      releaseSrc (updDma s n fun d => { d with released := true, xfer := some { x with released := true } }) 8 x
    else s
  | none => s

/-- R193, R355: an operation of a channel whose write is refused when it issues: it is dropped and counts as acknowledged. -/
def dmaRefused (s : State) (n : Nat) (y : XOp) : State :=
  ackTo (dmaCode (updDma (refuse s (whoDma s n) 0x46 y.dst) n fun d =>
    { d with xfer := d.xfer.map fun x => denyDst { x with reads := x.reads + 1 } y.dst y.len }) n 0x46) (.dma n) 0 y.ix 0 0 0 0

/-- R193: a write of a channel that is refused or not sent: acknowledged, and its destination gets no commit. -/
def dmaDenied (s : State) (n ix dst len : Nat) : State :=
  ackTo (updDma s n fun d => { d with xfer := d.xfer.map fun x => denyDst x dst len }) (.dma n) 0 ix 0 0 0 0

/-- The read of one operation of a channel, with which the operation issues (R355). -/
def dmaOpRead (s : State) (n : Nat) (y : XOp) : State :=
  let far := y.dst / 2 ^ 40 ≠ ownChip s
  if y.data.isSome || y.tag.isSome then s
  else if far ∧ y.pass.isNone ∧ (winPass s true y.dst).isNone then dmaRefused s n y
  else
  let y := if far ∧ y.pass.isNone then { y with pass := winPass s true y.dst } else y
  let s := updDma s n fun d => { d with ops := d.ops.map (fun z => if z.ix = y.ix then y else z) }
  match localOf s y.src with
    | some a =>
      if scrubbing s a then s else
      let (ok, s) := firstTouch s a
      if !ok then updDma (dmaCode s n 0x8D) n fun d => { d with stop := true, ops := d.ops.filter (fun z => z.sent) }
      else
        let (g, s) := fabReads s (whoDma s n) a y.len
        dmaData (if g.code = 0 then s else dmaCode s n g.code) n y.ix g.data g.pois
    | none =>
      let (y', code, s) := readRemote s (whoDma s n) (.dma n) y
      match y'.data with
      | some d => dmaData (dmaCode s n code) n y.ix d.1 d.2
      | none => updDma s n fun d =>
        { d with ops := d.ops.map (fun z => if z.ix = y.ix then { z with tag := y'.tag } else z) }

/-- The write of one operation of a channel. -/
def dmaOpWrite (s : State) (n : Nat) (y : XOp) : State :=
  match y.data with
  | none => s
  | some (bs, ps) =>
    let w := whoDma s n
    let gone (s : State) := updDma s n fun d =>
      { d with ops := d.ops.map (fun z => if z.ix = y.ix then { z with sent := true } else z) }
    if y.sent then s
    else if y.dst / 2 ^ 40 = ownChip s then
      let code := accessCode s w true (y.dst % 2 ^ 40)
      match writeLocal s w (.dma n) y (y.dst % 2 ^ 40) bs ps false (bitN (dmaOf s n).flags 3) with
      | (.wait, s) => s
      | (.gone, s) => gone s
      | (.done, s) => ackTo (if code = 0 then s else dmaCode s n code) (.dma n) 0 y.ix 0 0 0 0
    else match writeRemote s w (.dma n) y bs ps with
      | (.done, code, s) => dmaDenied (dmaCode s n code) n y.ix y.dst y.len
      | (_, _, s) => gone s

/-- A channel goes on with its operations, in order. -/
def dmaRun (s : State) (n : Nat) : State :=
  let r := match (dmaOf s n).xfer with
    | some x => if 0 < x.reads then (true, s) else srcReady s x
    | none => (false, s)
  let s := r.2
  if !r.1 then s
  else
    let ixs := (dmaOf s n).ops.map fun y => y.ix
    foldS (fun s ix =>
      match (dmaOf s n).ops.find? fun y => y.ix == ix with
      | none => s
      | some y =>
        let s := dmaOpRead s n y
        match (dmaOf s n).ops.find? fun y => y.ix == ix with
        | some y => dmaOpWrite s n y
        | none => s) ixs s

/-- The operations of a descriptor's transfer. -/
def dmaOps (x : Xfer) (fill : Bool) (pat : Nat) : List XOp :=
  (xferOps x).zipIdx.map fun o =>
    { xid := 0, ix := o.2, src := x.src + o.1.2.1, dst := o.1.2.2.1, len := o.1.2.2.2, core := 0, ring := false,
      cls := x.cls, epoch := 0, job := x.job,
      data := if fill then some ((upto o.1.2.2.2).map fun i => BitVec.ofNat 8 (pat / 256 ^ ((o.1.2.1 + i) % 8)),
        List.replicate o.1.2.2.2 false) else none }

/-- Table 5.14: what a channel does with the 32 bytes of a descriptor. -/
def dmaParse (s : State) (n : Nat) (b : List Byte) : State :=
  let len := leAt b 0x10 4
  let flags := leAt b 0x14 4
  let bad := len % 2 ^ 24 = 0 || len / 2 ^ 24 != 0 || bitsN flags 5 11 != 0 || bitsN flags 28 3 != 0 ||
    (bitN flags 3 && bitsN flags 0 3 != 0)
  if bad then updDma s n fun _ => { busy := true, flags := flags, bad := true }
  else
    let fill := bitN flags 4
    let src := leAt b 0 8
    let cls : Src := if !fill && src / 2 ^ 40 != ownChip s then .link else .loc
    let x : Xfer :=
      { id := 0, src := if fill then glob s 0 else src, dst := leAt b 8 8, sInc := 0, dInc := 0, rowLen := len,
        rows := 1, maskFrom := 1, pad := 0, swait := bitN flags 0 && !fill, srel := bitN flags 1 && !fill,
        commit := bitN flags 2, nomerge := true, mergeable := false, cls := cls, ring := false, dirDec := false,
        hops := 0, epoch := 0, job := rdF s (rCpJobDma n) 11 0, queue := none, reads := if fill then 1 else 0 }
    dmaRun (updDma s n fun _ => { busy := true, flags := flags, xfer := some x, ops := dmaOps x fill src }) n

/-- An operation of a channel on its ring. -/
def dmaRingOp (s : State) (n at_ len : Nat) : XOp :=
  { xid := 0, ix := 0, src := at_, dst := at_, len := len, core := 0, ring := false, cls := .loc, epoch := 0,
    job := rdF s (rCpJobDma n) 11 0, data := none }

/-- Taking the descriptor at TAIL; from a ring on another chip by a remote read. -/
def dmaTake (s : State) (n : Nat) : State :=
  match localOf s (dmaDescAt s n) with
  | some a =>
    let r := fabReads s (whoDma s n) a 32
    dmaParse r.2 n r.1.data
  | none =>
    let r := readRemote s (whoDma s n) (.dma n) (dmaRingOp s n (dmaDescAt s n) 32)
    match r.1.data with
    | some d => dmaParse r.2.2 n d.1
    | none => updDma r.2.2 n fun _ => { busy := true, far := 1, ops := [r.1] }

/-- A channel whose descriptor lies on another chip goes on when it has come. -/
def dmaCome (s : State) (n : Nat) : State :=
  match (dmaOf s n).ops.head? with
  | some y => match y.data with
    | some d => dmaParse s n d.1
    | none => s
  | none => updDma s n fun _ => {}

/-- DMA_DESCRIPTOR: channel n takes the descriptor at TAIL, or goes on with the one it has. -/
def execDmaDescriptor (n : Nat) (s : State) : Out :=
  if (dmaOf s n).far = 1 then .next (dmaCome s n)
  else if (dmaOf s n).busy then .next (dmaRun s n)
  else if !rdB s rDmaCtl 0 || rdF s (rDmaChHead n) 9 0 % dmaSize s n == rdF s (rDmaChTail n) 9 0 then .next s
  else .next (dmaTake s n)

/-- Whether a channel's descriptor is complete but for its commit and write-back. -/
def dmaWritten (d : DmaCh) : Bool :=
  d.busy && d.far != 1 && (d.bad || (d.ops.isEmpty && (d.stop || match d.xfer with
    | some x => xferWritten x || x.acks == opCount x
    | none => true)))

/-- TAIL and DONE_CNT advance. -/
def dmaEnd (s : State) (n : Nat) : State :=
  let t := (rdF s (rDmaChTail n) 9 0 + 1) % dmaSize s n
  traceRec (updDma (incr (wrF s (rDmaChTail n) 9 0 t) (rDmaChDoneCnt n)) n fun _ => {}) 5 0

/-- The write-back of a FLAGS word: whether it is done; into a ring on another chip it is acknowledged later. -/
def dmaFlags (s : State) (n v : Nat) : Bool × State :=
  match localOf s (dmaDescAt s n) with
  | some a => (true, fabStore s (whoDma s n) (a + 0x14) (leBytes 4 v) (List.replicate 4 false))
  | none =>
    let y := { dmaRingOp s n (dmaDescAt s n + 0x14) 4 with sent := true }
    match writeRemote s (whoDma s n) (.dma n) y (leBytes 4 v) (List.replicate 4 false) with
    | (.done, _, s) => (true, s)
    | (_, _, s) => (false, updDma s n fun d => { d with far := 2, ops := [y] })

/-- DMA_WRITEBACK: the commit messages, RESULT, REASON and DONE, then TAIL and DONE_CNT. -/
def execDmaWriteback (n : Nat) (s : State) : Out :=
  let d := dmaOf s n
  if d.far = 2 then .next (if d.ops.isEmpty then dmaEnd s n else s)
  else if !dmaWritten d then .next s
  else
    let s := match d.xfer with
      | some x => if x.commit && !d.stop then commitDst s 8 (.dma n) x else s
      | none => s
    let result := if d.bad then 1 else if d.code ≠ 0 then 2 else if d.pois then 3 else 0
    let v := d.flags % 2 ^ 16 + (if result = 2 then d.code * 2 ^ 16 else 0) + result * 2 ^ 24 + 2 ^ 31
    let r := dmaFlags s n v
    .next (if r.1 then dmaEnd r.2 n else r.2)

end Sys2Proof.Machine
end

