-- ==== Sys2Proof/Machine/Codec.lean ====
section
/-! DEFINITION. Codec sessions, the shaper and the sample queues (11). What a bitstream codes is an operand of the command:
the codec standards are not part of the spec. -/

namespace Sys2Proof.Machine
open Sys2Proof

/-! ### Sessions -/

/-- A session. -/
def sesOf (s : State) (n : Nat) : Ses := s.vid.ses.getD n {}

/-- Changing a session. -/
def updSes (s : State) (n : Nat) (f : Ses → Ses) : State := { s with vid := { s.vid with ses := s.vid.ses.modify n f } }

/-- CODEC: 0 HEVC, 1 AVC, 2 AV1, 3 JPEG. -/
def sesCodec (s : State) (n : Nat) : Nat := rdF s (rVidSesCtl n) 30 28

/-- DIR: whether the session encodes. -/
def sesEnc (s : State) (n : Nat) : Bool := rdB s (rVidSesCtl n) 27

/-- CAP_W. -/
def capW (s : State) (n : Nat) : Nat := rdF s (rVidSesCap n) 15 0

/-- CAP_H. -/
def capH (s : State) (n : Nat) : Nat := rdF s (rVidSesCap n) 31 16

/-- CAP_DEPTH. -/
def capDepth (s : State) (n : Nat) : Nat := rdF s (rVidSesCtl n) 19 16

/-- CAP_DPB. -/
def capDpb (s : State) (n : Nat) : Nat := rdF s (rVidSesCtl n) 23 20

/-- Table 11.1: the largest side and luma samples, and the depths, of a codec and direction. -/
def codecLimits (codec : Nat) (enc : Bool) : Nat × Nat × List Nat :=
  match codec, enc with
  | 0, false => (8192, 35651584, [8, 10])
  | 1, false => (8192, 9437184, [8])
  | 2, false => (8192, 35651584, [8, 10])
  | 3, false => (16384, 67108864, [8, 12])
  | 3, true => (8192, 33554432, [8])
  | _, _ => (4096, 8912896, [8])

/-- Whether a global address lies in the DRAM window or media SRAM of this chip. -/
def inDramMedia (s : State) (g n : Nat) : Bool :=
  match localOf s g with
  | some a => a + n ≤ 0x2000000000 || (0x2100000000 ≤ a && a + n ≤ 0x2100800000)
  | none => false

/-- The base of a session's ring. -/
def sesRing (s : State) (n : Nat) : Nat := 2 ^ 32 * rdF s (rVidSesRingHi n) 13 0 + rdF s (rVidSesRingLo n) 31 6 * 64

/-- R308: the memory that a session needs, in bytes. -/
def sesNeed (s : State) (n : Nat) : Nat :=
  let jpeg := sesCodec s n == 3
  let bpp := if capDepth s n = 8 then 1 else 2
  let pb := cdiv (capW s n * capH s n * (if jpeg then 6 else 3) * bpp) 8192 * 4096
  let mv := if jpeg then 0 else capW s n / 16 * (capH s n / 16) * 16
  (capDpb s n + 2) * (pb + mv)

/-- R307: the check of a session's EN. -/
def sessionCheck (s : State) (n : Nat) : Nat :=
  let codec := sesCodec s n
  let enc := sesEnc s n
  let (side, luma, depths) := codecLimits codec enc
  let w := capW s n
  let h := capH s n
  let dpb := capDpb s n
  let dpbBad := if codec = 3 then dpb != 0 else if enc then dpb != 1 else dpb == 0
  if !rdB s rVidCtl 0 || 4 ≤ codec || (codec == 2 && enc) || w == 0 || h == 0 || w % 64 != 0 || h % 64 != 0 || side < w ||
      side < h || luma < w * h || !depths.contains (capDepth s n) || dpbBad || rdF s (rVidSesCapBytes n) 23 0 == 0 ||
      !inDramMedia s (sesRing s n) 1 then 0x68
  else
    let base := 2 ^ 32 * rdF s (rVidSesMemHi n) 13 0 + 4096 * rdF s (rVidSesMemLo n) 31 12
    let size := 4096 * (rd s (rVidSesMemSize n)).toNat
    if !inDramMedia s base size || size < sesNeed s n then 0x69 else 0

/-- A session's enable has passed. -/
def sessionOn (s : State) (n : Nat) : State :=
  updSes (wrB s (rVidSesCtl n) 31 true) n fun t => { rep := t.rep }

/-- R315: EN := 0 of a session: the unit in an engine ends without a report. -/
def sessionOff (s : State) (n : Nat) : State :=
  updSes (wrB s (rVidSesCtl n) 31 false) n fun t => { t with busy := [], outs := t.outs.filter fun o => o.done }

/-- SESSION_DISABLE of session n. -/
def execSessionDisable (n : Nat) (s : State) : Out :=
  let n := n % 32
  .next (busWrite s (rVidSesCtl n) (setBit (rd s (rVidSesCtl n)) 31 false) fun s =>
    if rdB s (rVidSesCtl n) 31 then sessionOff s n else s)

/-! ### Units and reports -/

/-- The agent of session n's operations. -/
def whoVid (s : State) (n : Nat) (fmt : Option Nat) : Who := ⟨0xA, 10, rdF s (rCpJobVid n) 11 0, fmt, some (16 + n)⟩

/-- Bytes of this chip read by session n. -/
def vidRead (s : State) (n g len : Nat) : Got × State :=
  match localOf s g with
  | some a => fabReads s (whoVid s n none) a len
  | none => (gotNone len 0x46, refuse s (whoVid s n none) 0x46 g)

/-- The ring size of session n. -/
def sesSize (s : State) (n : Nat) : Nat := 16 * 4 ^ rdF s (rVidSesRingCfg n) 1 0

/-- R309: the descriptor at TAIL, and whether it is refused; none where the ring is empty. TAIL advances. -/
def takeUnit (s : State) (n : Nat) : Option (VidDesc × Bool) × State :=
  let t := rdF s (rVidSesTail n) 9 0
  if rdF s (rVidSesHead n) 9 0 % sesSize s n == t then (none, s)
  else
    let (g, s) := vidRead s n (sesRing s n + 32 * t) 32
    let d : VidDesc := ⟨leAt g.data 0 8, leAt g.data 8 4, leAt g.data 12 4, leAt g.data 16 8, leAt g.data 24 4,
      leAt g.data 28 4⟩
    let s := wrF s (rVidSesTail n) 9 0 ((t + 1) % sesSize s n)
    let resv := d.len / 2 ^ 24 != 0 || d.budget / 2 ^ 16 != 0 || d.ctl / 2 ^ (if sesEnc s n then 7 else 8) != 0
    (some (d, resv || d.len == 0 || rdF s (rVidSesCapBytes n) 23 0 < d.len), s)

/-- R314: the budget of a unit in cycles. -/
def unitBudget (s : State) (n : Nat) (d : VidDesc) : Nat :=
  256 * (if bitsN d.budget 0 16 = 0 then rdF s (rVidSesCtl n) 15 0 else bitsN d.budget 0 16)

/-- Table 11.3 as flags of VID_SESs_STATUS: the flags of a report, in the order of its bits. -/
def repStatus (f : Nat) : Nat :=
  b2n (bitN f 1) + 2 * b2n (bitN f 2) + 4 * b2n (bitN f 3) + 8 * b2n (bitN f 4) + 16 * b2n (bitN f 5) + 32 * b2n (bitN f 6) +
    64 * b2n (bitN f 0)

/-- R315: a report is posted, with its last word. -/
def postRep (s : State) (n : Nat) (r : VidRep) (last : Nat) : State :=
  let w := [r.id, r.status + r.flags * 256, r.first, r.byteOff, r.conceal, min r.cycles 0xFFFFFFFF, r.claim, last].map
    (BitVec.ofNat 32)
  let (f, full) := fifoPush 64 w (sesOf s n).rep
  let s := updSes s n fun t => { t with rep := f }
  let s := wr s (rVidSesStatus n) (rd s (rVidSesStatus n) ||| BitVec.ofNat 32 (repStatus r.flags))
  let s := if bitN r.flags 4 then incr s (rVidSesRefuseCnt n) else s
  if full then s else traceRec (incr s (rVidSesDoneCnt n)) 6 0

/-- R305, R306, Table 11.1: whether a claim lies in the subset of a codec: its profile and level, and what R306 excludes. -/
def inSubset (codec : Nat) (c : Claim) : Bool :=
  match codec with
  | 0 => (c.profile == .main || c.profile == .main10) && c.level ≤ 61 && c.layers ≤ 1 && !c.extended
  | 1 => c.profile == .high && c.level ≤ 52 && c.frameMbsOnly
  | 2 => c.profile == .main && c.level ≤ 60 && !c.largeTile
  | _ => (c.process == .baseline || c.process == .extended) && (c.comps == 1 || c.comps == 3) && c.sampling ≤ 3

/-- R310: the code that refuses a claim, or 0. -/
def claimCode (s : State) (n : Nat) (c : Claim) : Nat :=
  let (_, luma, _) := codecLimits (sesCodec s n) (sesEnc s n)
  if capW s n < c.w ∨ capH s n < c.h ∨ capDepth s n < c.depth ∨ capDpb s n < c.refs ∨ luma < c.w * c.h then 0x6B
  else if !inSubset (sesCodec s n) c then 0x6A else 0

/-- R310: the parameter sets of a unit replace those of the same identifier. -/
def addSets (s : State) (n : Nat) (l : List (Nat × Claim)) : State :=
  foldS (fun s c => updSes s n fun t => { t with sets := t.sets.filter (fun x => x.1 != c.1) ++ [(c.1, claimCode s n c.2, c.2)] }) l s

/-- The chroma subsampling of a picture: horizontal and vertical divisors. -/
def chromaDiv (c : Nat) : Nat × Nat := if c = 1 then (2, 2) else if c = 2 then (2, 1) else (1, 1)

/-- R311: one plane with the samples of some blocks replaced, each by `fill` at its position. -/
def concealPlane (w bw bh nb : Nat) (skip : List Nat) (fill : Nat → Nat → Nat) (p : List Nat) : List Nat :=
  p.zipIdx.map fun v =>
    if skip.contains (v.2 / w / bh * nb + v.2 % w / bw) then fill (v.2 % w) (v.2 / w) else v.1

/-- R311: what conceals the sample at luma position (x, y), or the chroma sample of it: the co-located sample of the last picture, or the
midpoint. Where the last picture does not reach there the spec names no value: it is free.
Assumption log: 88 (DESIGN CHOICE). -/
def coSample (last : Option Pic) (plane : Pic → List Nat) (luma : Bool) (mid fr x y : Nat) : Nat :=
  match last with
  | none => mid
  | some q =>
    let (dx, dy) := if luma then (1, 1) else chromaDiv q.chroma
    if !luma && q.chroma == 0 then mid
    else if x < q.w ∧ y < q.h then (plane q).getD (y / dy * cdiv q.w dx + x / dx) mid
    else Config.freeNat (fr + y * 65536 + x) % (2 * mid)

/-- R311: a picture with blocks concealed from the most recently decoded one. Concealed blocks carry no poison (R313). -/
def concealPic (o : DecOut) (last : Option Pic) (fr : Nat) (skip : List Nat) (p : Pic) : Pic :=
  let bw := max 1 o.bw
  let bh := max 1 o.bh
  let nb := cdiv p.w bw
  let mid := 2 ^ (p.depth - 1)
  let (dx, dy) := chromaDiv p.chroma
  let cw := cdiv p.w dx
  let pl (plane : Pic → List Nat) := concealPlane cw (max 1 (bw / dx)) (max 1 (bh / dy)) nb skip
    fun x y => coSample last plane false mid fr (x * dx) (y * dy)
  { p with y := concealPlane p.w bw bh nb skip (coSample last (fun q => q.y) true mid fr) p.y,
           cb := pl (fun q => q.cb) p.cb, cr := pl (fun q => q.cr) p.cr,
           bad := p.bad.filter fun i => !skip.contains (i / p.w / bh * nb + i % p.w / bw),
           badC := p.badC.filter fun i => !skip.contains (i / cw / max 1 (bh / dy) * nb + i % cw / max 1 (bw / dx)) }

/-- The blocks of a picture. -/
def blocksOf (o : DecOut) (p : Pic) : Nat := cdiv p.w (max 1 o.bw) * cdiv p.h (max 1 o.bh)

/-! ### Picture slots (R308) -/

/-- The region of a session. -/
def sesMem (s : State) (n : Nat) : Nat := 2 ^ 32 * rdF s (rVidSesMemHi n) 13 0 + 4096 * rdF s (rVidSesMemLo n) 31 12

/-- The size of a session's picture slot, PB + MV. -/
def slotBytes (s : State) (n : Nat) : Nat := sesNeed s n / (capDpb s n + 2)

/-- A picture slot that holds no picture of the DPB, none that waits for output, and none in an engine. -/
def slotFree (s : State) (n : Nat) : Option Nat :=
  let t := sesOf s n
  (upto (capDpb s n + 2)).find? fun i =>
    !t.refs.contains i && !(t.outs.any fun o => o.slot == some i) && !(t.busy.any fun u => u.slot == i)

/-- `n` bytes at an address that the spec leaves open, the flags of their words open too where `bad`.
Assumption log: 88 (DESIGN CHOICE). -/
def freePut (s : State) (w : Who) (g n : Nat) (bad : Bool) : State :=
  let bs : List Byte := (upto n).map fun i => BitVec.ofNat 8 (Config.freeNat (s.free + i))
  let ps := (upto n).map fun i => bad && Config.freeNat (s.free + n + i / 32) % 2 == 1
  let s := freeSkip s (2 * n)
  match localOf s g with
  | some a => if n = 0 then s else fabStore s w a bs ps
  | none => s

/-- R308: a picture is written into its slot of the session's region: its samples, and for video its motion data. The spec gives neither a
layout there: the bytes are free, and so are the flags of their words where a poisoned word contributed (R313).
Assumption log: 88 (DESIGN CHOICE). -/
def picPut (s : State) (n slot : Nat) (w h bytes : Nat) (bad : Bool) : State :=
  let g := sesMem s n + slot * slotBytes s n
  let mv := if sesCodec s n = 3 then 0 else w / 16 * (h / 16) * 16
  let s := freePut s (whoVid s n (some 0)) g bytes bad
  freePut s (whoVid s n (some 0)) (g + slotBytes s n - mv) mv bad

/-- The bytes of a picture's samples. -/
def picBytes (p : Pic) : Nat := (p.y.length + p.cb.length + p.cr.length) * (if p.depth ≤ 8 then 1 else 2)

/-! ### Units (R309 to R316) -/

/-- R309: the service that a session needs: 0 video decoding, 1 JPEG decoding, 2 encoding. -/
def sesKind (s : State) (n : Nat) : Nat := if sesEnc s n then 2 else if sesCodec s n = 3 then 1 else 0

/-- Whether session n could be served: it and its block are enabled, its ring holds a descriptor, no unit of a video session is in an
engine, and a picture slot is free. -/
def sesReady (s : State) (n : Nat) : Bool :=
  rdB s rVidCtl 0 && rdB s (rVidSesCtl n) 31 && rdF s (rVidSesHead n) 9 0 % sesSize s n != rdF s (rVidSesTail n) 9 0 &&
    (sesKind s n != 0 || (sesOf s n).busy.isEmpty) && (slotFree s n).isSome

/-- R309: whether session n is the next in the rotation of its kind.
Assumption log: 28 (DEDUCED). -/
def sesTurn (s : State) (n : Nat) : Bool :=
  let t := s.vid.turns.getD (sesKind s n) 0
  let far (m : Nat) : Nat := (m + 32 - t) % 32
  sesReady s n && (upto 32).all fun m => !(sesReady s m && sesKind s m == sesKind s n) || far n ≤ far m

/-- The rotation goes on behind session n. -/
def turnNext (s : State) (n : Nat) : State :=
  { s with vid := { s.vid with turns := s.vid.turns.set (sesKind s n) ((n + 1) % 32) } }

/-- R309: what of a JPEG session waits at the front for nothing but its report is reported, over at most k of them. -/
def outsRun (s : State) (n : Nat) : Nat → State
  | 0 => s
  | k + 1 => match (sesOf s n).outs with
    | o :: rest => if o.done && o.pic.isNone then
      outsRun (postRep (updSes s n fun t => { t with outs := rest, must := t.must - 1 }) n o.rep 0xFFFFFFFF) n k
    else s
    | [] => s

/-- A unit without a picture is reported: at once, or behind the units of a JPEG session that are ahead of it. One that stood in an engine
fills the place it was given. -/
def repIn (s : State) (n ord : Nat) (d : VidDesc) (r : VidRep) : State :=
  if sesCodec s n = 3 ∧ (sesOf s n).outs ≠ [] then
    let o : VidOut := ⟨r, d, none, none, ord, true⟩
    let here (t : Ses) : Bool := t.outs.any fun x => x.ord == ord
    let s := updSes s n fun t => { t with outs := if here t then t.outs.map fun x => if x.ord = ord then o else x else t.outs ++ [o] }
    outsRun s n (sesOf s n).outs.length
  else postRep s n r 0xFFFFFFFF

/-- R309: FLUSH of a descriptor: every picture that then waits leaves before any later one. -/
def flushOuts (s : State) (n : Nat) (d : VidDesc) : State :=
  if bitN d.ctl 7 then updSes s n fun t => { t with must := t.outs.length } else s

/-- The report of a unit that ends with the error at `err`, a truncation, or its budget (R312 to R314): STATUS is the code of the first of
them, and a truncation, found where the data ends, comes after a budget that ran out. -/
def unitRep (d : VidDesc) (err : Option Nat) (trunc dead pin : Bool) (skip : List Nat) (nb cycles claim : Nat) : VidRep :=
  let trunc := trunc && !dead
  let status := if err.isSome || trunc then 0x6C else if dead then 0x6D else 0
  let flags := b2n (!skip.isEmpty) + 2 * b2n err.isSome + 4 * b2n trunc + 8 * b2n dead + 64 * b2n pin
  let first := match skip with
    | [] => 0xFFFFFFFF
    | i :: _ => i % max 1 nb + 65536 * (i / max 1 nb)
  ⟨d.id, status, flags, first, err.getD 0xFFFFFFFF, skip.length, cycles, claim⟩

/-- A unit whose picture is decoded, with the blocks that are concealed: the picture takes its slot, joins the DPB where its stream says so,
and waits for its output. -/
def unitDone (s : State) (n : Nat) (u : VidRun) (dead : Bool) (skip : List Nat) (cycles claim : Nat) (p : Pic) : State :=
  let t := sesOf s n
  let jpeg := sesCodec s n == 3
  let q := concealPic u.out (if jpeg || t.refs.isEmpty then none else t.last) s.free skip p
  let s := freeSkip s (65536 * p.h)
  let r := unitRep u.desc u.err u.out.trunc dead u.pin skip (cdiv p.w (max 1 u.out.bw)) cycles claim
  let s := act (incrBy s (rVidSesConcealCnt n) skip.length) (16 + n) 7 (p.w * p.h)
  let s := picPut s n u.slot p.w p.h (picBytes q) (!(q.bad.isEmpty && q.badC.isEmpty))
  let o : VidOut := ⟨r, u.desc, some q, some u.slot, u.ord, true⟩
  let s := updSes s n fun t =>
    { t with last := some q, busy := t.busy.filter fun v => v.ord != u.ord,
             refs := if jpeg then [] else ((t.refs.filter u.out.keep.contains) ++ (if u.out.ref then [u.slot] else [])).take (capDpb s n),
             outs := if t.outs.any fun x => x.ord == u.ord then t.outs.map fun x => if x.ord = u.ord then o else x else t.outs ++ [o] }
  flushOuts s n u.desc

/-- A unit that is refused with a code. -/
def unitRefused (s : State) (n ord : Nat) (d : VidDesc) (code claim : Nat) (pin : Bool) : State :=
  flushOuts (repIn s n ord d { id := d.id, status := code, flags := 16 + 32 + 64 * b2n pin, claim := claim }) n d

/-- The units in the engines for video decoding, or JPEG. -/
def busyEngines (s : State) (jpeg : Bool) : Nat :=
  ((upto 32).map fun n => if (sesCodec s n == 3) == jpeg then (sesOf s n).busy.length else 0).foldl (· + ·) 0

/-- R311, R313: the blocks that a unit skips. A poisoned word of its data is corrupt data: where the stream itself skips none, the blocks
from it to the next resynchronisation point are, and which they are the spec does not say: a free run of them.
Assumption log: 88 (DESIGN CHOICE). -/
def unitSkip (s : State) (o : DecOut) (pin : Bool) (p : Pic) : List Nat × State :=
  if !pin || !o.skip.isEmpty then (o.skip, s)
  else
    let nb := max 1 (blocksOf o p)
    let (a, s) := freeN s
    let (b, s) := freeN s
    ((upto nb).filter fun i => a % nb ≤ i && i ≤ max (a % nb) (b % nb), s)

/-- R310 to R314: a unit in an engine, with the next place of the ring and a free picture slot.
Assumption log: 28 (DEDUCED), 88 (DESIGN CHOICE). -/
def unitRun (s : State) (n slot : Nat) (d : VidDesc) (o : DecOut) : State :=
  let (g, s) := vidRead s n d.src d.len
  let pin := g.pois.any id
  let at0 := g.pois.findIdx id
  let err := if pin then some (min at0 (o.err.getD at0)) else o.err
  let ord := (sesOf s n).ord
  let s := updSes (addSets s n o.sets) n fun t => { t with ord := t.ord + 1 }
  match (sesOf s n).sets.find? fun c => c.1 == o.uses with
  | none => unitRefused s n ord d 0x6C 0 pin
  | some (_, code, c) =>
    let claim := c.w % 65536 + c.h % 65536 * 65536
    let tooLong := unitBudget s n d < o.cycles
    let hold (s : State) (skip : List Nat) : State :=
      let u : VidRun := ⟨d, o, pin, err, skip, slot, ord⟩
      let o' : VidOut := ⟨{ id := d.id }, d, none, none, ord, false⟩
      updSes s n fun t => { t with busy := t.busy ++ [u], outs := if sesCodec s n = 3 then t.outs ++ [o'] else t.outs }
    if code ≠ 0 then unitRefused s n ord d code claim pin
    else match o.pic with
      | none =>
        if tooLong then hold s [] else flushOuts (repIn s n ord d (unitRep d err o.trunc false pin [] 1 o.cycles claim)) n d
      | some p =>
        let (skip, s) := unitSkip s o pin p
        if tooLong then hold s skip else unitDone s n ⟨d, o, pin, err, skip, slot, ord⟩ false skip o.cycles claim p

/-- DECODE_UNIT: a free engine takes the next descriptor of session n, when it is that session's turn (R309); `o` is what its bitstream
holds. A unit that would take more cycles than its budget stays in the engine until BUDGET_EXCEEDED.
Assumption log: 13 (DESIGN CHOICE), 28 (DEDUCED). -/
def execDecodeUnit (n : Nat) (o : DecOut) (s : State) : Out :=
  let n := n % 32
  if sesEnc s n || !sesTurn s n || 4 ≤ busyEngines s (sesCodec s n == 3) then .next s
  else match takeUnit s n with
    | (none, s) => .next s
    | (some (d, true), s) =>
      let ord := (sesOf s n).ord
      .next (unitRefused (updSes (turnNext s n) n fun t => { t with ord := t.ord + 1 }) n ord d 0x6B 0 false)
    | (some (d, false), s) => .next (unitRun (turnNext s n) n ((slotFree s n).getD 0) d o)

/-- R314, R316, R400: a unit of session n has run past its budget: it is counted, and charged to the job that the session is
bound to.
Assumption log: 28 (DEDUCED). -/
def budgetHit (s : State) (n : Nat) : State :=
  let id := rdF s (rCpJobVid n) 11 0
  let hit (j : Job) : Job :=
    if j.id = id ∧ (j.st = .queued ∨ j.st = .running) then { j with flags := j.flags ||| 32, missed := j.missed + 1 } else j
  let s := incr s (rVidSesDeadlineCnt n)
  if id = 0 then s else { s with fw := { s.fw with jobs := s.fw.jobs.map hit } }

/-- R314: whether a unit's error lies before the blocks that its budget left undecoded. -/
def errMet (u : VidRun) (rest : List Nat) : Bool :=
  u.err.isSome && match u.skip with
    | [] => true
    | b :: _ => !rest.contains b

/-- BUDGET_EXCEEDED: the budget of session n's oldest unit in an engine runs out; `skip` are the blocks that are then not decoded, and
`cycles` the cycles used. An error among those blocks has not been met; the blocks skipped for an earlier one are concealed with
them. -/
def execBudgetExceeded (n : Nat) (skip : List Nat) (cycles : Nat) (s : State) : Out :=
  let n := n % 32
  match (sesOf s n).busy with
  | [] => .next s
  | u :: _ =>
    let c := (((sesOf s n).sets.find? fun c => c.1 == u.out.uses).map fun c => c.2.2.w % 65536 + c.2.2.h % 65536 * 65536).getD 0
    let met := errMet u skip
    let v : VidRun := if met then u else { u with err := none, pin := false, skip := [] }
    match u.out.pic with
    | none =>
      let s := updSes s n fun t => { t with busy := t.busy.filter fun w => w.ord != u.ord }
      .next (budgetHit (flushOuts (repIn s n u.ord u.desc (unitRep u.desc v.err false true v.pin [] 1 cycles c)) n u.desc) n)
    | some p =>
      let all := (upto (blocksOf u.out p)).filter fun i => skip.contains i || v.skip.contains i
      .next (budgetHit (unitDone s n v true all cycles c p) n)

/-- R316: how a unit of session n is coded: its QP, and whether it is an IDR picture (a JPEG image stands alone). -/
def encHow (s : State) (n : Nat) (d : VidDesc) : Nat × Bool :=
  (bitsN d.ctl 0 6, sesCodec s n == 3 || (sesOf s n).idr || bitN d.ctl 6)

/-- R316: the reference picture that a coded video unit leaves takes a picture slot. -/
def encRef (s : State) (n w h : Nat) : State :=
  match sesCodec s n, slotFree s n with
  | 3, _ => s
  | _, some i => updSes (picPut s n i w h (w * h * 3 / 2) false) n fun t => { t with refs := [i] }
  | _, none => s

/-- ENCODE_UNIT: an encode engine codes the frame (w by h) of session n's next descriptor, when it is that session's turn, into `bytes`,
in `cycles` engine cycles. The engine is free again when the row ends, so the two engines of Table 11.1 bound nothing here. Where
the unit outgrows LEN and its budget, the spec does not say which comes first: it is free.
Assumption log: 13 (DESIGN CHOICE), 88 (DESIGN CHOICE). -/
def execEncodeUnit (n w h : Nat) (bytes : List Byte) (cycles : Nat) (s : State) : Out :=
  let n := n % 32
  if !sesEnc s n || !sesTurn s n then .next s
  else match takeUnit s n with
    | (none, s) => .next s
    | (some (d, true), s) => .next (postRep (turnNext s n) n { id := d.id, status := 0x6B, flags := 16 } 0)
    | (some (d, false), s) =>
      let s := turnNext s n
      if capW s n < w ∨ capH s n < h then .next (postRep s n { id := d.id, status := 0x6B, flags := 16, claim := w % 65536 + h % 65536 * 65536 } 0)
      else
        let (g, s) := vidRead (act s (16 + n) 7 (w * h)) n d.src (w * h * 3 / 2)
        let big := decide (d.len < bytes.length)
        let late := decide (unitBudget s n d < cycles)
        let (k, s) := freeN s
        let tooBig := big && !(late && k % 2 == 1)
        let dead := late && !tooBig
        let bs := bytes.take d.len
        let s := match localOf s d.aug with
          | some a => if bs.isEmpty then s
            else fabStore s (whoVid s n (some 0)) a bs (List.replicate bs.length (g.pois.any id))
          | none => refuse s (whoVid s n none) 0x46 d.aug
        let how := encHow s n d
        let s := if tooBig || dead then s else encRef s n w h
        let s := updSes s n fun t => { t with idr := tooBig || dead, coded := some how }
        let s := if dead then budgetHit s n else s
        let status := if tooBig then 0x6C else if dead then 0x6D else 0
        .next (postRep s n { id := d.id, status := status, flags := 4 * b2n tooBig + 8 * b2n dead, cycles := cycles,
                             claim := w % 65536 + h % 65536 * 65536 } (if tooBig || dead then 0 else bytes.length))

/-! ### Sample queues (R319 to R322) -/

/-- A sample queue. -/
def sqOf (s : State) (q : Nat) : Sq := s.vid.qs.getD q {}

/-- Changing a sample queue. -/
def updSq (s : State) (q : Nat) (f : Sq → Sq) : State := { s with vid := { s.vid with qs := s.vid.qs.modify q f } }

/-- SLOTS. -/
def sqSlots (s : State) (q : Nat) : Nat := rdF s (rShpQGeom q) 31 20

/-- SLOT in bytes. -/
def sqSlot (s : State) (q : Nat) : Nat := rdF s (rShpQGeom q) 19 0 * 64

/-- BASE, a global address. -/
def sqBase (s : State) (q : Nat) : Nat := 2 ^ 32 * rdF s (rShpQBaseHi q) 13 0 + 4096 * rdF s (rShpQBaseLo q) 31 12

/-- The global address of the slot of sample n. -/
def slotAddr (s : State) (q n : Nat) : Nat := sqBase s q + n % max 1 (sqSlots s q) * sqSlot s q

/-- R321: FULL. -/
def sqFull (s : State) (q : Nat) : Bool := sqSlots s q ≤ (sqOf s q).commit - (sqOf s q).free

/-- R320: the check of a queue's EN. -/
def queueCheck (s : State) (q : Nat) : Nat :=
  let b := sqBase s q
  let n := sqSlots s q * sqSlot s q
  let overlap := (upto 64).any fun i => i != q && rdB s (rShpQCtl i) 31 && sqBase s i < b + n &&
    b < sqBase s i + sqSlots s i * sqSlot s i
  if !rdB s rShpCtl 0 || sqSlots s q == 0 || sqSlot s q == 0 || !inDramMedia s b n || overlap then 0x6F else 0

/-- A queue's enable has passed: all pointers are 0. -/
def queueOn (s : State) (q : Nat) : State :=
  updSq (wrB s (rShpQCtl q) 31 true) q fun t => { waiting := t.waiting, ended := t.ended }

/-- R185: the waits of QPOP READs on queue q end. -/
def queueEnds (s : State) (q : Nat) : State := updSq s q fun t => { t with waiting := [], ended := t.ended ++ t.waiting }

/-- R321: a flush: every sample is discarded, and a waiting QPOP READ ends. -/
def queueFlush (s : State) (q : Nat) : State :=
  queueEnds (updSq s q fun t => { t with read := t.commit, mark := t.commit, free := t.commit, target := t.commit,
                                         sizes := [], copies := [] }) q

/-- QUEUE_FLUSH: a write of SHP_Qq_CTL.FLUSH := 1. -/
def execQueueFlush (q : Nat) (s : State) : Out :=
  let q := q % 64
  .next (busWrite s (rShpQCtl q) (setBit (rd s (rShpQCtl q)) 30 true) fun s => queueFlush s q)

/-- R321: EN := 0 of a queue. -/
def queueOff (s : State) (q : Nat) : State := queueFlush (wrB s (rShpQCtl q) 31 false) q

/-- R321: FREE advances toward the release target, over slots of which no copy is in flight, at most n of them. -/
def freeUp (t : Sq) : Nat → Sq
  | 0 => t
  | n + 1 => if t.free < t.target && !(t.copies.any fun c => c.1 == t.free) then freeUp { t with free := t.free + 1 } n else t

/-- FREE of queue q advances as far as it can. -/
def freeAdv (s : State) (q : Nat) : State :=
  updSq (updSq s q fun t => freeUp t (t.target - t.free)) q fun t => { t with sizes := t.sizes.filter fun z => t.free ≤ z.1 }

/-- QUEUE_COPY_COMPLETE: the copies from queue q whose transfer is complete end, and FREE advances. -/
def execQueueCopyComplete (q : Nat) (s : State) : Out :=
  let live (c : Nat × Nat × Nat) := (xferOf s c.2.1 c.2.2).isSome
  .next (freeAdv (updSq s q fun t => { t with copies := t.copies.filter live }) q)

/-! ### QPOP (R185, R321, R322) -/

/-- R83: a QPOP of cluster c that never blocks: it acts in its turn. -/
def qpopDo (c : CAt) (s : State) (f : State → State) : Out :=
  let s := adv s c.cl c.dt
  if !kslotTurn s c.cl then .next s
  else
    let r := kslotPass s c.cl 0
    .next (if r.1 then f r.2 else r.2)

/-- QPOP_READ by cluster k: dst is the destination stream, len the field LEN, and COMMIT. -/
def execQpopRead (c : CAt) (q dst len : Nat) (commit : Bool) (s : State) : Out :=
  let k := c.cl
  let q := q % 64
  let s := adv s k c.dt
  if !kslotTurn s k then .next s else
  onOk (strmOk s k dst) fun ns =>
    let t := sqOf s q
    let go (f : State → State) : Out :=
      let r := kslotPass (through s k (blocker 4 8)) k 0
      .next (if r.1 then f r.2 else r.2)
    if t.ended.contains k then go fun s => updSq s q fun t => { t with ended := t.ended.erase k }
    else if t.commit ≤ t.read then
      .next (updSq (blockBeat s k 4 8) q fun t => { t with waiting := if t.waiting.contains k then t.waiting else t.waiting ++ [k] })
    else if 64 < (clu s k).xfers.length + 1 then .next (blockBeat (through s k (blocker 4 8)) k 4 0)
    else go fun s =>
      let src := slotAddr s q t.read
      let size := ((t.sizes.find? fun z => z.1 == t.read).map fun z => z.2).getD 64
      let n := min size ((len % 4096 + 1) * 32)
      let x := { mkXfer s k src (recAddr s k 4 ns dst) 0 0 n 1 false false commit with queue := some q }
      let s := updSq s q fun t => { t with read := t.read + 1, copies := t.copies ++ [(t.read, k, x.id)],
                                           waiting := t.waiting.filter (· != k) }
      enterXfer s k x

/-- QPOP_MARK. -/
def execQpopMark (c : CAt) (q : Nat) (s : State) : Out :=
  qpopDo c s fun s => updSq s (q % 64) fun t => { t with mark := t.read }

/-- QPOP_REWIND. -/
def execQpopRewind (c : CAt) (q : Nat) (s : State) : Out :=
  qpopDo c s fun s => incr (updSq s (q % 64) fun t => { t with read := t.mark }) (rShpQRewindCnt (q % 64))

/-- QPOP_RELEASE. -/
def execQpopRelease (c : CAt) (q : Nat) (s : State) : Out :=
  qpopDo c s fun s => freeAdv (updSq s (q % 64) fun t => { t with mark := t.read, target := t.read }) (q % 64)

/-! ### The shaper (R317 to R319) -/

/-- An augmentation record (Table 11.4). -/
structure Aug where
  cropX : Nat
  cropY : Nat
  cropW : Nat
  cropH : Nat
  outW : Nat
  outH : Nat
  ctl : Nat
  gain : List Nat
  off : List Int
  resv : Bool
  user : List Byte
  deriving DecidableEq, Repr

/-- A record from its bytes. -/
def augOf (b : List Byte) : Aug :=
  ⟨leAt b 0 2, leAt b 2 2, leAt b 4 2, leAt b 6 2, leAt b 8 2, leAt b 10 2, leAt b 12 4, (upto 3).map fun i => leAt b (16 + 2 * i) 2,
    (upto 3).map fun i => sextN 16 (leAt b (0x16 + 2 * i) 2), leAt b 0x1C 4 != 0 || leAt b 0x30 16 != 0, slice b 0x20 16⟩

/-- LAYOUT. -/
def augLayout (r : Aug) : Nat := bitsN r.ctl 5 2

/-- FOLD. -/
def augFold (r : Aug) : Nat := bitsN r.ctl 7 2

/-- R319: payload bytes. -/
def augPayload (r : Aug) : Nat :=
  match augLayout r with
  | 0 => 32 * cdiv r.outW (augFold r) * cdiv r.outH (augFold r)
  | 1 => 3 * r.outW * r.outH
  | _ => r.outW * r.outH

/-- R317: whether a record is refused for a picture of w by h and a queue. -/
def augBad (s : State) (q w h : Nat) (r : Aug) : Bool :=
  r.resv || r.ctl / 512 != 0 || r.cropW == 0 || r.cropH == 0 || r.outW == 0 || r.outH == 0 || w < r.cropX + r.cropW ||
    h < r.cropY + r.cropH || augLayout r == 3 || (augLayout r == 0 && augFold r == 0) || sqSlot s q < 64 + augPayload r ||
    !rdB s (rShpQCtl q) 31

/-- Table 11.5: y0, a, b, c, e and f of a MATRIX (3 is reserved: its coefficients are free).
Assumption log: 49 (DESIGN CHOICE). -/
def mtxOf (m : Nat) : Int × Int × Int × Int × Int × Int :=
  if m = 0 then (16, 298, 409, 100, 208, 516) else if m = 1 then (16, 298, 459, 55, 136, 541)
  else if m = 2 then (0, 256, 359, 88, 183, 454)
  else (Config.matrix3 0, Config.matrix3 1, Config.matrix3 2, Config.matrix3 3, Config.matrix3 4, Config.matrix3 5)

/-- A sample reduced to 8 bits. -/
def to8 (d v : Nat) : Int := if d ≤ 8 then v else (min ((v + 2 ^ (d - 9)) / 2 ^ (d - 8)) 255 : Nat)

/-- The clamp to a byte. -/
def clamp8 (x : Int) : Int := max 0 (min x 255)

/-- R318: RGB(x, y), and whether it is poisoned. -/
def rgbAt (m : Nat) (p : Pic) (x y : Nat) : (Int × Int × Int) × Bool :=
  let (dx, dy) := chromaDiv p.chroma
  let ci := y / dy * cdiv p.w dx + x / dx
  let (y0, a, b, c, e, f) := mtxOf m
  let Y := to8 p.depth (p.y.getD (y * p.w + x) 0) - y0
  let U := if p.chroma = 0 then 0 else to8 p.depth (p.cb.getD ci 0) - 128
  let V := if p.chroma = 0 then 0 else to8 p.depth (p.cr.getD ci 0) - 128
  ((clamp8 ((a * Y + b * V + 128) / 256), clamp8 ((a * Y - c * U - e * V + 128) / 256), clamp8 ((a * Y + f * U + 128) / 256)),
    p.bad.contains (y * p.w + x) || (p.chroma != 0 && p.badC.contains ci))

/-- R318: the source position of an output pixel, in 16.16. -/
def augSrc (r : Aug) (ox oy : Nat) : Int × Int :=
  let ox := if bitN r.ctl 2 then r.outW - 1 - ox else ox
  let oy := if bitN r.ctl 3 then r.outH - 1 - oy else oy
  let rot := bitsN r.ctl 0 2
  let (pw, ph) := if rot % 2 = 0 then (r.outW, r.outH) else (r.outH, r.outW)
  let (u, v) := if rot = 0 then (ox, oy) else if rot = 1 then (oy, ph - 1 - ox)
    else if rot = 2 then (pw - 1 - ox, ph - 1 - oy) else (pw - 1 - oy, ox)
  ((r.cropX * 65536 + (2 * u + 1) * r.cropW * 32768 / pw : Nat) - 32768, (r.cropY * 65536 + (2 * v + 1) * r.cropH * 32768 / ph : Nat) - 32768)

/-- One channel of a pixel. -/
def chan (k : Nat) (c : Int × Int × Int) : Int := if k = 0 then c.1 else if k = 1 then c.2.1 else c.2.2

/-- R318: the colour of an output pixel after gain and offset, and whether it is poisoned.
Assumption log: 49 (DESIGN CHOICE). -/
def augPix (m : Nat) (p : Pic) (r : Aug) (ox oy : Nat) : List Int × Bool :=
  let (sx, sy) := augSrc r ox oy
  let cx (x : Int) : Nat := (max (r.cropX : Int) (min x (r.cropX + r.cropW - 1 : Nat))).toNat
  let cy (y : Int) : Nat := (max (r.cropY : Int) (min y (r.cropY + r.cropH - 1 : Nat))).toNat
  let (raw, bad) : (Nat → Int) × Bool :=
    if !bitN r.ctl 4 then
      let c := rgbAt m p (cx ((sx + 32768) / 65536)) (cy ((sy + 32768) / 65536))
      (fun k => chan k c.1, c.2)
    else
      let x0 := sx / 65536
      let y0 := sy / 65536
      let fx := sx / 256 % 256
      let fy := sy / 256 % 256
      let c00 := rgbAt m p (cx x0) (cy y0)
      let c10 := rgbAt m p (cx (x0 + 1)) (cy y0)
      let c01 := rgbAt m p (cx x0) (cy (y0 + 1))
      let c11 := rgbAt m p (cx (x0 + 1)) (cy (y0 + 1))
      (fun k => ((chan k c00.1 * (256 - fx) + chan k c10.1 * fx) * (256 - fy) +
        (chan k c01.1 * (256 - fx) + chan k c11.1 * fx) * fy + 32768) / 65536, c00.2 || c10.2 || c01.2 || c11.2)
  ((upto 3).map fun k => clamp8 ((raw k * (r.gain.getD k 0 : Nat) + 2048) / 4096 + r.off.getD k 0), bad)

/-- A byte of a channel value. -/
def byteI (x : Int) : Byte := BitVec.ofNat 8 x.toNat

/-- R318, R319: the payload of a sample, each byte with its poison. -/
def augBytes (m : Nat) (p : Pic) (r : Aug) : List (Byte × Bool) :=
  let at3 (x y : Nat) := augPix m p r x y
  match augLayout r with
  | 1 => (upto r.outH).flatMap fun y => (upto r.outW).flatMap fun x =>
      let c := at3 x y
      c.1.map fun v => (byteI v, c.2)
  | 2 => (upto r.outH).flatMap fun y => (upto r.outW).map fun x =>
      let c := at3 x y
      (byteI ((77 * c.1.getD 0 0 + 150 * c.1.getD 1 0 + 29 * c.1.getD 2 0 + 128) / 256), c.2)
  | _ =>
    let fold := augFold r
    (upto (cdiv r.outH fold)).flatMap fun y => (upto (cdiv r.outW fold)).flatMap fun x => (upto 32).map fun ch =>
      let ox := x * fold + ch / 3 % fold
      let oy := y * fold + ch / 3 / fold
      if 3 * fold * fold ≤ ch ∨ r.outW ≤ ox ∨ r.outH ≤ oy then (0, false)
      else
        let c := at3 ox oy
        (byteI (c.1.getD (ch % 3) 0), c.2)

/-- Table 11.6: the sample header. -/
def sampleHdr (id seq size flags ses : Nat) (r : Aug) : List Byte :=
  leBytes 4 id ++ leBytes 4 seq ++ leBytes 4 size ++ leBytes 1 flags ++ leBytes 1 ses ++
    leBytes 2 (augLayout r + 4 * augFold r) ++ leBytes 2 r.outW ++ leBytes 2 r.outH ++ List.replicate 12 0 ++ r.user ++
    List.replicate 16 0

/-- The sample of a picture is written into the next slot of queue q and committed. The bytes that pad it to 64 are free.
Assumption log: 2 (DESIGN CHOICE). -/
def putSample (s : State) (n q : Nat) (rep : VidRep) (r : Aug) (p : Pic) : State :=
  let t := sqOf s q
  let pay := augBytes (rdF s (rVidSesCtl n) 26 25) p r
  let pad := (freeBytes s.free ++ freeBytes (s.free + 8)).take ((64 - pay.length % 64) % 64)
  let s := freeSkip s 16
  let hdr := sampleHdr rep.id (t.commit % 2 ^ 32) (64 + pay.length) rep.flags n r
  let bs := pay.map (fun x => x.1) ++ pad
  let ps := (pay.map fun x => x.2) ++ pad.map fun _ => false
  let s := match localOf s (slotAddr s q t.commit) with
    | some a =>
      let s := fabStore s (whoVid s n (some 0)) a hdr (List.replicate 64 false)
      fabStore s (whoVid s n (some (if augLayout r = 0 then 2 else 0))) (a + 64) bs ps
    | none => s
  incr (updSq s q fun t => { t with commit := t.commit + 1, sizes := t.sizes ++ [(t.commit, 64 + pay.length)] })
    (rShpQCommitCnt q)

/-- Whether picture i of session n may be output now: the shaper and the session are enabled (R21), a JPEG session's pictures leave in ring
order, and those that a FLUSH told to leave come first (R309). -/
def outTurn (s : State) (n i : Nat) : Bool :=
  rdB s rShpCtl 0 && rdB s (rVidSesCtl n) 31 && (sesCodec s n != 3 || i == 0) && ((sesOf s n).must == 0 || i < (sesOf s n).must)

/-- SHAPE_SAMPLE: picture i of session n is output: its record is applied, and its sample committed, refused or dropped.
Assumption log: 28 (DEDUCED). -/
def execShapeSample (n i : Nat) (s : State) : Out :=
  let n := n % 32
  match (sesOf s n).outs[i]? with
  | none => .next s
  | some o => match o.pic with
    | none => .next s
    | some pic =>
      if !outTurn s n i then .next s
      else
        let s := updSes s n fun t => { t with outs := t.outs.eraseIdx i, must := t.must - 1 }
        let q := bitsN o.desc.ctl 0 6
        let post (s : State) (r : VidRep) (last : Nat) : Out :=
          let s := postRep s n r last
          .next (outsRun s n (sesOf s n).outs.length)
        let drop (r : VidRep) : VidRep := { r with flags := r.flags ||| 32 }
        if bitN o.desc.ctl 6 && (bitN o.rep.flags 0 || bitN o.rep.flags 3) then post s (drop o.rep) 0xFFFFFFFF
        else
          let (g, s) := vidRead s n o.desc.aug 64
          let r := augOf g.data
          if augBad s q pic.w pic.h r then
            let v := drop { o.rep with flags := o.rep.flags ||| 16 }
            post s (if v.status = 0 then { v with status := 0x6E } else v) 0xFFFFFFFF
          else if sqFull s q then post (incr (wrB s (rShpQCount q) 31 true) (rShpQOvrCnt q)) (drop o.rep) 0xFFFFFFFF
          else
            let seq := (sqOf s q).commit
            post (putSample s n q o.rep r pic) o.rep (seq % 2 ^ 32)

end Sys2Proof.Machine
end

