-- ==== Sys2Proof/Machine/Mailbox.lean ====
section
/-! DEFINITION. The mailbox (13 sections 4 and 5, 14 sections 2 and 3): taking and checking requests, negotiation, GET_INFO,
SET_LOG and the release of result slots. A command row acts on the oldest request of its ring pair that has been taken. -/

namespace Sys2Proof.Machine
open Sys2Proof

/-! ### Requests (R371, R372) -/

/-- The command of a request entry. -/
def reqCmd (e : List Byte) : Nat := leAt e 4 2

/-- The request that an entry of pair r carries. -/
def reqOf (r : Nat) (e : List Byte) : Rq := ⟨r, leAt e 0 4, leAt e 8 8⟩

/-- An argument of n bytes at an offset within the 48 argument bytes. -/
def arg (e : List Byte) (o n : Nat) : Nat := leAt e (16 + o) n

/-- R372: the agent bit of the sender of pairs 4 to 8. -/
def pairAgent (r : Nat) : Nat := if r < 8 then 14 else 12

/-- R372: the local address of a pointer argument of pair r (Table 14.1). -/
def ptrAddr (r a : Nat) : Nat := if r < 4 then hpAddr a else if r < 8 then a else a % 2 ^ 40

/-- R372: whether a range of n bytes is within the sender's reach. -/
def inReach (s : State) (r a n : Nat) (wr : Bool) : Bool :=
  if r < 4 then a + n ≤ 0x400000
  else
    (r < 8 || a / 2 ^ 40 == ownChip s) &&
    (upto 64).any fun i =>
      let l := ptrAddr r a
      rdB s (rMemRgnCtl i) 31 && (rgnRange s i).1 ≤ l && l + n ≤ (rgnRange s i).2 &&
        rdB s (rMemRgnMask i) ((if wr then 16 else 0) + pairAgent r)

/-- R372: the pointer argument of a request: its pointer, its length and whether the command writes there. -/
def ptrArg (e : List Byte) : Option (Nat × Nat × Bool) :=
  match reqCmd e with
  | 0x11 => some (arg e 8 8, arg e 16 4, false)
  | 0x30 => if arg e 12 4 = 0 then none else some (arg e 12 4, 64, false)
  | 0x50 => some (arg e 8 8, arg e 16 4, true)
  | 0x60 => some (arg e 8 8, arg e 16 4, true)
  | 0x63 => some (arg e 32 8, 1600, true)
  | _ => none

/-- Tables 14.2, 14.3 and 18.5: the feature bit that a command needs; none where the command does not exist. -/
def cmdFeature : Nat → Option Nat
  | 0x01 => some 0
  | 0x02 => some 0
  | 0x03 => some 0
  | 0x10 => some 1
  | 0x11 => some 1
  | 0x12 => some 1
  | 0x13 => some 1
  | 0x18 => some 2
  | 0x20 => some 3
  | 0x21 => some 3
  | 0x30 => some 4
  | 0x31 => some 4
  | 0x32 => some 4
  | 0x33 => some 4
  | 0x40 => some 5
  | 0x41 => some 5
  | 0x42 => some 5
  | 0x43 => some 5
  | 0x50 => some 8
  | 0x60 => some 0
  | 0x61 => some 2
  | 0x62 => some 2
  | 0x63 => some 0
  | 0x64 => some 2
  | _ => none

/-- Table 14.2: the feature bit that an option of a request needs beside that of its command. -/
def optFeature (e : List Byte) : Option Nat :=
  if reqCmd e = 0x03 ∧ arg e 4 4 ≠ 0 then some 6
  else if reqCmd e = 0x20 ∧ arg e 16 8 ≠ 0 then some 9
  else none

/-- The feature map in force on pair r (R387, R388); nothing before a negotiation. -/
def negMap (s : State) (r : Nat) : Nat :=
  match s.fw.neg.find? fun x => x.1 == r with
  | some x => x.2.2
  | none => 0

/-- Whether pair r has negotiated. -/
def negDone (s : State) (r : Nat) : Bool := s.fw.neg.any fun x => x.1 == r

/-- Whether pair r has negotiated a feature. -/
def hasFeature (s : State) (r f : Nat) : Bool := negDone s r && bitN (negMap s r) f

/-- R372: the check of entry n of pair r; 0 where it passes. -/
def requestCheck (s : State) (r n : Nat) (e : List Byte) : Nat :=
  let reach := match ptrArg e with
    | some (a, len, w) => inReach s r a len w
    | none => true
  if leAt e 0 4 ≠ n % 2 ^ 32 then 0x02
  else if 48 < leAt e 6 1 ∨ leAt e 7 1 ≠ 0 ∨ !reach then 0x05
  else match cmdFeature (reqCmd e) with
    | none => 0x04
    | some f =>
      let opt := match optFeature e with
        | some g => hasFeature s r g
        | none => true
      if reqCmd e = 0x01 ∨ (hasFeature s r f && opt) then 0 else 0x0A

/-- An entry that has been read: it is taken for its command, or answered with the code that refuses it. -/
def takeEntry (s : State) (r n : Nat) (e : List Byte) : State :=
  let s := traceRec s 0 0
  let code := requestCheck s r n e
  if code ≠ 0 then respond s (reqOf r e) code []
  else { s with fw := { s.fw with taken := s.fw.taken ++ [(r, e)] } }

/-- R384, R461, R501: whether firmware serves pair r: not in the root ROM, and pair 0 alone in the monitors. -/
def pairServed (s : State) (r : Nat) : Bool :=
  let st := fwState s
  if st = 5 || (st = 3 && s.root.held && s.root.lockCnt ≠ 0) then r == 0 else 2 ≤ st && st ≤ 4

/-- Whether an earlier request of pair r has no answer yet (R374): a CG_COMMIT whose group is being prepared, or a multi-chip
start. -/
def pairWaits (s : State) (r : Nat) : Bool :=
  (s.fw.cgs.any fun c => c.answer && match c.owner with
    | some q => q.pair == r
    | none => false) ||
  match s.fw.multi with
  | some m => m.rq.pair == r
  | none => false

/-- R372, R374: whether the next request of pair r may be taken: the earlier ones have been carried out and answered, so that it
is checked against what they left and its answer follows theirs, and the response ring has room.
Assumption log: 69 (DEDUCED). -/
def pairOpen (s : State) (r : Nat) : Bool :=
  rspRoom s r && !(s.fw.wait.any fun w => w.1 == r) && !(s.fw.taken.any fun x => x.1 == r) && !pairWaits s r

/-- R371, R373: taking the new entries of pair r, over at most n of them: those that their check refuses are answered, and the first
that passes waits for its command. -/
def takeNew (s : State) (r : Nat) : Nat → State
  | 0 => s
  | n + 1 =>
    let p := pairPage s r
    let cons := ramNat s (p + 0x40) 4
    if cons = ramNat s (p + 0x20) 4 ∨ !pairOpen s r then s
    else
      let e := ramGet s (pairMem r + ramNat s p 4 + cons % ramNat s (p + 4) 4 * 64) 64
      takeNew (takeEntry (fwPut s (p + 0x40) (leBytes 4 (cons + 1))) r cons e) r n

/-- R373: polling pair r (0 to 7): an overrun is answered once, and stops the pair until the difference fits again. A page or ring
that the firewall keeps from firmware is refused (R368), and nothing is taken.
Assumption log: 69 (DEDUCED). -/
def pollPair (s : State) (r : Nat) : State :=
  let s := flushPair s r (s.fw.wait.length)
  let p := pairPage s r
  let ents := ramNat s (p + 4) 4
  let d := (ramNat s (p + 0x20) 4 + 2 ^ 32 - ramNat s (p + 0x40) 4) % 2 ^ 32
  let ring := pairMem r + ramNat s p 4
  if ents = 0 then s
  else if !fwReads s p then refuse s (whoFw s) (accessCode s (whoFw s) false p) (glob s p)
  else if !fwReads s ring then refuse s (whoFw s) (accessCode s (whoFw s) false ring) (glob s ring)
  else if ents < d then
    if s.fw.ovr.contains r then s
    else respond { s with fw := { s.fw with ovr := s.fw.ovr ++ [r] } } ⟨r, ramNat s (p + 0x40) 4, 0⟩ 0x03 []
  else takeNew { s with fw := { s.fw with ovr := s.fw.ovr.filter (· != r) } } r d

/-- Pair 8 of a Skerry: the entries that the links brought, in order. -/
def pollLinks (s : State) : Nat → State
  | 0 => s
  | n + 1 =>
    match s.fw.in8, pairOpen s 8 with
    | [], _ => s
    | _, false => s
    | (_, e) :: es, true =>
      let i := s.fw.cons8
      pollLinks (takeEntry { s with fw := { s.fw with in8 := es, cons8 := i + 1 } } 8 i e) n

/-- The oldest request of pair r, if it is of command `cmd` and no earlier one is unanswered; it is then carried out. -/
def takeReq (s : State) (r cmd : Nat) : Option (Rq × List Byte) × State :=
  match s.fw.taken.find? fun x => x.1 == r with
  | none => (none, s)
  | some x =>
    if reqCmd x.2 ≠ cmd || pairWaits s r then (none, s)
    else (some (reqOf r x.2, x.2), { s with fw := { s.fw with taken := s.fw.taken.erase x } })

/-- A command row: the request is carried out, or there is none of that command to act on. -/
def onReq (s : State) (r cmd : Nat) (f : State → Rq → List Byte → State) : State :=
  match takeReq s r cmd with
  | (some (q, e), s) => f s q e
  | (none, s) => s

/-! ### NEGOTIATE, GET_INFO, SET_LOG -/

/-- R384: the features that firmware offers in its stage.
Assumption log: 49 (DESIGN CHOICE). -/
def offered (s : State) : Nat :=
  let st := fwState s
  if st = 2 then 1
  else if st = 3 ∨ st = 5 then 7
  else if st = 4 then
    let f := Config.imageFeatures % 1024
    if rdB s rSecLock 4 then f else f - b2n (bitN f 8) * 256
  else 0

/-- R387: the protocol range of the running firmware.
Assumption log: 49 (DESIGN CHOICE). -/
def protoRange (s : State) : Nat × Nat := if fwState s = 4 then (0x100, 0x100) else Config.bootProto

/-- R387: the result replaces the pair's earlier one at once; DRIVER_ID is only logged.
Assumption log: 61 (DESIGN CHOICE). -/
def negotiate (s : State) (q : Rq) (e : List Byte) : State :=
  let s := logMsg s 0xC 0 (leBytes 8 (arg e 40 8))
  let (lo, hi) := protoRange s
  let v := min hi (arg e 2 2)
  let neg := s.fw.neg.filter fun x => x.1 != q.pair
  if v < lo ∨ v < arg e 0 2 then respond { s with fw := { s.fw with neg := neg } } q 0x0A []
  else
    let m := arg e 8 32 &&& offered s
    respond { s with fw := { s.fw with neg := neg ++ [(q.pair, v, m)] } } q 0
      (leBytes 2 v ++ List.replicate 6 0 ++ leBytes 32 m)

/-- NEGOTIATE on pair r. -/
def execNegotiate (r : Nat) (s : State) : Out := .next (onReq s r 0x01 negotiate)

/-- The jobs that are admitted: QUEUED or RUNNING (R393). -/
def admitted (s : State) : List Job := s.fw.jobs.filter fun j => j.id != 0 && (j.st == .queued || j.st == .running)

/-- GET_INFO on pair r (Table 14.3). -/
def execGetInfo (r : Nat) (s : State) : Out :=
  .next (onReq s r 0x02 fun s q _ =>
    respond s q 0 (leBytes 4 (Config.fwVersion (fwState s)) ++ leBytes 2 (fwState s) ++ leBytes 2 (ownChip s) ++
      leBytes 4 (shapeClass s).toNat ++ leBytes 4 (admitted s).length ++ leBytes 8 (s.fw.energy / 1000) ++ leBytes 8 (now s)))

/-- SET_LOG on pair r (R413, R414). -/
def execSetLog (r : Nat) (s : State) : Out :=
  .next (onReq s r 0x03 fun s q e => respond { s with logThr := arg e 0 1, trace := arg e 4 4 } q 0 [])

/-! ### Result slots (R375 to R378) -/

/-- The words of result channel k. -/
def chanPage (k : Nat) : Nat := hpAddr (0x400 + 0x40 * k)

/-- RESULT_RELEASE on channel k: a REL above PUB or below its previous value is ignored and reported. The spec gives that
event no type: EVT 0 with the channel's number (assumption 30).
Assumption log: 30 (DESIGN CHOICE). -/
def execResultRelease (k : Nat) (s : State) : Out :=
  if 16 ≤ k then .next s
  else
    let rel := ramNat s (chanPage k + 0x20) 4
    let old := s.fw.relSeen.getD k 0
    if ramNat s (chanPage k + 8) 4 < rel ∨ rel < old then
      .next (postEntry s 0 (entryOf 0xFFFFFFFF 0x06 1 0 (leBytes 2 0 ++ leBytes 2 k)))
    else .next { s with fw := { s.fw with relSeen := s.fw.relSeen.set k rel } }

end Sys2Proof.Machine
end

