-- ==== Sys2Proof/Machine/MemFx.lean ====
section
/-! DEFINITION. The MEM block (12): its checks, training, disable, the scrubber, the poison scan, the firewall and the
windows. -/

namespace Sys2Proof.Machine
open Sys2Proof

/-! ### Checks (R336, R352, R354) -/

/-- Gigabits of a DENSITY code, if it is not reserved. -/
def densityGb : Nat → Option Nat
  | 0 => some 8
  | 1 => some 16
  | 2 => some 24
  | 3 => some 32
  | _ => none

/-- R330: the capacity in MiB that MEM_DDR_CFG describes. -/
def cfgMib (s : State) : Option Nat :=
  (densityGb (rdF s rMemDdrCfg 2 0)).map fun g => 6 * (rdF s rMemDdrCfg 4 4 + 1) * 4 * g * 128

/-- R336: the check of MEM_CTL.ENABLE. -/
def memCheck (s : State) : Nat :=
  match cfgMib s with
  | none => 0x40
  | some m => if 5 < rdF s rMemDdrCfg 10 8 || 98304 < m then 0x40 else 0

/-- Whether [a, b) lies inside one marked region of Table 12.1. -/
def inMarked (a b : Nat) : Bool :=
  match regionOf a with
  | none => false
  | some r => fwMarked r && regionOf (b - 1) == some r && (b - a ≤ 0x2000000000)

/-- R352: the check of a firewall region's EN. -/
def regionCheck (s : State) (r : Nat) : Nat :=
  let (a, b) := rgnRange s r
  if b ≤ a || !inMarked a b then 0x48
  else if (upto 64).any fun i => i != r && rdB s (rMemRgnCtl i) 31 &&
    (rgnRange s i).1 < b && a < (rgnRange s i).2 then 0x47 else 0

/-- The byte range of window w. -/
def winRange (s : State) (w : Nat) : Nat × Nat :=
  let b := 0x10000 * rdF s (rMemWinBase w) 23 0
  (b, b + 0x10000 * rdF s (rMemWinSize w) 23 0)

/-- R354: the check of a window's EN. -/
def windowCheck (s : State) (w : Nat) : Nat :=
  let (a, b) := winRange s w
  let chip := rdF s (rMemWinCtl w) 5 0
  let inside := b ≤ 0x2000000000 || (0x2000000000 ≤ a && b ≤ 0x2005000000) || (0x2100000000 ≤ a && b ≤ 0x2100800000)
  if chip = ownChip s || b ≤ a || !inside then 0x4B
  else if (upto 32).any fun i => i != w && rdB s (rMemWinCtl i) 31 && rdF s (rMemWinCtl i) 5 0 == chip &&
    (winRange s i).1 < b && a < (winRange s i).2 then 0x4A else 0

/-! ### Enable, training, disable (R334, R335, R538) -/

/-- MEM_TRAIN_STATUS.STATE changes. -/
def setTrain (s : State) (v : Nat) : State := wrF s rMemTrainStatus 31 30 v

/-- The lines of the highest 384 KiB below MEM_CAP lose their contents.
Assumption log: 42 (DESIGN CHOICE). -/
def trashTop (s : State) : State :=
  let hi := memCap s / 64
  { s with mem := { s.mem with dram := mclear (hi - 6144) hi s.mem.dram } }

/-- R334: an enable that has passed: MEM_CAP, and fallback training begins.
Assumption log: 42 (DESIGN CHOICE). -/
def memOn (s : State) : State :=
  let s := wrF s rMemCap 16 0 ((cfgMib s).getD 0)
  setTrain s 1

/-- R335: a write of MEM_TRAIN_CTL.FULL := 1.
Assumption log: 42 (DESIGN CHOICE). -/
def fullTrain (s : State) : State :=
  if trainState s ≠ 2 then s
  else setTrain (wrB (wrB s rMemTrainCtl 0 true) rMemTrainStatus 29 false) 1

/-- R538: the controller is disabled. -/
def memOff (s : State) : State :=
  let s := wrB s rMemCtl 0 false
  let s := if trainState s = 1 then trashTop s else s
  let s := wrF (wrB s rMemTrainCtl 0 false) rMemCap 16 0 0
  wrF (setTrain s 0) rMemTrainStatus 10 8 0

/-- FALLBACK_TRAINING: a write of MEM_CTL.ENABLE := 1 on a disabled controller: the check, then training.
Assumption log: 14 (DEDUCED). -/
def memTry (s : State) : State :=
  let code := memCheck s
  let s := wrF s rMemStatus 15 8 code
  if code = 0 then memOn (wrB s rMemCtl 0 true) else s

/-- FALLBACK_TRAINING: MEM_CTL.ENABLE := 1.
Assumption log: 14 (DEDUCED). -/
def execFallbackTraining (s : State) : Out :=
  .next (busWrite s rMemCtl 1 fun s => if rdB s rMemCtl 0 then s else memTry s)

/-- FALLBACK_TRAINING_DONE: `fail` is the failing step (1 to 9) and subchannel, if any.
Assumption log: 8 (DESIGN CHOICE). -/
def execFallbackTrainingDone (fail : Option (Nat × Nat)) (s : State) : Out :=
  if trainState s ≠ 1 || rdB s rMemTrainCtl 0 then .next s
  else
    let s := trashTop s
    match fail with
    | none => .next (wrF (wrF (wrF (setTrain s 2) rMemTrainStatus 10 8 0) rMemTrainStatus 23 20 0) rMemTrainStatus 18 16 0)
    | some (st, sub) =>
      let s := wrF (wrF (setTrain s 0) rMemTrainStatus 23 20 st) rMemTrainStatus 18 16 sub
      .next (logMsg s 8 0x41 (leBytes 1 st ++ leBytes 1 sub))

/-- FULL_TRAINING: MEM_TRAIN_CTL.FULL := 1. -/
def execFullTraining (s : State) : Out :=
  .next (busWrite s rMemTrainCtl 1 fullTrain)

/-- R335, R466: the rate after full training: the target, or 6,400 MT/s in Neap where the target is higher. -/
def fullRate (s : State) : Nat :=
  let t := rdF s rMemDdrCfg 10 8
  if rdF s rPwrStatus 1 0 = 2 ∧ 2 < t then 2 else t

/-- R500: as full training ends, boot firmware writes FW_STATE 3. -/
def fullEnd (s : State) : State := if fwState s = 2 then setFwState s 3 else s

/-- FULL_TRAINING_DONE. -/
def execFullTrainingDone (fail : Option (Nat × Nat)) (s : State) : Out :=
  if trainState s ≠ 1 || !rdB s rMemTrainCtl 0 then .next s
  else
    let s := wrB (trashTop s) rMemTrainCtl 0 false
    match fail with
    | none => .next (fullEnd (wrF (wrF (wrF (setTrain s 3) rMemTrainStatus 10 8 (fullRate s)) rMemTrainStatus 23 20 0)
        rMemTrainStatus 18 16 0))
    | some (st, sub) =>
      let s := wrB (wrF (wrF (setTrain s 2) rMemTrainStatus 23 20 st) rMemTrainStatus 18 16 sub) rMemTrainStatus 29 true
      .next (fullEnd (logMsg (wrF s rMemTrainStatus 10 8 0) 8 0x41 (leBytes 1 st ++ leBytes 1 sub)))

/-- MEM_DISABLE: MEM_CTL.ENABLE := 0. -/
def execMemDisable (s : State) : Out :=
  .next (busWrite s rMemCtl 0 fun s => if rdB s rMemCtl 0 then memOff s else s)

/-! ### Maintenance (R332, R335, R348) -/

/-- DRAM_REFRESH of a bank: visible to agents as latency only (R332). -/
def execDramRefresh (_sub _bank : Nat) (s : State) : Out := .next s

/-- DQS_OSCILLATOR_RUN on a subchannel: requests are held, never refused (R335). -/
def execDqsOscillatorRun (_sub : Nat) (s : State) : Out := .next s

/-- DDR_RATE_SWITCH to a trained rate: RATE of MEM_TRAIN_STATUS; the target rate gives STATE 3 and 4,800 MT/s gives STATE 2
only after fallback training, so a switch between trained rates changes no STATE. -/
def execDdrRateSwitch (rate : Nat) (s : State) : Out :=
  if trainState s = 3 then .next (wrF s rMemTrainStatus 10 8 rate) else .next s

/-- The lines of each subchannel (R331). -/
def subLines (s : State) : Nat := memCap s / 384

/-- R348: the patrol scrubber has read one more line of a subchannel; when every subchannel has covered all of its lines, the pass
ends and the next begins at line 0. -/
def patrolStep (s : State) (sub : Nat) : State :=
  let p := s.mem.patrol.modify sub (· + 1)
  if p.all fun i => subLines s ≤ i then
    incr (wrF { s with mem := { s.mem with patrol := List.replicate 6 0 } } rMemScrubCtl 19 16 ((scrubEpoch s + 1) % 16))
      rMemScrubPassCnt
  else { s with mem := { s.mem with patrol := p } }

/-! ### DRAM_READ and DRAM_WRITE -/

/-- The symbol errors of codeword h as 40 symbols, from a list over both codewords (symbol 40h + i, value). -/
def errOf (ups : List (Nat × Nat)) (h : Nat) : List Nat :=
  ups.foldl (fun e x => if x.1 / 40 = h then symXor e (x.1 % 40) (x.2 % 256) else e) (List.replicate 40 0)

/-- The tag bytes 2h and 2h + 1 of a line (Table 12.5). -/
def tagWord (t : LineTag) : Nat :=
  t.epoch % 16 * 2 ^ 21 + t.fmt % 16 * 2 ^ 17 + b2n t.poisB * 2 ^ 16 + b2n t.lost * 2 ^ 13 + t.job % 4096 * 2 + b2n t.poisA

/-- A tag from its 32 bits. -/
def tagOf (w : Nat) : LineTag := ⟨bitN w 0, bitN w 16, bitN w 13, bitsN w 1 12, bitsN w 17 4, bitsN w 21 4⟩

/-- A line as it is delivered with residual symbol errors.
Assumption log: 5 (DESIGN CHOICE). -/
def lineErr (v : DLine) (e0 e1 : List Nat) : DLine :=
  let d := (e0.take 32 ++ e1.take 32)
  let t := tagWord v.tag
  let tx := e0.getD 32 0 + 256 * e0.getD 33 0 + 65536 * e1.getD 32 0 + 16777216 * e1.getD 33 0
  ⟨List.zipWith (fun (b : Byte) x => b ^^^ BitVec.ofNat 8 x) v.data d, tagOf (t.xor tx)⟩

/-- R341: a read of line l in which symbols are received in error. A corrected line is written back with the EPOCH. The symbols
corrected in one codeword are counted, and their devices named, though the other is uncorrectable.
Assumption log: 38 (DESIGN CHOICE). -/
def lineReadErr (s : State) (l : Nat) (ups : List (Nat × Nat)) : (List Byte × Bool) × State :=
  match lineGet s l with
  | (none, s) => ((List.replicate 64 0, true), s)
  | (some v, s) =>
    match decodeWord (errOf ups 0), decodeWord (errOf ups 1) with
    | some (e0, l0), some (e1, l1) =>
      let v' := lineErr v e0 e1
      let syms := l0 ++ l1
      let s := lineCe s l syms
      let s := if syms.isEmpty then s else linePut s l { v' with tag := { v'.tag with epoch := scrubEpoch s } }
      ((v'.data, linePois v'), s)
    | r0, r1 =>
      let (w, s) := freeN s
      let tag := match r0, r1 with
        | some (e0, _), _ => (lineErr v e0 (List.replicate 40 0)).tag
        | _, some (e1, _) => (lineErr v (List.replicate 40 0) e1).tag
        | _, _ => v.tag
      let syms := ((r0.map fun x => x.2).getD []) ++ ((r1.map fun x => x.2).getD [])
      ((List.replicate 64 0, true), lineUe (lineCe s l syms) l tag r0.isSome r1.isSome (bitsN w 0 5 ||| symDevices syms))

/-- What a read delivered (for the agent that made it). -/
def deliver (s : State) (bs : List Byte) (ps : List Bool) : State := { s with mem := { s.mem with out := List.zip bs ps } }

/-- DRAM_READ of line l, with injected symbol errors (symbol of codeword 0 at 0 to 39, of codeword 1 at 40 to 79).
Assumption log: 5 (DESIGN CHOICE). -/
def execDramRead (l : Nat) (ups : List (Nat × Nat)) (s : State) : Out :=
  if !dramOn s || memCap s ≤ 64 * l then .next s
  else
    let ((bs, p), s) := lineReadErr s l ups
    .next (deliver s bs (List.replicate 64 p))

/-- DRAM_WRITE of bytes within one line, with the poison flag of each byte's word, by an agent for a job, with the format it
names if it names one. -/
def execDramWrite (a : Nat) (bs : List Byte) (ps : List Bool) (agent job : Nat) (fmt : Option Nat) (s : State) : Out :=
  if !dramOn s || memCap s ≤ a || 64 < a % 64 + bs.length || bs.isEmpty then .next s
  else .next (lineWrite s ⟨8, agent, job, fmt, none⟩ a bs ps)

/-- PATROL_SCRUB of a subchannel: its next line, in increasing order l, read as by any read, with injected symbol errors in its
two codewords. A subchannel that has covered its lines waits for the others.
Assumption log: 5 (DESIGN CHOICE). -/
def execPatrolScrub (sub : Nat) (upsA upsB : List (Nat × Nat)) (s : State) : Out :=
  let sub := sub % 6
  let l := s.mem.patrol.getD sub 0
  if !dramOn s || rdF s rMemScrubCtl 15 0 = 0 || subLines s ≤ l then .next s
  else .next (patrolStep (lineReadErr s (6 * l + sub) (upsA ++ upsB.map fun x => (40 + x.1, x.2))).2 sub)

/-! ### Poison scan (R347) -/

/-- The scannable region that holds a whole range, if one does. -/
def scannable (a n : Nat) : Bool :=
  let b := a + 32 * n
  b ≤ 0x2000000000 || (0x2000000000 ≤ a && b ≤ 0x2005000000) || (0x2100000000 ≤ a && b ≤ 0x2100800000) ||
    (0x2300000000 ≤ a && b ≤ 0x2300100000)

/-- The base of the scan. -/
def pscanBase (s : State) : Nat := 2 ^ 32 * rdF s rMemPscanBaseHi 7 0 + rdF s rMemPscanBaseLo 31 5 * 32

/-- R347: a write of MEM_PSCAN_CTL.START := 1. -/
def pscanStart (s : State) : State :=
  if rdB s rMemPscanCtl 31 then s
  else
    let s := wr s rMemPscanPcount 0
    if scannable (pscanBase s) (rd s rMemPscanLen).toNat then wr s rMemPscanCtl 0x80000000 else wr s rMemPscanCtl 2

/-- One word of a scan: whether it counts. -/
def pscanWord (s : State) (a : Nat) : Bool × State :=
  if a < 0x2000000000 then
    let w : Who := ⟨8, 8, 0, none, none⟩
    let code := if rdB s rMemCtl 0 && memCap s ≤ a then 0x44 else if !dramOn s then 0x4E else 0
    if code ≠ 0 then (true, refuse s w code (glob s a))
    else
      let ((_, p), s) := lineRead s (a / 64)
      (p, s)
  else
    let ((_, p), s) := wordRead s (a / 32)
    (p, s)

/-- The words of a scan from `a`: how many count, and the first. -/
def pscanGo (s : State) (a : Nat) (cnt : Nat) (first : Option Nat) : Nat → (Nat × Option Nat) × State
  | 0 => ((cnt, first), s)
  | n + 1 =>
    let (p, s) := pscanWord s a
    pscanGo s (a + 32) (if p then cnt + 1 else cnt) (if p && first.isNone then some a else first) n

/-- PSCAN_START: MEM_PSCAN_CTL.START := 1. -/
def execPscanStart (s : State) : Out :=
  .next (busWrite s rMemPscanCtl 1 pscanStart)

/-- R345: the poison scan ends. -/
def pscanEnd (s : State) : State :=
  if !rdB s rMemPscanCtl 31 then s
  else
    let got := pscanGo s (pscanBase s) 0 none (rd s rMemPscanLen).toNat
    let s := wr (wr got.2 rMemPscanPcount (BitVec.ofNat 32 got.1.1)) rMemPscanCtl 0
    match got.1.2 with
    | some a => wr64 s rMemPscanFirstLo rMemPscanFirstHi a
    | none => s

/-- PSCAN_DONE: the running scan ends.
Assumption log: 8 (DESIGN CHOICE). -/
def execPscanDone (s : State) : Out := .next (pscanEnd s)

/-! ### Firewall and windows (R353, R355) -/

/-- FW_ENFORCE: MEM_FW_CTL.ENFORCE := 1.
Assumption log: 50 (DEDUCED). -/
def execFwEnforce (s : State) : Out :=
  .next (busWrite s rMemFwCtl 1 fun s => wrB s rMemFwCtl 0 true)

/-- R353: LOCK := 1 on an enabled region; a write to a locked one is dropped. -/
def rgnLock (s : State) (r : Nat) : State :=
  if rdB s (rMemRgnCtl r) 30 then cfgDrop s 0x48
  else if rdB s (rMemRgnCtl r) 31 then wrB s (rMemRgnCtl r) 30 true else s

/-- REGION_LOCK: a write of LOCK := 1 to region r. -/
def execRegionLock (r : Nat) (s : State) : Out :=
  .next (busWrite s (rMemRgnCtl (r % 64)) (setBit (rd s (rMemRgnCtl (r % 64))) 30 true) fun s => rgnLock s (r % 64))

/-- R355: BUSY of window w: whether an operation that passed it before it was last closed is still in flight. -/
def winBusy (s : State) (w : Nat) : Bool :=
  let old (era : Nat) : Bool := !rdB s (rMemWinCtl w) 31 || era < winEra s w
  let held (y : XOp) : Bool := match y.pass with
    | some p => p.1 == w && old p.2
    | none => false
  (s.lk.ops.any fun o => o.win == w && old o.era) || ((upto 8).any fun k => (clu s k).ops.any held) ||
    s.dma.any fun d => d.ops.any held

/-- WINDOW_CLOSE: EN := 0 of window w. -/
def execWindowClose (w : Nat) (s : State) : Out :=
  .next (busWrite s (rMemWinCtl (w % 32)) (setBit (rd s (rMemWinCtl (w % 32))) 31 false) fun s => winShut s (w % 32))

end Sys2Proof.Machine
end

