-- ==== Sys2Proof/Machine/Root.lean ====
section
/-! DEFINITION. The root core's services (16 section 4.1, 18): boot flash and its partition table, the image check, load
tables, and the health journal. -/

namespace Sys2Proof.Machine
open Sys2Proof

/-- Changing the root core's state. -/
def updRoot (s : State) (f : Root → Root) : State := { s with root := f s.root }

/-- The chip's SERIAL.
Assumption log: 48 (DESIGN CHOICE). -/
def serial (s : State) : Nat := rd64 s rDdlSerialLo rDdlSerialHi

/-! ### Flash (R484) -/

/-- n bytes of a flash (false NOR, true eMMC) from an offset. -/
def flashGet (s : State) (dev : Bool) (a n : Nat) : List Byte :=
  mgetRun (Config.flashByte dev) (if dev then s.root.emmc else s.root.nor) a n

/-- Writing bytes of a flash. -/
def flashPut (s : State) (dev : Bool) (a : Nat) (bs : List Byte) : State :=
  updRoot s fun r =>
    if dev then { r with emmc := mputRun (Config.flashByte true) a bs r.emmc }
    else { r with nor := mputRun (Config.flashByte false) a bs r.nor }

/-- One bit of the reflected CRC-32 of R418. -/
def crc32Bits : Nat → Nat → Nat
  | 0, r => r
  | n + 1, r => crc32Bits n (if r % 2 = 1 then (r / 2).xor 0xEDB88320 else r / 2)

/-- R418: CRC-32 of a byte string. -/
def crc32 (bs : List Byte) : Nat :=
  (bs.foldl (fun r b => crc32Bits 8 (r.xor b.toNat)) 0xFFFFFFFF).xor 0xFFFFFFFF

/-- R484: the partition table in force: the first good copy. -/
def partTable (s : State) (dev : Bool) : Option (List Byte) :=
  ([0, 4096].map fun o => flashGet s dev o 4096).find? fun t =>
    leAt t 0 4 == 0x54504B5A && crc32 (t.take 4092) == leAt t 4092 4

/-- The entries of a partition table from byte `o`, over at most n of them. -/
def partWalk (t : List Byte) (o typ : Nat) : Nat → Option (Nat × Nat)
  | 0 => none
  | n + 1 =>
    if leAt t o 4 = 0 then none
    else if leAt t o 4 = typ then some (leAt t (o + 4) 4 * 4096, leAt t (o + 8) 4 * 4096)
    else partWalk t (o + 16) typ n

/-- Offset and size in bytes of the partition of a TYPE. -/
def partOf (s : State) (dev : Bool) (typ : Nat) : Option (Nat × Nat) :=
  match partTable s dev with
  | some t => partWalk t 16 typ 254
  | none => none

/-- Table 18.1: the sources of an ORDER: 0 N, 1 E, 2 H, 3 L, 4 T. -/
def orderOf : Nat → List Nat
  | 0 => [0, 1, 2]
  | 1 => [1, 0, 2]
  | 2 => [0, 2]
  | 3 => [2]
  | 4 => [3, 2]
  | 5 => [0, 3, 2]
  | 6 => [4, 2]
  | _ => [0, 1, 3, 4, 2]

/-- The order that the last boot used. -/
def bootOrder (s : State) : List Nat := orderOf (rdF s rBootOrder 10 8)

/-- The flash source that boot used, or the first one of the order (R505). -/
def flashSrc (s : State) : Option Bool :=
  match s.root.flash with
  | some f => some f.1
  | none => ((bootOrder s).find? fun x => x < 2).map fun x => x == 1

/-! ### The image check (R488 to R490) -/

/-- R490: the check of an object of `total` bytes whose covered bytes and signature block are given, for a loader that expects
the classes `want`; 0 where it passes.
Assumption log: 47 (DESIGN CHOICE). -/
def imageCheck (s : State) (sig covered : List Byte) (total : Nat) (want : List Nat) : Nat :=
  let cls := leAt sig 4 1
  let slot := leAt sig 5 1
  let sl := leAt sig 6 2
  let bind := leAt sig 0x18 8
  let pub := slice sig 0x60 1793
  let dig := Config.keyDigest slot
  if leAt sig 0 4 ≠ 0x47534B5A ∨ 5 < cls ∨ 3 < slot ∨ sl = 0 ∨ 1280 < sl ∨ leAt sig 0xC 4 ≠ 0 ∨ leAt sig 0x761 31 ≠ 0 ∨
      leAt sig 0x10 8 + 3200 ≠ total then 0x89
  else if dig.all (· == 0) || dig != (Config.shake pub).take 32 || !bitN (Config.keyPerm slot) cls || !want.contains cls ||
      (bind != 0 && bind != serial s) then 0x8C
  else if bitN s.root.revoke slot then 0x88
  else if !Config.falconVerify pub (sig.take 0x60) (slice sig 0x780 sl) || Config.shake covered != slice sig 0x20 64 then 0x8A
  else if cls < 4 ∧ leAt sig 8 4 < s.root.rb.getD cls 0 then 0x8B
  else 0

/-- R498: the two checks that are repeated when an object is put to use. -/
def useCheck (s : State) (o : Obj) : Nat :=
  if bitN s.root.revoke o.slot then 0x88
  else if o.cls < 4 ∧ o.version < s.root.rb.getD o.cls 0 then 0x8B
  else 0

/-- An entry of a load table: DEST, SIZE, SRC and DST (R491). -/
structure LoadEnt where
  dest : Nat
  size : Nat
  src : Nat
  dst : Nat
  deriving DecidableEq, Repr

/-- R491: the load table of an image of class 0 to 2; none where it fails. -/
def loadTable (img : List Byte) (cls len : Nat) : Option (List LoadEnt) :=
  let n := leAt img 4 4
  let es := (upto (min n 8)).map fun i =>
    (⟨leAt img (16 + 24 * i) 4, leAt img (20 + 24 * i) 4, leAt img (24 + 24 * i) 8, leAt img (32 + 24 * i) 8⟩ : LoadEnt)
  let ok (e : LoadEnt) := e.src + e.size ≤ len && match e.dest with
    | 0 => cls == 0 && e.dst + e.size ≤ 0x18000
    | 1 => cls ≤ 1 && e.dst + e.size ≤ 0x60000
    | 2 => cls == 0 && 0x2100000000 ≤ e.dst && e.dst + e.size ≤ 0x2100400000
    | 3 => cls == 1 || cls == 2
    | _ => false
  let clash := (upto es.length).any fun i => (upto i).any fun j =>
    match es[i]?, es[j]? with
    | some a, some b => a.dest == b.dest && a.dst < b.dst + b.size && b.dst < a.dst + a.size
    | _, _ => false
  if leAt img 0 4 = 0x4D494B5A ∧ 1 ≤ n ∧ n ≤ 8 ∧ es.all ok ∧ !clash then some es else none

/-- R491: the entries of DEST 0 to 2 of a checked image are copied: into root SRAM, into a control bank, or into media SRAM. -/
def loadCopy (s : State) (img : List Byte) (bank : Nat) (es : List LoadEnt) : State :=
  foldS (fun s e =>
    let bs := slice img e.src e.size
    match e.dest with
    | 0 => updRoot s fun r => { r with sram := mputRun byte0 e.dst bs r.sram }
    | 1 => ramPut s (0x2300000000 + 0x60000 * bank + e.dst) bs
    | 2 => sramWrite s (runWrites e.dst bs (List.replicate bs.length false))
    | _ => s) es s

/-! ### The journal (R449, R450) -/

/-- The flash offset of the journal partition, on the flash that boot uses. -/
def journalAt (s : State) : Option (Bool × Nat) :=
  match flashSrc s with
  | some d => (partOf s d 3).map fun p => (d, p.1)
  | none => none

/-- Table 16.5: the header of a segment opened now. -/
def segHeader (s : State) : List Byte :=
  leBytes 4 0x4A484B5A ++ leBytes 4 s.root.jsegSeq ++ leBytes 4 s.root.pcycle ++ leBytes 4 0 ++
    leBytes 4 (rd s rRasRetireCores).toNat ++ leBytes 1 (rd s rRasRetireCstore).toNat ++ leBytes 1 (rd s rRasRetirePipe).toNat ++
    s.root.lanes.map (BitVec.ofNat 8) ++ leBytes 8 ((s.root.devs.zipIdx.map fun x => x.1 % 4 * 4 ^ x.2).foldl (· + ·) 0) ++
    List.replicate 28 0

/-- A segment is opened at ring index `i`: its 64 KiB are erased and its header is written. -/
def segOpen (s : State) (i : Nat) : State :=
  let s := updRoot s fun r => { r with jseg := i % 16, jcnt := 0, jsegSeq := r.jsegSeq + 1, sealed := false }
  match journalAt s with
  | some (d, a) => flashPut (flashPut s d (a + 65536 * (i % 16)) (List.replicate 65536 0xFF)) d (a + 65536 * (i % 16)) (segHeader s)
  | none => s

/-- R450, R502: the open segment is sealed with the identity key.
Assumption log: 47 (DESIGN CHOICE). -/
def segSeal (s : State) : State :=
  match journalAt s, s.root.seed with
  | some (d, a), some seed =>
    let base := a + 65536 * s.root.jseg
    let sig := Config.falconSign seed (flashGet s d base 64 ++ s.root.chain)
    let area := leBytes 2 sig.length ++ List.replicate 6 0 ++ sig
    flashPut (updRoot s fun r => { r with sealed := true }) d (base + 64064) ((area ++ List.replicate 1472 0).take 1472)
  | _, _ => s

/-- Whether the identity key can be used (R487, R502). -/
def idUsable (s : State) : Bool := s.root.idKey && !rdB s rSecLock 2

/-- The root core writes one record (48 bytes and its CHAIN); the segment is opened first if the last one is sealed or full. On
the recovery path the record stays unsealed, which is logged. -/
def journalPut (s : State) (body : List Byte) : State :=
  let s := if s.root.sealed || s.root.jsegSeq == 0 || 1000 ≤ s.root.jcnt then
      segOpen s (if s.root.jsegSeq = 0 then 0 else s.root.jseg + 1) else s
  let b := leBytes 4 s.root.jseq ++ body.drop 4
  let chain := (Config.shake (s.root.chain ++ b)).take 16
  let s := match journalAt s with
    | some (d, a) => flashPut s d (a + 65536 * s.root.jseg + 64 + 64 * s.root.jcnt) (b ++ chain)
    | none => s
  let s := updRoot s fun r => { r with jcnt := r.jcnt + 1, jseq := r.jseq + 1, chain := chain }
  if idUsable s then s else logMsg s 0xE 0x9A (leBytes 4 s.root.jseg)

end Sys2Proof.Machine
end

