-- ==== Sys2Proof/Machine/Objects.lean ====
section
/-! DEFINITION. The object commands and the boot and security commands of the mailbox (14 section 4, 18 sections 4, 5, 8 and
9). -/

namespace Sys2Proof.Machine
open Sys2Proof

/-- The object of a handle. -/
def objOf (s : State) (h : Nat) : Option Obj := s.fw.objs.find? fun o => o.handle == h

/-- Changing the object of a handle. -/
def updObj (s : State) (h : Nat) (f : Obj → Obj) : State :=
  { s with fw := { s.fw with objs := s.fw.objs.map fun o => if o.handle = h then f o else o } }

/-- Whether the monitors of R461 and R501 run, which stage objects in media SRAM. -/
def monitorRuns (s : State) : Bool := fwState s == 5 || (s.root.held && s.root.lockCnt ≠ 0)

/-- Whether firmware can keep an object at [a, a + n): in DRAM, or in media SRAM, 64 KiB aligned, and away from the other
objects. The monitors stage in media SRAM alone.
Assumption log: 29 (DESIGN CHOICE). -/
def objFits (s : State) (a n : Nat) : Bool :=
  a % 65536 == 0 && ((!monitorRuns s && a + n ≤ memCap s) || (0x2100000000 ≤ a && a + n ≤ 0x2100800000)) &&
    !(s.fw.objs.any fun o => a < o.base + o.total && o.base < a + n)

/-- R389: OBJ_OPEN: at most 16 objects are held. -/
def objOpen (s : State) (base : Nat) (q : Rq) (e : List Byte) : State :=
  let kind := arg e 0 1
  let total := arg e 4 4
  if 1 < kind then respond s q 0x05 []
  else if 16 ≤ s.fw.objs.length ∨ !objFits s base total then respond s q 0xA1 []
  else
    let h := s.fw.nextHandle
    let s := { s with fw := { s.fw with objs := s.fw.objs ++ [{ handle := h, kind := kind, total := total, base := base }],
                                        nextHandle := if h = 0xFFFF then 1 else h + 1 } }
    respond s q 0 (leBytes 2 h)

/-- OBJ_OPEN on pair r; `base` is where firmware keeps the object, which the spec leaves to it.
Assumption log: 29 (DESIGN CHOICE). -/
def execObjOpen (r base : Nat) (s : State) : Out := .next (onReq s r 0x10 fun s q e => objOpen s base q e)

/-- A range added to the ranges written. -/
def addRange (l : List (Nat × Nat)) (a n : Nat) : List (Nat × Nat) := l ++ [(a, a + n)]

/-- Whether the ranges cover [a, t), over at most n of them. -/
def covers (l : List (Nat × Nat)) (a t : Nat) : Nat → Bool
  | 0 => t ≤ a
  | n + 1 =>
    if t ≤ a then true
    else match l.find? fun x => x.1 ≤ a && a < x.2 with
      | some x => covers l x.2 t n
      | none => false

/-- R389: OBJ_WRITE copies a chunk with the chip DMA. -/
def objWrite (s : State) (q : Rq) (e : List Byte) : State :=
  let off := arg e 4 4
  let len := arg e 16 4
  match objOf s (arg e 0 2) with
  | none => respond s q 0xAF []
  | some o =>
    if o.closed ∨ o.total < off + len then respond s q 0xAF []
    else if len = 0 ∨ 28672 < len then respond s q 0x05 []
    else
      let (g, s) := fabReads s whoFwDma (ptrAddr q.pair (arg e 8 8)) len
      let (code, s) := if g.code ≠ 0 then (g.code, s) else fabWrites s whoFwDma (o.base + off) g.data g.pois
      if code ≠ 0 then respond s q code []
      else respond (updObj s o.handle fun o => { o with wr := addRange o.wr off len }) q 0 []

/-- OBJ_WRITE on pair r. -/
def execObjWrite (r : Nat) (s : State) : Out := .next (onReq s r 0x11 objWrite)

/-- The classes that the loader expects (R461, R500, R501, R497, R504). -/
def wantClasses (s : State) : List Nat :=
  if fwState s = 5 then [0] else if monitorRuns s then [1] else [0, 1, 2, 4, 5]

/-- R494: the hashes of an object's 64 KiB blocks.
Assumption log: 47 (DESIGN CHOICE). -/
def blockHashes (bs : List Byte) : List (List Byte) :=
  (upto (cdiv bs.length 65536)).map fun b => (Config.shake (slice bs (65536 * b) 65536)).take 32

/-- R494: the blocks that are pinned.
Assumption log: 74 (DEDUCED). -/
def pinnedBlocks (s : State) : Nat :=
  s.fw.objs.foldl (fun n o => if o.region.isSome then n + cdiv o.total 65536 else n) 0

/-- R494: an object in DRAM is pinned: the lowest firewall region that is free takes it. The code of a refusal, or 0.
Assumption log: 74 (DEDUCED). -/
def objPin (s : State) (o : Obj) (bs : List Byte) : Nat × State :=
  if 0x2000000000 ≤ o.base then (0, s)
  else
    let n := cdiv o.total 65536
    match (upto 64).find? fun r => !rdB s (rMemRgnCtl r) 31 && !rdB s (rMemRgnCtl r) 30 with
    | none => (0xA1, s)
    | some r =>
      let t := wr (wr (wr (wr s (rMemRgnCtl r) 0) (rMemRgnBase r) (BitVec.ofNat 32 (o.base / 65536))) (rMemRgnSize r)
        (BitVec.ofNat 32 n)) (rMemRgnMask r) 0x8100
      if 4096 < pinnedBlocks s + n ∨ regionCheck t r ≠ 0 then (0xA1, s)
      else
        let t := wrB t (rMemRgnCtl r) 31 true
        let t := updObj t o.handle fun o => { o with hashes := blockHashes bs, verified := [], region := some r }
        (0, wrF t rSecVpBlocks 12 0 (pinnedBlocks t))

/-- OBJ_CLOSE of a FW object whose bytes have been read by the root core. -/
def fwClose (s : State) (q : Rq) (o : Obj) (bs : List Byte) : State :=
  let len := o.total - 3200
  let sig := bs.drop len
  let cls := leAt sig 4 1
  let code := if o.total < 3200 then 0x89 else imageCheck s sig (bs.take len) o.total (wantClasses s)
  let code := if code ≠ 0 then code
    else if cls ≤ 2 ∧ (loadTable (bs.take len) cls len).isNone then 0x89
    else if 3 < cls ∧ len ≠ 64 then 0x89 else 0
  if code ≠ 0 then respond s q code []
  else
    let up (o : Obj) : Obj :=
      { o with closed := true, cls := cls, slot := leAt sig 5 1, version := leAt sig 8 4, digest := slice sig 0x20 64,
               bind := leAt sig 0x18 8, body := if 3 < cls then bs.take 64 else [] }
    let (pin, s) := if cls = 1 ∨ cls = 2 then objPin s o bs else (0, s)
    if pin ≠ 0 then respond s q pin []
    else respond (updObj s o.handle up) q 0 (leBytes 2 o.handle)

/-- OBJ_CLOSE (R389, R494): every byte must have been written; a FW object is verified, and a payload is pinned. -/
def objClose (s : State) (q : Rq) (e : List Byte) : State :=
  match objOf s (arg e 0 2) with
  | none => respond s q 0xAF []
  | some o =>
    if o.closed ∨ !covers o.wr 0 o.total (o.wr.length + 1) then respond s q 0xAF []
    else
      let (g, s) := fabReads s whoRoot o.base o.total
      if g.code ≠ 0 then respond s q g.code []
      else if o.kind = 0 then fwClose s q o g.data
      else
        let (pin, s) := objPin s o g.data
        if pin ≠ 0 then respond s q pin []
        else respond (updObj s o.handle fun o => { o with closed := true, cls := 3 }) q 0 (leBytes 2 o.handle)

/-- OBJ_CLOSE on pair r. -/
def execObjClose (r : Nat) (s : State) : Out := .next (onReq s r 0x12 objClose)

/-- Whether a read of an object by the chip DMA is in flight. -/
def objReading (s : State) (o : Obj) : Bool :=
  s.dma.any fun d => d.ops.any fun y => y.src / 2 ^ 40 == ownChip s && o.base ≤ y.src % 2 ^ 40 && y.src % 2 ^ 40 < o.base + o.total

/-- The object that the next request of pair r frees. -/
def freeTarget (s : State) (r : Nat) : Option Obj :=
  match s.fw.taken.find? fun x => x.1 == r with
  | some x => objOf s (arg x.2 0 2)
  | none => none

/-- OBJ_FREE (R494): an object in use stays; a pinned one is unpinned. -/
def objFree (s : State) (q : Rq) (e : List Byte) : State :=
  match objOf s (arg e 0 2) with
  | none => respond s q 0xAF []
  | some o =>
    if o.inUse then respond s q 0xAF []
    else
      let s := match o.region with
        | some r => wr s (rMemRgnCtl r) 0
        | none => s
      let s := { s with fw := { s.fw with objs := s.fw.objs.filter fun p => p.handle != o.handle } }
      respond (wrF s rSecVpBlocks 12 0 (pinnedBlocks s)) q 0 []

/-- OBJ_FREE on pair r: it waits until the reads of a pinned object that are in flight are complete. -/
def execObjFree (r : Nat) (s : State) : Out :=
  match freeTarget s r with
  | some o => if o.region.isSome && objReading s o then .next s else .next (onReq s r 0x13 objFree)
  | none => .next (onReq s r 0x13 objFree)

/-! ### Flash, fuses, attestation, debug (R495 to R505) -/

/-- Whether an emergency is latched (R476). -/
def emergency (s : State) : Bool := rdF s rPwrEmerg 3 0 != 0

/-- FLASH_READ: part of a partition of the boot flash is written to the sender's memory by the root core. -/
def flashRead (s : State) (q : Rq) (e : List Byte) : State :=
  let off := arg e 4 4
  let len := arg e 16 4
  if len = 0 ∨ 28672 < len then respond s q 0x05 []
  else match flashSrc s with
    | none => respond s q 0xAF []
    | some d => match partOf s d (arg e 0 1) with
      | none => respond s q 0xAF []
      | some (a, n) =>
        if n < off + len then respond s q 0xAF []
        else
          let (code, s) := fabWrites s whoRoot (ptrAddr q.pair (arg e 8 8)) (flashGet s d (a + off) len) (List.replicate len false)
          respond s q code []

/-- FLASH_READ on pair r. -/
def execFlashRead (r : Nat) (s : State) : Out := .next (onReq s r 0x60 flashRead)

/-- ROLLBACK_ADVANCE (R495, R496, R499): RB_c rises to the VERSION of the class's image in use; it never falls.
Assumption log: 48 (DESIGN CHOICE). -/
def rollback (s : State) (q : Rq) (e : List Byte) : State :=
  let c := arg e 0 1
  if emergency s then respond s q 0x84 []
  else if fwState s ≠ 4 then respond s q 0x8C []
  else match s.root.inUse.getD c none with
    | none => respond s q 0x8C []
    | some i =>
      let v := max (s.root.rb.getD c 0) (min i.version 128)
      respond (updRoot s fun r => { r with rb := r.rb.set c v }) q 0 (leBytes 1 v)

/-- ROLLBACK_ADVANCE on pair r. -/
def execRollbackAdvance (r : Nat) (s : State) : Out := .next (onReq s r 0x61 rollback)

/-- Whether a slot's digest fuses are not all zero (R489).
Assumption log: 48 (DESIGN CHOICE). -/
def slotFilled (k : Nat) : Bool := (Config.keyDigest k).any (· != 0)

/-- KEY_REVOKE (R497, R499).
Assumption log: 48 (DESIGN CHOICE). -/
def keyRevoke (s : State) (q : Rq) (e : List Byte) : State :=
  match objOf s (arg e 0 2) with
  | none => respond s q 0xAF []
  | some o =>
    let t := leAt o.body 0 1
    let left := (upto 4).any fun k => k != t && slotFilled k && !bitN s.root.revoke k && bitN (Config.keyPerm k) 0
    if emergency s then respond s q 0x84 []
    else if !o.closed ∨ o.kind ≠ 0 ∨ o.cls ≠ 5 then respond s q 0xAF []
    else if useCheck s o ≠ 0 then respond s q (useCheck s o) []
    else if 3 < t ∨ (o.body.drop 1).any (· != 0) then respond s q 0x89 []
    else if o.slot = t ∨ !left then respond s q 0x8C []
    else
      let v := s.root.revoke ||| 2 ^ t
      respond (updRoot s fun r => { r with revoke := v }) q 0 (leBytes 1 v)

/-- KEY_REVOKE on pair r. -/
def execKeyRevoke (r : Nat) (s : State) : Out := .next (onReq s r 0x62 keyRevoke)

/-- The boot nonce (R504). -/
def bootNonce (s : State) : List Byte := (upto 8).flatMap fun w => leBytes 4 (rd s (rSecBootNonce w)).toNat

/-- Whether an image in use is signed by a slot that has been revoked since (R503). -/
def staleSlot (s : State) : Bool := s.root.inUse.any fun i => match i with
  | some i => bitN s.root.revoke i.slot
  | none => false

/-- Table 18.4: the attestation report over a nonce, with its signature.
Assumption log: 47 (DESIGN CHOICE). -/
def attestReport (s : State) (seed nonce : List Byte) : List Byte :=
  let img (c : Nat) : SImg := (s.root.inUse.getD c none).getD ⟨0, 0, List.replicate 64 0⟩
  let flags := b2n (rdB s rSecLock 4) + 2 * b2n (rdB s rMemFwCtl 0) + 4 * b2n s.root.jok + 8 * b2n (staleSlot s)
  let head (n : Nat) := leBytes 4 0x54414B5A ++ leBytes 2 1 ++ leBytes 2 n ++ leBytes 4 flags ++ leBytes 2 0x0096 ++
    leBytes 1 0xB1 ++ leBytes 1 (fwState s) ++ leBytes 8 (serial s) ++ leBytes 4 (shapeClass s).toNat ++
    s.root.rb.map (BitVec.ofNat 8) ++ leBytes 1 s.root.revoke ++
    leBytes 1 ((upto 4).foldl (fun v c => v + (img c).slot % 4 * 4 ^ c) 0) ++ List.replicate 6 0 ++ leBytes 8 (now s) ++ nonce ++
    (Config.shake (Config.falconPub seed)).take 32 ++ ((upto 4).flatMap fun c => (img c).digest.take 32) ++ s.root.chain ++
    leBytes 4 s.root.jsegSeq ++ ((upto 4).map fun c => BitVec.ofNat 8 (img c).version) ++ List.replicate 56 0
  let sig := Config.falconSign seed (head (Config.falconSign seed (head 0)).length)
  ((head (Config.falconSign seed (head 0)).length ++ sig) ++ List.replicate 1600 0).take 1600

/-- ATTEST (R503). -/
def attest (s : State) (q : Rq) (e : List Byte) : State :=
  if arg e 40 4 < 1600 then respond s q 0x05 []
  else match s.root.seed with
    | none => respond s q 0x8F []
    | some seed =>
      if !idUsable s then respond s q 0x8F []
      else
        let bs := attestReport s seed (slice e 16 32)
        let (code, s) := fabWrites s whoRoot (ptrAddr q.pair (arg e 32 8)) bs (List.replicate 1600 false)
        respond s q code (if code = 0 then leBytes 4 1600 else [])

/-- ATTEST on pair r. -/
def execAttest (r : Nat) (s : State) : Out := .next (onReq s r 0x63 attest)

/-- DEBUG_GRANT (R504). -/
def debugGrant (s : State) (q : Rq) (e : List Byte) : State :=
  match objOf s (arg e 0 2) with
  | none => respond s q (if fwState s = 5 then 0x8F else 0xAF) []
  | some o =>
    if fwState s = 5 then respond s q 0x8F []
    else if !o.closed ∨ o.kind ≠ 0 ∨ o.cls ≠ 4 then respond s q 0xAF []
    else if useCheck s o ≠ 0 then respond s q (useCheck s o) []
    else if o.bind ≠ serial s ∨ leAt o.body 0 4 ≠ 0x47444B5A ∨ (slice o.body 4 28).any (· != 0) ∨
        slice o.body 32 32 ≠ bootNonce s then respond s q 0x8C []
    else respond (wrB s rSecLock 4 true) q 0 []

/-- DEBUG_GRANT on pair r. -/
def execDebugGrant (r : Nat) (s : State) : Out := .next (onReq s r 0x64 debugGrant)

/-- DEBUG_SNAPSHOT (R460): a copy of the held snapshot of a killed job, from the snapshot buffer; BYTES is what was copied. -/
def debugSnapshot (s : State) (q : Rq) (e : List Byte) : State :=
  let len := arg e 16 4
  if !rdB s rRasSnapCtl 30 ∨ rdF s rRasSnapCtl 11 0 ≠ arg e 0 2 then respond s q 0xA3 []
  else
    let a := 2 ^ 32 * rdF s rRasSnapBaseHi 13 0 + 2 ^ 21 * rdF s rRasSnapBaseLo 31 21
    let (g, s) := fabReads s whoCp (a % 2 ^ 40) len
    let (code, s) := if g.code ≠ 0 then (g.code, s)
      else fabWrites s whoCp (ptrAddr q.pair (arg e 8 8)) g.data g.pois
    respond s q code (if code = 0 then leBytes 4 len else [])

/-- DEBUG_SNAPSHOT on pair r. -/
def execDebugSnapshot (r : Nat) (s : State) : Out := .next (onReq s r 0x50 debugSnapshot)

end Sys2Proof.Machine
end

