-- ==== Sys2Proof/Machine/Programs.lean ====
section
/-! DEFINITION. Loading a bundle as the engine's program (03 sections 8 and 9, 06 section 2, 07 section 2, 14 section 5). -/

namespace Sys2Proof.Machine
open Sys2Proof

/-- A section of a bundle: TYPE, KEY, OFFSET and SIZE (R115). -/
structure Sect where
  typ : Nat
  key : Nat
  off : Nat
  size : Nat
  deriving DecidableEq, Repr

/-- R494: bytes of an object as the chip DMA reads them: each pinned block is verified at its first touch. With the code of a
refused read, or 0.
Assumption log: 74 (DEDUCED). -/
def objGot (s : State) (o : Obj) (off n : Nat) : Got × State :=
  let (ok, s) := (upto (if n = 0 then 0 else (off + n - 1) / 65536 + 1 - off / 65536)).foldl
    (fun (a : Bool × State) i =>
      let (k, s) := firstTouch a.2 (o.base + 65536 * (off / 65536 + i))
      (a.1 && k, s)) (true, s)
  if !ok then (⟨List.replicate n 0, List.replicate n false, 0x8D⟩, s) else fabReads s whoFwDma (o.base + off) n

/-- The same without its poison. -/
def objBytes (s : State) (o : Obj) (off n : Nat) : (List Byte × Nat) × State :=
  let r := objGot s o off n
  ((r.1.data, r.1.code), r.2)

/-! ### The header, the section table and the variant index (R114 to R117) -/

/-- R115: the sections of a section table of n entries. -/
def sectsOf (t : List Byte) (n : Nat) : List Sect :=
  (upto n).map fun i => ⟨leAt t (32 * i) 4, leAt t (32 * i + 4) 4, leAt t (32 * i + 8) 8, leAt t (32 * i + 16) 8⟩

/-- Whether no two of the sections overlap. -/
def sectsApart : List Sect → Bool
  | [] => true
  | a :: l => (l.all fun b => a.off + a.size ≤ b.off || b.off + b.size ≤ a.off) && sectsApart l

/-- R114, R115, R121: whether header and section table are those of a bundle of `total` bytes. -/
def bundleForm (h t : List Byte) (n total : Nat) : Bool :=
  let ss := sectsOf t n
  leAt h 0 4 == 0x314E4243 && leAt h 4 2 == 1 && leAt h 0x10 8 == total && leAt h 0x20 32 == 0 && 1 ≤ n && n ≤ 4096 &&
    ((upto n).all fun i => leAt t (32 * i + 24) 8 == 0) &&
    (ss.all fun x => x.off % 64 == 0 && 64 + 32 * n ≤ x.off && x.off + x.size ≤ total) && sectsApart ss &&
    match ss.getLast? with
    | some x => x.typ == 0xF0 && x.size == 3200 && x.off + 3200 == total
    | none => false

/-- The section of a TYPE and KEY. -/
def sectOf (ss : List Sect) (typ key : Nat) : Option Sect := ss.find? fun x => x.typ == typ && x.key == key

/-- The bytes of a section; empty where there is none. -/
def sectBytes (s : State) (o : Obj) (ss : List Sect) (typ key : Nat) : List Byte × State :=
  match sectOf ss typ key with
  | some x =>
    let ((bs, _), s) := objBytes s o x.off x.size
    (bs, s)
  | none => ([], s)

/-- R117: the lowest variant whose CLASS is the shape class in force. -/
def pickVariant (ix : List Byte) (cls : Nat) : Option Nat :=
  (upto (ix.length / 64)).find? fun v => leAt ix (64 * v) 4 == cls

/-- R119: the records of a portable tie-point table, from its bytes, over at most n of them. -/
def ptRecs (bs : List Byte) : Nat → List PtRec
  | 0 => []
  | n + 1 =>
    if bs.length < 8 then []
    else
      let k := leAt bs 6 2
      let tens := (upto k).map fun i =>
        let o := 8 + 24 * i
        (⟨leAt bs o 4, leAt bs (o + 4) 8, leAt bs (o + 12) 4, leAt bs (o + 16) 1, leAt bs (o + 17) 1⟩ : Tensor)
      ⟨leAt bs 0 2, leAt bs 2 4 % 2 ^ 20, tens⟩ :: ptRecs (bs.drop (8 + 24 * k)) n

/-! ### The shape section (R207, R209, R229, R231) -/

/-- Word w of the edge entry of nest n of cluster k in a shape section (Table 6.4). -/
def shEdge (sh : List Byte) (k n w : Nat) : Nat := leAt sh (0x100 + 0x4000 * k + 0x40 * n + 4 * w) 4

/-- Word w of the window entry of nest n of cluster k in a shape section (R229). -/
def shWin (sh : List Byte) (k n w : Nat) : Nat := leAt sh (0x20100 + 0x2000 * k + 0x20 * n + 4 * w) 4

/-- EXT_MAX of argument j in a shape section (R207). -/
def shMax (sh : List Byte) (j : Nat) : Nat := leAt sh (16 * (j - 1) + 4) 4

/-- SRC and UNIT of dimension d of an edge entry. -/
def shSrc (sh : List Byte) (k n d : Nat) : Nat := if d = 0 then 0 else bitsN (shEdge sh k n (2 * d)) 28 4
/-- UNIT of dimension d of an edge entry. -/
def shUnit (sh : List Byte) (k n d : Nat) : Nat := if d = 0 then 0 else bitsN (shEdge sh k n (2 * d + 1)) 0 16

/-- R203: step of level i of a descriptor, by the shape section. -/
def shStep (sh : List Byte) (k n : Nat) (d : NestDesc) (i : Nat) : Nat :=
  let dim := (lvlAt d i).dim
  (upto i).foldl (fun a i' => if (lvlAt d i').dim = dim then a * (lvlAt d i').bound else a) (shUnit sh k n dim)

/-- R209: whether a reserved field of an edge entry is nonzero. -/
def edgeReserved (sh : List Byte) (k n : Nat) : Bool :=
  let w := shEdge sh k n
  bitN (w 0) 3 || bitN (w 0) 7 || bitN (w 0) 11 || bitN (w 0) 15 || 2 ^ 19 ≤ w 0 ||
    (upto 7).any fun i =>
      let d := i + 1
      bitsN (w (2 * d)) 24 4 != 0 || 2 ^ 16 ≤ w (2 * d + 1) || (shSrc sh k n d != 0xF && bitsN (w (2 * d)) 0 24 != 0)

/-- R209: whether level i of nest n breaks a condition. -/
def levelBad (sh : List Byte) (k n : Nat) (d : NestDesc) (i : Nat) : Bool :=
  let l := lvlAt d i
  let c := d.src.getD i 0
  let j := 1 ≤ c && c ≤ 14
  let top := !((upto d.levels).any fun i' => i < i' && (lvlAt d i').dim == l.dim)
  (j && (shMax sh c == 0 || l.dim == 0 || shSrc sh k n l.dim != c || l.bound != cdiv (shMax sh c) (shStep sh k n d i))) ||
    (shSrc sh k n l.dim != 0 && !top && c != 0) || (c == 0xF && shSrc sh k n l.dim != 0)

/-- R209: whether nest n of cluster k breaks a condition. -/
def nestBad (sh : List Byte) (k n : Nat) (d : NestDesc) : Bool :=
  ((upto d.levels).any fun i => levelBad sh k n d i) ||
    (upto 7).any fun i => shSrc sh k n (i + 1) != 0 && shUnit sh k n (i + 1) == 0

/-- R231: whether the window entry of nest n breaks a condition. The K-block is that of the pairs whose AFMT matches BLK. -/
def winBad (sh : List Byte) (k n : Nat) (d : NestDesc) : Bool :=
  let w := shWin sh k n
  let blk := bitsN (w 0) 4 2
  let kb := if blk = 2 then 128 else 64
  bitN (w 0) 31 &&
    (bitsN (w 0) 0 4 != 0 || bitsN (w 0) 24 4 == 0 || bitsN (w 0) 20 4 == 0 || bitsN (w 0) 16 4 == 0 ||
      bitsN (w 0) 12 4 == 0 || bitsN (w 1) 24 8 == 0 || bitsN (w 1) 16 8 == 0 || bitsN (w 2) 16 16 == 0 ||
      bitsN (w 2) 0 16 == 0 || blk == 3 || bitsN (w 3) 16 16 % kb != 0 || bitsN (w 3) 16 16 < bitsN (w 3) 0 16 ||
      (bitN (w 0) 30 && blk != 0) ||
      (upto d.levels).any fun i =>
        let m := (lvlAt d i).dim
        (m == 4 || m == 5 || m == 3 || m == 7) && shUnit sh k n m == 0)

/-- R209, R231: whether the shape section or the descriptor tables (by cluster) of a variant break a condition: every table of the
section, and every descriptor. -/
def shapeBad (sh : List Byte) (descs : List (Nat × List Byte)) : Bool :=
  ((upto 14).any fun j => leAt sh (16 * j + 12) 4 != 0) || leAt sh 0xE0 32 != 0 ||
    (upto 8).any fun k =>
      let ds := ((descs.find? fun x => x.1 == k).map fun x => x.2).getD []
      (upto 256).any fun n =>
        let d := descOf (leWords (slice ds (0xC0 * n) 0xC0))
        edgeReserved sh k n || nestBad sh k n d || winBad sh k n d

/-! ### Loading (R117, R222, R175) -/

/-- A section of a TYPE and KEY, with its poison; empty where there is none. -/
def sectGot (s : State) (o : Obj) (ss : List Sect) (typ key : Nat) : (List Byte × List Bool) × State :=
  match sectOf ss typ key with
  | some x =>
    let r := objGot s o x.off x.size
    ((r.1.data, r.1.pois), r.2)
  | none => (([], []), s)

/-- Writing into a bank clean bytes. -/
def bankClean (s : State) (a : Nat) (bs : List Byte) : State := bankStore s a bs (List.replicate bs.length false)

/-- R76, R112, R117: the banks of cluster k: the bank image, the descriptor table and the base table, each word with its poison, the
program record, and zeros in the reserved area. -/
def loadBank (s : State) (o : Obj) (ss : List Sect) (v k cls cnt : Nat) : State :=
  let (img, s) := sectGot s o ss 0x10 (8 * v + k)
  let (dsc, s) := sectGot s o ss 0x11 (8 * v + k)
  let (bas, s) := sectGot s o ss 0x12 (8 * v + k)
  let s := bankStore s (bankBase k) (img.1.take 0xF0000) (img.2.take 0xF0000)
  let s := bankStore s (bankBase k + 0xF0000) (dsc.1.take 0xC000) (dsc.2.take 0xC000)
  let s := bankStore s (bankBase k + 0xFC000) (bas.1.take 0x400) (bas.2.take 0x400)
  let s := bankClean s (bankBase k + 0xFC380) (leBytes 8 cls ++ leBytes 8 cnt ++ List.replicate 112 0)
  bankClean s (bankBase k + 0xFC400) (List.replicate 15360 0)

/-- The edge and window tables of cluster k (R209, R229). -/
def loadTables (s : State) (sh : List Byte) (k : Nat) : State :=
  foldS (fun s n =>
    let s := foldS (fun s w => wr s (rCluEdge k n w) (BitVec.ofNat 32 (shEdge sh k n w))) (upto 16) s
    foldS (fun s w => wr s (rCluWin k n w) (BitVec.ofNat 32 (shWin sh k n w))) (upto 8) s) (upto 256) s

/-- R222: the epoch of a new placement: one greater than the highest in force, skipping 0. -/
def nextEpoch (s : State) : Nat :=
  let e := ((upto 8).foldl (fun m k => max m (cluEpoch s k)) 0 + 1) % 2 ^ 16
  if e = 0 then 1 else e

/-- R222: the new placement takes an epoch; the clusters outside it take 0. -/
def setEpochs (s : State) (pl e : Nat) : State :=
  foldS (fun s k => wr s (rCluEpoch k) (BitVec.ofNat 32 (if bitN pl k then e else 0))) (upto 8) s

/-- The memories that R175 names: the SPMs of the program's cores and the cluster stores of the placement. -/
def placeMems (s : State) (pl cores : Nat) : List Nat :=
  (bitList 8 pl).flatMap fun k => (((upto cores).filterMap fun p => mapPos s k p) ++ [32 + k])

/-- A nest as planned: each level runs to its plan maximum. -/
def planNest (s : State) (k n : Nat) : NestSt :=
  let d := descAt s k n
  { id := n, desc := d, bound := (upto d.levels).map fun i => (lvlAt d i).bound, ext := [],
    idx := List.replicate d.levels 0, pass := 0, inBody := true }

/-- R180 to R192: the transfers that a cluster-slot word lays down, with a nest loaded, in its own order. -/
def kslotXfers (s : State) (k w : Nat) (nest : Option NestSt) : List Xfer :=
  match bitsN w 60 4, nest with
  | 3, _ =>
    let x := xArgs w
    let ns := planNest s k x.nest
    if steps ns ≤ x.step then [] else [rowXfer s k ns (idxAfter ns x.step) x]
  | 2, some ns =>
    let x := xArgs w
    if x.pf ≠ 0 ∧ steps ns ≤ ns.pass + x.pf then []
    else [rowXfer s k ns (if x.pf = 0 then ns.idx else idxAfter ns (ns.pass + x.pf)) x]
  | 4, some ns => (bitList 4 (ringArgs w).mask).map fun p => ringXfer s k ns (ringArgs w) p
  | 5, some ns => (bitList 4 (haloArgs w).mask).map fun p => haloXfer s k ns (haloArgs w) p
  | 6, some ns =>
    let q := bitsN w 54 6
    if bitsN w 52 2 = 0 then
      [mkXfer s k (2 ^ 32 * rdF s (rShpQBaseHi q) 13 0) (recAddr s k 4 ns (bitsN w 50 2)) 0 0 ((bitsN w 38 12 + 1) * 32) 1
        false false (bitN w 37)]
    else []
  | _, _ => []

/-- The slots of this chip that bar g fills, with the bar and the SRC class of the fill (Table 5.3). -/
def barFills (s : State) (k : Nat) (nest : Option NestSt) (g : BarSeg) : List (Nat × Nat × Src) :=
  match g.kslot with
  | none => []
  | some w => (kslotXfers s k w nest).flatMap fun x =>
      ((dstKeys x).filter fun q => q.1 == ownChip s).map fun q => (g.bar, q.2, x.cls)

/-- R175: the fills that the program of a bank lays down, in program order, its nests as planned. -/
def layFills (s : State) (k : Nat) (segs : List BarSeg) : Nat → Nat → Option NestSt → List (Nat × Nat × Src)
  | 0, _, _ => []
  | fuel + 1, b, nest =>
    match segs[b]? with
    | none => []
    | some g =>
      let here := barFills s k nest g
      match nestOf g with
      | none => here ++ layFills s k segs fuel (b + 1) nest
      | some n =>
        let ns := planNest s k n
        let body := slice segs (b + 1) (ns.desc.bodyLast - b)
        let passes := (upto (steps ns)).flatMap fun t =>
          body.flatMap fun g => barFills s k (some { ns with idx := idxAfter ns t, pass := t }) g
        here ++ passes ++ layFills s k segs fuel (ns.desc.bodyLast + 1) (some ns)

/-- R175: the class of the transfer that the variant first lays down into a slot: the first of its cluster, and among clusters that
of the lowest bar. -/
def layClass (lays : List (List (Nat × Nat × Src))) (key : Nat) : Option Src :=
  let firsts := lays.filterMap fun l => l.find? fun x => x.2.1 == key
  (firsts.foldl (fun (a : Option (Nat × Nat × Src)) x => match a with
    | some y => if x.1 < y.1 then some x else a
    | none => some x) none).map fun x => x.2.2

/-- R175: the tags before an enable: FULL where a tensor of the start record lies, EMPTY elsewhere; and the class of the transfer that
the variant first lays down into each slot, which for a slot that no transfer of this chip fills comes with the program.
Assumption log: 76 (DEDUCED). -/
def tagsSet (s : State) (p : Prog) (startBar : Nat) : State :=
  let bar := if startBar = 0 then p.barCount - 1 else startBar - 1
  let tens := match p.ties.find? fun t => t.bar == bar with
    | some t => t.tens
    | none => []
  let full := (tens.filter fun t => t.loc / 2 ^ 40 == ownChip s).flatMap fun t => slotKeys (t.loc % 2 ^ 40) t.size
  let lays := (bitList 8 p.place).map fun k =>
    layFills s k ((walkBank s k 0 0 p.barCount).map fun x => x.1) (p.barCount + 1) 0 none
  foldS (fun s m =>
    let s := { s with mem := { s.mem with slots := mclear (512 * m) (512 * m + 512) s.mem.slots } }
    foldS (fun s i =>
      let key := 512 * m + i
      let src := ((layClass lays key).orElse fun _ => (p.srcs.find? fun x => x.1 == key).map fun x => x.2).getD .loc
      slotPut s key ⟨if full.contains key then .full else .empty, src, .none⟩) (upto 512) s)
    (placeMems s p.place (classCores (BitVec.ofNat 32 p.cls))) s

/-- R160, R198: before it enables the engine, firmware enables the clusters of the placement and the cores of the program, so that
they take part.
Assumption log: 60 (DEDUCED). -/
def unitsOn (s : State) (p : Prog) : State :=
  let s := foldS (fun s k => wrB s (rCluCtl k) 0 true) (bitList 8 p.place) s
  foldS (fun s n => if n < 32 then wrB s (rNcCtl n) 0 true else s)
    (placeMems s p.place (classCores (BitVec.ofNat 32 p.cls))) s

/-- The shape arguments of cluster k, from argument 1 on. -/
def setArgs (s : State) (k : Nat) (ext : List Nat) : State :=
  foldS (fun s j => wr s (rCluShapeArg k j) (BitVec.ofNat 32 (ext.getD j 0 % 2 ^ 24))) (upto 14) s

/-- R390: the engine is enabled at bar 0 with no job: shape arguments 0, CP_JOB_CLk 0, the tags set. The code of the enable's
check, or 0. -/
def startEmpty (s : State) (p : Prog) : Nat × State :=
  let s := foldS (fun s k => wr (setArgs s k []) (rCpJobCl k) 0) (bitList 8 p.place) s
  let s := engineTry (wr (tagsSet (unitsOn s p) p 0) rEngStartBar 0)
  (rdF s rEngStatus 15 8, s)

/-- What a load found: the program, or the code that refuses it. -/
inductive Loaded where
  | bad (code : Nat)
  | ok (p : Prog) (img : SImg)
  deriving DecidableEq, Repr

/-- R390, R117: the variant's checks on partitions and shapes, then the banks, the tables, the epochs and the scan; a scan that runs
already, which the bank writes make stale, ends first (R122). `partsOf` gives the partition of each cluster for a placement. -/
def loadVariant (s : State) (o : Obj) (ss : List Sect) (ix : List Byte) (v : Nat) (partsOf : Nat → List Nat) (srcs : List (Nat × Src))
    (bid : Nat) (chips : List Nat) (img : SImg) : Loaded × State :=
  let cls := leAt ix (64 * v) 4
  let pl := leAt ix (64 * v + 4) 4 % 256
  let cnt := leAt ix (64 * v + 8) 4
  let parts := partsOf pl
  let named := (upto 8).foldl (fun m k => if parts.getD k 0xFF = 0xFF then m else m + 2 ^ k) 0
  if named ≠ pl ∨ parts.any (fun p => p != 0xFF && 7 < p) then (.bad 0xA7, s)
  else
    let (sh, s) := sectBytes s o ss 0x14 v
    let (descs, s) := (bitList 8 pl).foldl (fun (a : List (Nat × List Byte) × State) k =>
      let (bs, s) := sectBytes a.2 o ss 0x11 (8 * v + k)
      (a.1 ++ [(k, bs)], s)) ([], s)
    if shapeBad sh descs then (.bad 0x35, s)
    else
      let (tp, s) := sectBytes s o ss 0x13 v
      let ties := ptRecs tp (leAt ix (64 * v + 16) 4)
      let s := foldS (fun s k => loadBank s o ss v k cls cnt) (bitList 8 pl) s
      let s := foldS (fun s k => loadTables s sh k) (upto 8) s
      let s := setEpochs (wrF s rEngCtl 15 8 pl) pl (nextEpoch s)
      let bars := ties.map fun t => t.bar
      let s := scanDone bars (scanStart (scanDone bars s))
      let last := match segAt s ((lowBit pl 8 0).getD 0) (cnt - 1) with
        | some g => g.hdr.cg
        | none => false
      let p : Prog :=
        { handle := o.handle, bid := bid, variant := v, cls := cls, place := pl, parts := parts, cg := last, barCount := cnt,
          args := (upto 14).map fun j => (leAt sh (16 * j + 4) 4, leAt sh (16 * j + 8) 4), ties := ties, srcs := srcs,
          twins := (upto 8).filterMap fun a => (Config.twinOf bid a).map fun t => (a, t.1, t.2), chips := chips }
      if rdB s rEngAdmitStatus 30 then (.ok p img, s) else (.bad (rdF s rEngStatus 15 8), s)

/-- R121, R117: the bundle's checks in order, then the variant: that of the shape class in force, or the one a multi-chip start
names; with no class left none matches (R46). -/
def loadBundle (s : State) (o : Obj) (parts : Nat → List Nat) (srcs : List (Nat × Src)) (variant : Option Nat) (chips : List Nat) :
    Loaded × State :=
  let ((h, _), s) := objBytes s o 0 64
  let n := min (leAt h 12 4) 4096
  let ((t, _), s) := objBytes s o 64 (32 * n)
  if o.total < 64 + 32 * n ∨ leAt h 12 4 ≠ n ∨ !bundleForm h t n o.total then (.bad 0x20, s)
  else
    let ss := sectsOf t n
    let len := o.total - 3200
    let ((cov, rc), s) := objBytes s o 0 len
    let ((sig, rc'), s) := objBytes s o len 3200
    let code := if rc ≠ 0 then rc else if rc' ≠ 0 then rc' else imageCheck s sig cov o.total [3]
    if code ≠ 0 then (.bad 0x21, logMsg s 0xC code (leBytes 2 o.handle))
    else if leAt h 8 4 ≠ 1 then (.bad 0x22, s)
    else
      let (ix, s) := sectBytes s o ss 2 0
      let cls := (shapeClass s).toNat
      let pick := if cls = 0 then none else match variant with
        | some v => if 64 * v + 64 ≤ ix.length ∧ leAt ix (64 * v) 4 = cls then some v else none
        | none => pickVariant ix cls
      match pick with
      | none => (.bad 0x2D, s)
      | some v =>
        loadVariant s o ss ix v parts srcs (leAt h 0x18 8) chips ⟨leAt sig 5 1, leAt sig 8 4, slice sig 0x20 64⟩

/-- A program becomes the running one. -/
def progSet (s : State) (p : Prog) (img : SImg) : State :=
  let s := updObj s p.handle fun o => { o with inUse := true }
  let s := updRoot s fun r => { r with inUse := r.inUse.set 3 (some img) }
  { s with fw := { s.fw with prog := some p, stopping := false, passSeen := (rd s rCpPassCnt).toNat } }

/-- R390: an admitted program starts at once where its last bar has CG = 1. The code that refuses the enable, or 0. -/
def progGo (s : State) (p : Prog) (img : SImg) : Nat × State :=
  if !p.cg then (0, progSet s p img)
  else
    let (code, s) := startEmpty s p
    if code ≠ 0 then (code, s) else (0, progSet s p img)

/-- R434: the request that starts Skerry c with the variant of its rank, over pair 8.
Assumption log: 27 (DEDUCED). -/
def skerryStart (s : State) (e : List Byte) (c v : Nat) : State :=
  let i := ((s.fw.prod8.find? fun x => x.1 == c).map fun x => x.2).getD 0
  let s := { s with fw := { s.fw with prod8 := s.fw.prod8.filter (fun x => x.1 != c) ++ [(c, i + 1)] } }
  mboxSend s c (leBytes 4 i ++ slice e 4 36 ++ leBytes 2 v ++ slice e 42 22)

/-- R434: whether the Headland can place a program on the chips. -/
def chipsOk (s : State) (chips : List Nat) : Bool :=
  2 ≤ chips.length && chips.length ≤ 32 && chips.contains (ownChip s) && !running s && rdF s rDdlChip 31 30 == 1 &&
    chips.all fun c => c == ownChip s || s.lk.peers.any fun p => p.chip == some c && !p.left

/-- The result of a start that succeeded: PLACE and CLASS. -/
def startBody (p : Prog) : List Byte := leBytes 4 p.place ++ leBytes 4 p.cls

/-- PROGRAM_START (R390, R434). -/
def programStart (srcs : List (Nat × Src)) (s : State) (q : Rq) (e : List Byte) : State :=
  let owned := match s.fw.prog with
    | some p => p.chips ≠ [] && rdF s rDdlChip 31 30 == 2 && q.pair ≠ 8
    | none => false
  let chips := bitList 64 (arg e 16 8)
  let base := arg e 24 2
  let parts := (upto 8).map fun k => arg e (8 + k) 1
  let rank := (chips.filter (· < ownChip s)).length
  let variant := if chips = [] then none else some (if q.pair = 8 then base else base + rank)
  if owned then respond s q 0x7A []
  else if s.fw.prog.isSome then respond s q 0xA1 []
  else match objOf s (arg e 0 2) with
    | none => respond s q 0xAF []
    | some o =>
      if !o.closed ∨ o.kind ≠ 1 then respond s q 0xAF []
      else if chips ≠ [] ∧ q.pair ≠ 8 ∧ !chipsOk s chips then respond s q 0x7B []
      else match loadBundle s o (fun _ => parts) srcs variant chips with
        | (.bad c, s) => respond s q c []
        | (.ok p img, s) =>
          if chips = [] ∨ q.pair = 8 then
            let (code, s) := progGo s p img
            respond s q code (if code = 0 then startBody p else [])
          else
            let others := chips.filter (· != ownChip s)
            let s := foldS (fun s c => skerryStart s e c (base + (chips.filter (· < c)).length)) others s
            let s := progSet s p img
            { s with fw := { s.fw with multi := some ⟨q, others, [], false, []⟩ } }

/-- The class that a code names in PROGRAM_START's operand.
Assumption log: 76 (DEDUCED). -/
def srcOf (c : Nat) : Src := if c = 1 then .halo else if c = 2 then .link else .loc

/-- PROGRAM_START on pair r; `srcs` lists the slots (by key) whose first transfer another chip lays down, HALO (1) or LINK (2)
(R175).
Assumption log: 11 (DESIGN CHOICE), 76 (DEDUCED). -/
def execProgramStart (r : Nat) (srcs : List (Nat × Nat)) (s : State) : Out :=
  .next (onReq s r 0x20 (programStart (srcs.map fun x => (x.1, srcOf x.2))))

end Sys2Proof.Machine
end

