-- ==== Sys2Proof/Machine/Jobs.lean ====
section
/-! DEFINITION. Jobs (14 sections 6 to 8): admission, binding, passes and their results, deadlines, kills, and the switch of a
partition at a pass boundary. -/

namespace Sys2Proof.Machine
open Sys2Proof

/-- The job of an ID. -/
def jobOf (s : State) (id : Nat) : Option Job := s.fw.jobs.find? fun j => j.id == id

/-- The job that a request names. ID 0 is never one (R393); firmware's own Shallows program runs under it. -/
def askedJob (s : State) (e : List Byte) : Option Job := if arg e 0 2 = 0 then none else jobOf s (arg e 0 2)

/-- Changing the job of an ID. -/
def updJob (s : State) (id : Nat) (f : Job → Job) : State :=
  { s with fw := { s.fw with jobs := s.fw.jobs.map fun j => if j.id = id then f j else j } }

/-- Whether a job is admitted (R393). -/
def jobLive (j : Job) : Bool := j.st == .queued || j.st == .running

/-- Whether a job holds its partition: RUNNING, or killed and not yet switched away. -/
def installed (j : Job) : Bool := !j.left && (j.st == .running || j.st == .killed)

/-- Table 14.5: the code of a state. -/
def jobCode : JobSt → Nat
  | .queued => 1
  | .running => 2
  | .done => 3
  | .aborted => 4
  | .killed => 5

/-- R413: a job state change is logged at INFO.
Assumption log: 65 (DESIGN CHOICE). -/
def jobLog (s : State) (id code st : Nat) : State := logRec s 1 0xC code 5 id (leBytes 1 st)

/-- A job enters a state. -/
def jobState (s : State) (id code : Nat) (st : JobSt) : State := jobLog (updJob s id fun j => { j with st := st }) id code (jobCode st)

/-- The clusters of a partition of the running program. -/
def partClus (s : State) (p : Nat) : List Nat :=
  match s.fw.prog with
  | some g => (upto 8).filter fun k => g.parts.getD k 0xFF == p
  | none => []

/-- The placement epoch of a partition (R220). -/
def partEpoch (s : State) (p : Nat) : Nat :=
  match (partClus s p).head? with
  | some k => cluEpoch s k
  | none => 0

/-! ### Completion (R395, R401) -/

/-- R395: the registers bound to a job are written 0 when it ends. -/
def unbind (s : State) (id : Nat) : State :=
  let clr (s : State) (a : Nat) := if rdF s a 11 0 = id then wr s a 0 else s
  let s := foldS (fun s n => clr s (rCpJobDma n)) (upto 8) (energyRead s)
  let s := foldS (fun s n => clr s (rCpJobVid n)) (upto 32) s
  foldS (fun s m => clr s (rCpJobCsi m)) (upto 48) s

/-- A number saturated to n bits. -/
def satN (n x : Nat) : Nat := min x (2 ^ n - 1)

/-- Table 14.7: the completion record of a job from entry offset 0x14 on. -/
def completionRec (s : State) (j : Job) : List Byte :=
  leBytes 4 j.flags ++ leBytes 4 j.done ++ leBytes 2 j.epoch ++ leBytes 2 0 ++
    leBytes 8 (if hasFeature s j.rq.pair 7 then j.energy / 1000 else 0) ++ leBytes 8 (now s) ++ leBytes 4 j.missed ++
    leBytes 2 (satN 16 j.sat) ++ leBytes 2 (satN 16 j.cvt) ++ leBytes 4 (satN 32 j.throttle) ++
    leBytes 2 (satN 16 j.trunc) ++ leBytes 2 (satN 16 j.empty)

/-- A job ends with a status in a state: its registers are unbound, its results stop, and its completion is posted. A shadow job
(R446) ends without one.
Assumption log: 64 (DEDUCED). -/
def jobEnd (s : State) (id status : Nat) (st : JobSt) : State :=
  match jobOf s id with
  | none => s
  | some j =>
    let fl := (if st = .aborted then 8 else 0) + (if st = .killed then 16 else 0)
    let s := updJob s id fun j => { j with left := true, flags := j.flags ||| fl }
    let s := if st = .killed then s else jobState s id status st
    let s := unbind { s with fw := { s.fw with pubs := s.fw.pubs.filter fun p => p.job != id } } id
    if j.shadowOf.isSome || id = 0 then s
    else match jobOf s id with
      | some j => postEvent s j.rq status 1 id (completionRec s j)
      | none => s

/-! ### The switch of a partition (R391, R397) -/

/-- The oldest QUEUED job of a partition. -/
def queuedOf (s : State) (p : Nat) : Option Job := s.fw.jobs.find? fun j => j.st == .queued && j.part == p

/-- The job that holds a partition. -/
def holderOf (s : State) (p : Nat) : Option Job := s.fw.jobs.find? fun j => installed j && j.part == p

/-- R251, R397: the seed goes into the generator record of the incoming job.
Assumption log: 49 (DESIGN CHOICE). -/
def seedWrite (s : State) (p : Prog) (j : Job) : State :=
  let a := Config.genRecord p.bid j.part
  match memAt a with
  | some m => if m < 32 ∧ inSpm m a 8 then sramWrite s (runWrites a (leBytes 8 j.seed) (List.replicate 8 false)) else s
  | none => s

/-- The writes of a partition's switch (R397): CP_JOB_CLk and the shape arguments of each of its clusters. -/
def switchActs (ks : List Nat) (id : Nat) (ext : List Nat) : List (Nat × Nat × Nat) :=
  ks.flatMap fun k => (rCpJobCl k, id, 0xFFF) :: (upto 14).map fun j => (rCluShapeArg k j, ext.getD j 0 % 2 ^ 24, 0xFFFFFF)

/-- The registers of group g hold a list of actions (address, value, mask), at most 64. -/
def cgFill (s : State) (g from0 : Nat) (acts : List (Nat × Nat × Nat)) : State :=
  let put (s : State) (x : (Nat × Nat × Nat) × Nat) : State :=
    let i := from0 + x.2
    wr (wr (wr s (rCpCgAddr g i) (BitVec.ofNat 32 (x.1.1 % 2 ^ 27 / 4 * 4))) (rCpCgValue g i) (BitVec.ofNat 32 x.1.2.1))
      (rCpCgMask g i) (BitVec.ofNat 32 x.1.2.2)
  wrF (foldS put acts.zipIdx s) (rCpCgCtl g) 5 0 (from0 + acts.length - 1)

/-- A firmware group of a partition switch is filled, and prepared for the release of bar `bar`. -/
def switchGroup (s : State) (g bar : Nat) (acts : List (Nat × Nat × Nat)) : State :=
  let s := cgFill (cgUpd s g fun _ => {}) g 0 acts
  let s := wr (wr s (rCpCgPoint g) (BitVec.ofNat 32 (2 ^ 30 + (bar + 1) % 2 ^ 20))) (rCpCgTimeout g) 0
  cgPrepare s g

/-- R397: what a partition is switched to at the next boundary, if it is: its oldest QUEUED job, or none (0). Its job has begun its
last pass, or has been aborted or killed; or it has no job, and one waits or its registers name one that has left. -/
def switchWant (s : State) (part : Nat) : Option Nat :=
  let next := ((queuedOf s part).map fun j => j.id).getD 0
  let due := match holderOf s part with
    | some j => (j.passes != 0 && j.passes ≤ j.done + 1) || j.ending.isSome || j.killCode.isSome
    | none => next != 0 || (partClus s part).any fun k => rdF s (rCpJobCl k) 11 0 != 0
  if due then some next else none

/-- Firmware cancels the groups of a switch. -/
def switchDrop (s : State) (w : Switch) : State :=
  foldS cgCancel w.groups { s with fw := { s.fw with switches := s.fw.switches.erase w } }

/-- Whether group g has applied, or will at a release that has been sent. -/
def cgGone (s : State) (g : Nat) : Bool := cgState s g == 3 || (cgState s g == 2 && (cgOf s g).tagged)

/-- R397: the groups of a partition's switch to a job, or to none, are prepared: one for up to 4 clusters, two for more, where that
many of the firmware groups are free. The incoming job's seed is written first. -/
def switchMake (p : Prog) (s : State) (part id : Nat) : State :=
  let next := jobOf s id
  let acts := switchActs (partClus s part) id ((next.map fun j => j.ext).getD [])
  let used := s.fw.switches.flatMap fun w => w.groups
  let free := [8, 9, 10, 11, 12, 13, 14, 15].filter fun g => !cgLive s g && !(cgOf s g).isOpen && !used.contains g
  let gs := free.take (if acts.length ≤ 60 then 1 else 2)
  if gs.length * 60 < acts.length then s
  else
    let s := match next with
      | some j => seedWrite s p j
      | none => s
    let s := { s with fw := { s.fw with switches := s.fw.switches ++ [⟨part, id, gs, false⟩] } }
    foldS (fun s x => switchGroup s x.1 (p.barCount - 1) ((acts.drop (60 * x.2)).take 60)) gs.zipIdx s

/-- R397: the groups of a partition's switch at the next boundary: one that no longer fits is cancelled, and one that is wanted
is prepared. A switch of which a group has aborted waits for the boundary.
Assumption log: 64 (DEDUCED). -/
def switchPart (p : Prog) (s : State) (part : Nat) : State :=
  let want := switchWant s part
  match s.fw.switches.find? (fun w => w.part == part), want with
  | none, none => s
  | none, some id => switchMake p s part id
  | some w, _ =>
    if w.dead || w.groups.any (cgGone s) || want == some w.job then s
    else match want with
      | none => switchDrop s w
      | some id => switchMake p (switchDrop s w) part id

/-- The partitions of a program. -/
def partsOf (p : Prog) : List Nat := (p.parts.filter (· != 0xFF)).eraseDups

/-- R397: firmware prepares the switches of the next boundary of a program whose last bar has CG = 1.
Assumption log: 64 (DEDUCED). -/
def switchesGo (s : State) : State :=
  match s.fw.prog with
  | none => s
  | some p => if p.cg && running s && !s.fw.stopping then foldS (switchPart p) (partsOf p) s else s

/-- R397: at a boundary, a switch that its groups have carried out makes its job RUNNING; one of which a group has aborted is given
up, to be tried again at the next.
Assumption log: 64 (DEDUCED). -/
def switchTake (t : Nat) (s : State) (w : Switch) : State :=
  let gone := { s with fw := { s.fw with switches := s.fw.switches.erase w } }
  if w.dead then gone
  else if !w.groups.all (cgGone s) then s
  else match jobOf s w.job with
    | none => gone
    | some j =>
      if j.st ≠ .queued then gone
      else jobState (updJob gone j.id fun j => { j with passStart := t, start0 := j.energy, epoch := partEpoch s w.part }) j.id 0 .running

/-- R391 step 3: with CG = 0, firmware asks the engine to park. -/
def askPark (s : State) : State :=
  match s.fw.prog with
  | some p => if p.cg then s else wrB s rEngCtl 2 true
  | none => s

/-! ### Admission (R393, R394, R208) -/

/-- R393: whether an ID may not be given: it is admitted, or the kill scrub of its job has not finished. -/
def idBusy (s : State) (id : Nat) : Bool :=
  (s.fw.jobs.any fun j => j.id == id && (jobLive j || installed j)) || s.ras.scrub.any fun x => x.job == id

/-- R393: the next job ID. -/
def nextJob (s : State) : Nat :=
  (((upto 4095).map fun i => (s.fw.lastJob + i) % 4095 + 1).find? fun id => !idBusy s id).getD 0

/-- R208: the extents in force for a job, or the code that refuses them. -/
def jobExtents (args : List (Nat × Nat)) (ext : List Nat) (mask : Nat) : Except Nat (List Nat) :=
  let arg (j : Nat) := args.getD j (0, 0)
  let given (j : Nat) := bitN mask j
  if (upto 14).any fun j =>
      (given j && (arg j).1 == 0) || ((arg j).1 != 0 && !given j && (arg j).2 == 0xFFFFFFFF) then .error 0x34
  else
    let xs := (upto 14).map fun j => if given j then ext.getD j 0 else if (arg j).1 = 0 then 0 else (arg j).2
    if (upto 14).any fun j => given j && (arg j).1 < ext.getD j 0 then .error 0x2C else .ok xs

/-- R394, condition 3: whether the arguments are unacceptable. -/
def jobArgsBad (s : State) (e : List Byte) : Bool :=
  let ch := arg e 2 1
  let src := arg e 0x18 8
  let len := arg e 0x20 4
  8 ≤ arg e 1 1 || arg e 3 1 != 0 || arg e 0x26 10 != 0 ||
    (ch != 0xFF && (16 ≤ ch || ramNat s (chanPage ch + 4) 2 == 0)) ||
    (len != 0 && !(src + len ≤ 0x2000000000 || (0x2000000000 ≤ src && src + len ≤ 0x2005000000)))

/-- The job that JOB_SUBMIT describes. -/
def jobNew (id : Nat) (q : Rq) (e : List Byte) (ext : List Nat) : Job :=
  { id := id, rq := q, part := arg e 0 1, abortOnDl := bitN (arg e 1 1) 0, arithFatal := bitN (arg e 1 1) 1,
    passEvents := bitN (arg e 1 1) 2 || q.pair == 8, rchan := arg e 2 1, passes := arg e 4 4, deadlineUs := arg e 8 4,
    ext := ext, seed := arg e 0x10 8, rsrc := arg e 0x18 8, rlen := arg e 0x20 4 }

/-- A job enters the queue of its partition. -/
def jobAdmit (s : State) (j : Job) : State :=
  jobLog { s with fw := { s.fw with jobs := s.fw.jobs.filter (fun x => x.id != j.id) ++ [j], lastJob := j.id } } j.id 0 1

/-- R446: the shadow of every N-th job of a partition that has a twin.
Assumption log: 49 (DESIGN CHOICE), 64 (DEDUCED). -/
def shadowAdmit (s : State) (j : Job) : State :=
  let n := rdF s rRasDualN 15 0
  match s.fw.prog with
  | none => s
  | some p => match p.twins.find? fun t => t.1 == j.part with
    | none => s
    | some t =>
      let c := ((s.fw.dualSeen.find? fun x => x.1 == j.part).map fun x => x.2).getD 0 + 1
      if n = 0 then s
      else
        let s := { s with fw := { s.fw with dualSeen := s.fw.dualSeen.filter (fun x => x.1 != j.part) ++ [(j.part, c)] } }
        if c % n ≠ 0 ∨ 256 ≤ (admitted s).length then s
        else jobAdmit s { j with id := nextJob s, part := t.2.1, rchan := 0xFF, passEvents := false,
                                 rsrc := ((j.rsrc : Int) + t.2.2).toNat, shadowOf := some j.id }

/-- R437: a request that the Headland sends on to every other chip of a multi-chip program over pair 8.
Assumption log: 31 (PRESUMED). -/
def toSkerries (s : State) (e : List Byte) : State :=
  match s.fw.prog with
  | none => s
  | some p =>
    if rdF s rDdlChip 31 30 ≠ 1 then s
    else foldS (fun s c =>
      let i := ((s.fw.prod8.find? fun x => x.1 == c).map fun x => x.2).getD 0
      let s := { s with fw := { s.fw with prod8 := s.fw.prod8.filter (fun x => x.1 != c) ++ [(c, i + 1)] } }
      mboxSend s c (leBytes 4 i ++ e.drop 4)) (p.chips.filter (· != ownChip s)) s

/-- JOB_SUBMIT (R394). With no shape class left the device admits no job (R46): no program runs. On pair 8 the
Headland names the job ID, in argument bytes 36 and 37 (assumption 31).
Assumption log: 31 (PRESUMED). -/
def jobSubmit (s : State) (q : Rq) (e : List Byte) : State :=
  match s.fw.prog with
  | none => respond s q 0xA0 []
  | some p =>
    if p.chips ≠ [] ∧ rdF s rDdlChip 31 30 = 2 ∧ q.pair ≠ 8 then respond s q 0x7A []
    else if shapeClass s = 0 ∨ s.fw.stopping ∨ 7 < arg e 0 1 ∨ !p.parts.contains (arg e 0 1) then respond s q 0xA0 []
    else if 256 ≤ (admitted s).length then respond s q 0xA1 []
    else if jobArgsBad s e ∨ (q.pair ≠ 8 ∧ arg e 0x24 2 ≠ 0) then respond s q 0xA2 []
    else
      let ptr := arg e 0xC 4
      let (g, s) := if ptr = 0 then (⟨List.replicate 64 0, [], 0⟩, s) else fabReads s whoCp (ptrAddr q.pair ptr) 64
      if g.code ≠ 0 then respond s q g.code []
      else match jobExtents p.args ((upto 14).map fun j => leAt g.data (4 * j) 4) (leAt g.data 56 4) with
        | .error c => respond s q c []
        | .ok ext =>
          let id := if q.pair = 8 then arg e 0x24 2 else nextJob s
          let j := jobNew id q e ext
          let s := shadowAdmit (jobAdmit s j) j
          let s := toSkerries (switchesGo s) (e.take 52 ++ leBytes 2 id ++ e.drop 54)
          respond s q 0 (leBytes 2 id)

/-- JOB_SUBMIT on pair r. -/
def execJobSubmit (r : Nat) (s : State) : Out := .next (onReq s r 0x30 jobSubmit)

/-- R398: a RUNNING job is to end with a code at the next pass boundary; one whose passes are over, where the program has none to come,
at once.
Assumption log: 64 (DEDUCED). -/
def jobStop (s : State) (j : Job) (code : Nat) : State :=
  if j.left && !running s then jobEnd s j.id code .aborted
  else switchesGo (askPark (updJob s j.id fun j => { j with ending := some (j.ending.getD code) }))

/-- JOB_ABORT (R398): a QUEUED job completes at once, a RUNNING one at the next pass boundary. -/
def jobAbort (s : State) (q : Rq) (e : List Byte) : State :=
  match askedJob s e with
  | none => respond s q 0xA3 []
  | some j =>
    if !jobLive j then respond s q 0xA3 []
    else
      let s := toSkerries (respond s q 0 []) e
      if j.st = .queued then switchesGo (jobEnd s j.id 0xA5 .aborted) else jobStop s j 0xA5

/-- JOB_ABORT on pair r. -/
def execJobAbort (r : Nat) (s : State) : Out := .next (onReq s r 0x31 jobAbort)

/-- JOB_QUERY on pair r (R396). -/
def execJobQuery (r : Nat) (s : State) : Out :=
  .next (onReq s r 0x32 fun s q e =>
    match askedJob s e with
    | none => respond s q 0xA3 []
    | some j => respond s q 0 (leBytes 4 (jobCode j.st) ++ leBytes 4 j.done ++ leBytes 8 j.epoch ++
        leBytes 8 (if hasFeature s q.pair 7 then j.energy / 1000 else 0)))

/-- R395: the job register that JOB_BIND names. -/
def bindReg (kind i : Nat) : Option Nat :=
  if kind = 0 ∧ i < 32 then some (rCpJobVid i)
  else if kind = 1 ∧ i < 48 then some (rCpJobCsi i)
  else if kind = 2 ∧ i < 8 then some (rCpJobDma i)
  else none

/-- JOB_BIND (R395). Its register write is one as any other (R19, R409); the command answers 0 all the same, since the spec names no
other status.
Assumption log: 24 (DESIGN CHOICE). -/
def jobBind (s : State) (q : Rq) (e : List Byte) : State :=
  let id := arg e 0 2
  match askedJob s e, bindReg (arg e 2 1) (arg e 3 1) with
  | some j, some a =>
    let cur := rdF s a 11 0
    if !jobLive j then respond s q 0xA3 []
    else if cur ≠ id ∧ cur ≠ 0 ∧ s.fw.jobs.any (fun x => x.id == cur && (jobLive x || installed x)) then respond s q 0xA2 []
    else respond (busWrite s a (BitVec.ofNat 32 id) fun s => wr (energyRead s) a (BitVec.ofNat 32 id)) q 0 []
  | none, _ => respond s q 0xA3 []
  | _, none => respond s q 0xA2 []

/-- JOB_BIND on pair r. -/
def execJobBind (r : Nat) (s : State) : Out := .next (onReq s r 0x33 jobBind)

/-! ### Kills (R398, R458) -/

/-- R458: the kill scrub of a partition's memories begins: their slots become INVALID; a snapshot is taken under R460. -/
def scrubStart (s : State) (id p : Nat) : State :=
  let ks := partClus s p
  let mems := (ks.flatMap fun k => (upto 4).map fun i => 4 * k + i) ++ ks.map fun k => 32 + k
  let snap := rdB s rSecLock 4 && rdB s rRasSnapCtl 31 && !rdB s rRasSnapCtl 30
  let s := foldS (fun s m => foldS (fun s i => slotTag s (512 * m + i) .invalid) (upto 512) s) mems s
  let s := foldS (fun s k => wrB s rRasKscrub k true) ks s
  let new := mems.zipIdx.map fun x => (⟨x.1, id, false, if snap then some (0x200000 * x.2) else none⟩ : Scrub)
  { incr s rRasKillCnt with ras := { s.ras with scrub := s.ras.scrub.filter (fun x => !mems.contains x.mem) ++ new } }

/-- R398: a job is killed with a cause. A job already being killed is not killed again (R346). Where no pass of it is running, its
completion follows at once; one whose passes are over no longer has a partition to scrub.
Assumption log: 64 (DEDUCED). -/
def jobKill (s : State) (id code : Nat) : State :=
  match jobOf s id with
  | none => s
  | some j =>
    if id = 0 ∨ !jobLive j then s
    else
      let s := updJob s id fun j => { j with killCode := some code }
      let s := attnSet (jobState s id code .killed) 5
      let s := { s with fw := { s.fw with pubs := s.fw.pubs.filter fun p => p.job != id } }
      let s := if j.st = .running ∧ !j.left then askPark (scrubStart s id j.part) else s
      let s := if j.st = .running ∧ !j.left ∧ running s then s else jobEnd s id code .killed
      switchesGo s

/-- JOB_KILL of a job with the code of its cause. -/
def execJobKill (id code : Nat) (s : State) : Out := .next (jobKill s id code)

/-! ### Counters (R402) -/

/-- The counters that firmware reads of cluster k at a pass boundary. -/
def jobCounters (k : Nat) : List Nat :=
  [rCluEmptyCnt k, rCluTruncCnt k, rCluStaleCnt k] ++ ((upto 45).map fun i => rCluStall k (i / 9) (i % 9)) ++
    ((upto 4).flatMap fun i => [rNcAccSatCnt (4 * k + i), rNcCvtSatCnt (4 * k + i)])

/-- The advance of a counter since firmware last read it, modulo 2^32. -/
def ctrDiff (s : State) (a : Nat) : Nat :=
  let old := ((s.fw.counters.find? fun x => x.1 == a).map fun x => x.2).getD 0
  ((rd s a).toNat + 2 ^ 32 - old) % 2 ^ 32

/-- The counters of every cluster are read. -/
def ctrRead (s : State) : State :=
  { s with fw := { s.fw with counters := ((upto 8).flatMap jobCounters).map fun a => (a, (rd s a).toNat) } }

/-- The sum of the advances of some counters. -/
def ctrSum (s : State) (as : List Nat) : Nat := as.foldl (fun n a => n + ctrDiff s a) 0

/-- Table 14.7: the flags of a pass of a partition, from the differences and from NCn_ARITH_STATUS. -/
def passFlags (s : State) (ks : List Nat) : Nat :=
  let ns := ks.flatMap fun k => (upto 4).map fun i => 4 * k + i
  let st (i : Nat) := ns.any fun n => rdB s (rNcArithStatus n) i
  let d (f : Nat → Nat) := ctrSum s (ks.map f) != 0
  b2n (d rCluEmptyCnt) + 2 * b2n (d rCluTruncCnt) + 64 * b2n (ctrSum s (ns.map rNcAccSatCnt) != 0) +
    128 * b2n (ctrSum s (ns.map rNcCvtSatCnt) != 0) + 256 * b2n (st 4) + 512 * b2n (st 2) + 1024 * b2n (st 1) +
    2048 * b2n (d rCluStaleCnt)

/-- R402: the differences of the pass are charged to a job; with ARITH_FATAL an arithmetic event aborts it. -/
def jobCharge (s : State) (id : Nat) (ks : List Nat) : State :=
  let ns := ks.flatMap fun k => (upto 4).map fun i => 4 * k + i
  let f := passFlags s ks
  let sat := ctrSum s (ns.map rNcAccSatCnt)
  let cvt := ctrSum s (ns.map rNcCvtSatCnt) + (ns.filter fun n => rdB s (rNcArithStatus n) 4).length
  let thr := ctrSum s (ks.flatMap fun k => (upto 4).map fun i => rCluStall k i 4)
  updJob s id fun j =>
    { j with stalls := (upto 45).map fun i => j.stalls.getD i 0 + ctrSum s (ks.map fun k => rCluStall k (i / 9) (i % 9)),
             flags := j.flags ||| f, sat := j.sat + sat, cvt := j.cvt + cvt, throttle := j.throttle + thr,
             trunc := j.trunc + ctrSum s (ks.map rCluTruncCnt), empty := j.empty + ctrSum s (ks.map rCluEmptyCnt),
             ending := if j.arithFatal && f / 64 % 32 != 0 then some (j.ending.getD 0xA6) else j.ending }

/-- Firmware clears the arithmetic flags that it has read. -/
def arithClear (s : State) (ks : List Nat) : State :=
  foldS (fun s n => wr s (rNcArithStatus n) 0) (ks.flatMap fun k => (upto 4).map fun i => 4 * k + i) s

/-! ### Results (R376, R397) -/

/-- R345, R347, R397 step 1: the poison scan of a result range, and whether it found poison. A scan that ends with ERR counts none. -/
def resultScan (s : State) (a n : Nat) : Bool × State :=
  let s := wr64 s rMemPscanBaseLo rMemPscanBaseHi (a / 32 * 32)
  let s := pscanStart (wr s rMemPscanLen (BitVec.ofNat 32 (wordsIn a n)))
  let s := pscanEnd s
  (rd s rMemPscanPcount != 0, s)

/-- R401: the PASS event. -/
def passEvent (s : State) (j : Job) (p : Pub) (gen flags : Nat) : State :=
  if !j.passEvents then s
  else postEvent s j.rq 0 3 j.id (leBytes 4 p.pass ++ leBytes 8 p.start ++ leBytes 8 p.stop ++ leBytes 4 gen ++
    leBytes 4 flags ++ leBytes 8 (if hasFeature s j.rq.pair 7 then p.energy else 0))

/-- Whether a job's last pass is published, so that it is DONE (Table 14.5), or, where it was to be aborted, ends so. -/
def jobFinish (s : State) (id : Nat) : State :=
  match jobOf s id with
  | none => s
  | some j =>
    if j.left && j.st == .running && !(s.fw.pubs.any fun p => p.job == id) then
      match j.ending with
      | some c => jobEnd s id c (if c = 0x07 then .done else .aborted)
      | none => jobEnd s id 0 .done
    else s

/-- R437: whether every other chip has reported a pass of a multi-chip job. -/
def passReported (s : State) (p : Pub) : Bool :=
  match s.fw.prog with
  | none => true
  | some g => rdF s rDdlChip 31 30 != 1 || (g.chips.filter (· != ownChip s)).all fun c =>
      s.fw.reports.any fun x => x.1 == c && x.2.1 == p.job && p.pass ≤ x.2.2

/-- Table 13.6: SRC of a result: the SET_SEQ of the fusion set that fed it, or all ones. Which set, if any, feeds a result no rule
says: it is a free one among those that the groups have posted.
Assumption log: 37 (DESIGN CHOICE). -/
def srcPick (s : State) : Nat × State :=
  let seqs := (s.csi.fgs.map fun x => x.seq).filter (· != 0)
  let (n, s) := freeN s
  (match seqs[n % (seqs.length + 1)]? with
    | some c => n / (seqs.length + 1) % c
    | none => 0xFFFFFFFF, s)

/-- R376: generation PUB + 1 of channel k is published: header, payload, header again, PUB, attention bit 1.
Assumption log: 29 (DESIGN CHOICE), 37 (DESIGN CHOICE). -/
def publish (s : State) (k : Nat) (j : Job) (p : Pub) : State :=
  let c := chanPage k
  let base := ramNat s c 4
  let nslot := ramNat s (c + 4) 2
  let size := ramNat s (c + 6) 2
  let g := ramNat s (c + 8) 4 + 1
  let at0 := hpAddr (base + (g - 1) % nslot * size * 32)
  let met := j.deadlineUs = 0 ∨ now s ≤ p.start + 1000 * j.deadlineUs
  let late := p.late || !met
  let fl := 1 + 2 * b2n (bitN p.flags 0) + 4 * b2n (bitN p.flags 1) + 8 * b2n late
  let (src, s) := srcPick s
  let (got, s) := fabReads s whoFwDma j.rsrc j.rlen
  let s := fwPut s at0 (leBytes 4 (if nslot < g then g - nslot else 0) ++ List.replicate 28 0)
  let s := fabStore s whoFwDma (at0 + 32) got.data got.pois
  let s := fwPut s at0 (leBytes 4 g ++ leBytes 4 fl ++ leBytes 2 j.id ++ leBytes 2 p.epoch ++ leBytes 4 j.rlen ++
    leBytes 8 p.ts ++ leBytes 4 src ++ leBytes 4 0)
  let s := attnSet (fwPut s (c + 8) (leBytes 4 g)) 1
  let s := { s with fw := { s.fw with pubs := s.fw.pubs.erase p } }
  let s := passEvent s j p g (p.flags + 4 * b2n late)
  jobFinish s j.id

/-- The oldest waiting result of channel k, with its job. -/
def pubOf (s : State) (k : Nat) : Option (Job × Pub) :=
  (s.fw.pubs.findSome? fun p => match jobOf s p.job with
    | some j => if j.rchan = k then some (j, p) else none
    | none => none)

/-- R376: channel k publishes its oldest waiting result, if REL allows. A result larger than its slot is not published, and its
job completes with RESULT_TOO_LARGE.
Assumption log: 37 (DESIGN CHOICE). -/
def tryPublish (s : State) (k : Nat) : State :=
  match pubOf s k with
  | none => s
  | some (j, p) =>
    let c := chanPage k
    let nslot := ramNat s (c + 4) 2
    let g := ramNat s (c + 8) 4 + 1
    if ramNat s (c + 6) 2 * 32 < j.rlen + 32 then
      let s := { s with fw := { s.fw with pubs := s.fw.pubs.filter fun x => x.job != j.id } }
      if j.left then jobEnd s j.id 0x07 .done else askPark (updJob s j.id fun j => { j with ending := some (j.ending.getD 0x07) })
    else if s.fw.relSeen.getD k 0 + nslot < g ∨ !passReported s p then s
    else publish s k j p

/-- RESULT_PUBLISH on channel k. -/
def execResultPublish (k : Nat) (s : State) : Out := .next (if k < 16 then tryPublish s k else s)

/-! ### Deadlines (R399) -/

/-- R399: a pass of a job has missed its deadline. -/
def missDeadline (s : State) (j : Job) (pass dl : Nat) : State :=
  let s := logRec s 5 0xC 0xA4 3 j.id (leBytes 4 pass ++ leBytes 8 dl)
  let s := postEvent s j.rq 0 5 j.id (leBytes 4 pass ++ leBytes 8 dl ++ leBytes 8 (now s))
  let s := updJob (attnSet s 4) j.id fun j => { j with missed := j.missed + 1, flags := j.flags ||| 4 }
  if j.abortOnDl then jobStop s j 0xA4 else s

/-- DEADLINE_TIMER of a job: the timer of the oldest pass that has neither met nor missed its deadline fires.
Assumption log: 8 (DESIGN CHOICE), 64 (DEDUCED). -/
def execDeadlineTimer (id : Nat) (s : State) : Out :=
  match jobOf s id with
  | none => .next s
  | some j =>
    let d := 1000 * j.deadlineUs
    if j.deadlineUs = 0 ∨ j.st ≠ .running then .next s
    else match s.fw.pubs.find? fun p => p.job == id && !p.late with
      | some p =>
        if now s < p.start + d then .next s
        else
          let late (x : Pub) : Pub := if x = p then { x with late := true } else x
          .next (missDeadline { s with fw := { s.fw with pubs := s.fw.pubs.map late } } j p.pass (p.start + d))
      | none =>
        if j.left ∨ j.passLate ∨ now s < j.passStart + d then .next s
        else .next (missDeadline (updJob s id fun j => { j with passLate := true }) j (j.done + 1) (j.passStart + d))

/-! ### Pass boundaries (R391, R397) -/

/-- The pass of an installed job ends at a boundary at `t`.
Assumption log: 64 (DEDUCED). -/
def passEnd (t : Nat) (s : State) (id : Nat) : State :=
  match jobOf s id with
  | none => s
  | some j =>
    let ks := partClus s j.part
    let fl := passFlags s ks
    let s := jobCharge s id ks
    match jobOf s id with
    | none => s
    | some j =>
      if j.st ≠ .running ∨ j.ending.isSome then s
      else
        let lapsed := j.deadlineUs ≠ 0 ∧ j.passStart + 1000 * j.deadlineUs < t
        let p : Pub := ⟨id, j.done + 1, j.passStart, t, j.passLate, fl, partEpoch s j.part, j.energy / 1000 - j.start0 / 1000, now s⟩
        let s := updJob s id fun j =>
          { j with done := j.done + 1, passStart := t, passLate := false, start0 := j.energy, epoch := p.epoch }
        if j.rlen = 0 ∨ j.rchan = 0xFF then
          let s := if lapsed ∧ !j.passLate then missDeadline s j p.pass (j.passStart + 1000 * j.deadlineUs) else s
          passEvent s j p 0 (fl + 4 * b2n (p.late || decide lapsed))
        else
          let (bad, s) := resultScan s j.rsrc j.rlen
          if bad then jobKill (consume s 0xC 13 0 id (glob s j.rsrc)) id 0x4C
          else tryPublish { s with fw := { s.fw with pubs := s.fw.pubs ++ [{ p with ts := now s }] } } j.rchan

/-- A job that is complete, aborted or killed leaves its partition. -/
def passLeave (s : State) (id : Nat) : State :=
  match jobOf s id with
  | none => s
  | some j =>
    match j.killCode, j.ending with
    | some c, _ => jobEnd s id c .killed
    | none, some c => jobEnd s id c (if c = 0x07 then .done else .aborted)
    | none, none =>
      if j.passes ≠ 0 ∧ j.passes ≤ j.done then jobFinish (updJob s id fun j => { j with left := true }) id else s

/-- R391 step 3: a RUNNING job begins its last pass. -/
def lastPass (s : State) : Bool :=
  s.fw.jobs.any fun j => installed j && ((j.passes != 0 && j.passes ≤ j.done + 1) || j.ending.isSome || j.killCode.isSome)

/-- R493: once the Shallows program has stopped, boot firmware restores the write grants of region 61.
Assumption log: 46 (DEDUCED). -/
def regionRestore (s : State) (p : Prog) : State :=
  if p.handle = 0 then wrF s (rMemRgnMask 61) 31 16 0xA300 else s

/-- The program ends (R392): every job of it ends with a code, admitted or running. -/
def progEnd (s : State) (code : Nat) : State :=
  let s := wrB (engineOff (foldS switchDrop s.fw.switches s) false) rEngCtl 2 false
  let s := foldS (fun s j =>
    if jobLive j || installed j then
      match j.killCode with
      | some c => jobEnd s j.id c .killed
      | none => jobEnd s j.id code .aborted
    else s) s.fw.jobs s
  let s := match s.fw.prog with
    | some p => updObj (regionRestore s p) p.handle fun o => { o with inUse := false }
    | none => s
  updRoot { s with fw := { s.fw with prog := none, stopping := false } } fun r => { r with inUse := r.inUse.set 3 none }

/-- R392: PROGRAM_STOP is complete once the engine is parked, or where it does not run. -/
def stopDone (s : State) : State :=
  if s.fw.stopping && (parkedB s || !running s) then progEnd s 0xA5 else s

/-- PROGRAM_STOP (R392). -/
def programStop (s : State) (q : Rq) (e : List Byte) : State :=
  match s.fw.prog with
  | none => respond s q 0 []
  | some _ =>
    let s := toSkerries (respond (wrB s rEngCtl 2 true) q 0 []) e
    stopDone { s with fw := { s.fw with stopping := true } }

/-- PROGRAM_STOP on pair r; without a request, firmware goes on with the stop that waits for the park. -/
def execProgramStop (r : Nat) (s : State) : Out := .next (stopDone (onReq s r 0x21 programStop))

/-- R391 step 4: at a park of a CG = 0 program that is not at its last bar, firmware writes STOP := 0 and then STOP := 1, so that the
engine goes on to a later portable tie-point. A park that a stop or a migration waits for is left. -/
def parkOn (s : State) (p : Prog) : State :=
  if !p.cg && parkedB s && rdF s rEngTieStatus 19 0 != p.barCount - 1 && !s.fw.stopping && (shapeClass s).toNat == p.cls then
    wrB (stopClear s) rEngCtl 2 true
  else s

/-- PASS_BOUNDARY: the last bar's portable tie-point has been released since the boundary that firmware served last.
Assumption log: 64 (DEDUCED). -/
def execPassBoundary (s : State) : Out :=
  match s.fw.prog with
  | none => .next s
  | some p =>
    if (rd s rCpPassCnt).toNat = s.fw.passSeen ∨ rdF s rEngTieStatus 19 0 ≠ p.barCount - 1 then .next (parkOn s p)
    else
      let t := rd64 s rCpPassTsLo rCpPassTsHi
      let s := traceRec { s with fw := { s.fw with passSeen := (rd s rCpPassCnt).toNat } } 1 0
      let s := energyRead s
      let ids := (s.fw.jobs.filter installed).map fun j => j.id
      let gone := (s.fw.jobs.filter fun j => j.left && j.st == .running && j.ending.isSome).map fun j => j.id
      let s := foldS (passEnd t) ids s
      let s := ctrRead (arithClear s (bitList 8 p.place))
      let s := foldS passLeave (ids ++ gone) s
      if s.fw.stopping then .next (if p.handle = 0 then progEnd s 0xA5 else stopDone s)
      else if p.cg then .next (switchesGo (foldS (switchTake t) s.fw.switches s))
      else if parkedB s then .next (wrB (engineOff s false) rEngCtl 2 false)
      else .next (if lastPass s then wrB s rEngCtl 2 true else s)

/-- R391 steps 1 and 2: what partition `part` is given: its own RUNNING job, its oldest QUEUED job, or nothing. -/
def idleInstall (p : Prog) (s : State) (part : Nat) : State :=
  let ks := partClus s part
  let job := match holderOf s part with
    | some j => some j
    | none => queuedOf s part
  match job with
  | none => foldS (fun s k => wr (setArgs s k []) (rCpJobCl k) 0) ks s
  | some j => seedWrite (foldS (fun s k => wr (setArgs s k j.ext) (rCpJobCl k) (BitVec.ofNat 32 j.id)) ks s) p j

/-- Every QUEUED job that has been installed becomes RUNNING at the enable. -/
def idleRun (t : Nat) (s : State) (part : Nat) : State :=
  match holderOf s part, queuedOf s part with
  | none, some j =>
    jobState (updJob s j.id fun j => { j with passStart := t, start0 := j.energy, epoch := partEpoch s part }) j.id 0 .running
  | some j, _ => updJob s j.id fun j => { j with passStart := t }
  | none, none => s

/-- JOB_SWITCH_IDLE (R391): the program, whose last bar has CG = 0, is idle and a job waits or runs. -/
def execJobSwitchIdle (s : State) : Out :=
  match s.fw.prog with
  | none => .next s
  | some p =>
    if p.cg ∨ rdB s rEngCtl 0 ∨ s.fw.stopping ∨ !(s.fw.jobs.any fun j => j.st == .queued || installed j) then .next s
    else
      let parts := partsOf p
      let s := foldS (idleInstall p) parts (energyRead s)
      let s := engineTry (wr (tagsSet (unitsOn s p) p 0) rEngStartBar 0)
      if !rdB s rEngCtl 0 then .next s
      else
        let t := rd64 s rCpPassTsLo rCpPassTsHi
        let s := ctrRead (foldS (idleRun t) parts s)
        let s := { s with fw := { s.fw with passSeen := (rd s rCpPassCnt).toNat } }
        .next (if lastPass s then wrB s rEngCtl 2 true else s)

end Sys2Proof.Machine
end

