-- ==== Sys2Proof/Machine/LinkMgmt.lean ====
section
/-! DEFINITION. Membership of a system of chips and its management messages (15 sections 3 and 4). A message row sends where
this chip is the sender of Table 15.7, and otherwise acts on the oldest message of its kind that has been received. -/

namespace Sys2Proof.Machine
open Sys2Proof

/-- DDL_CHIP.ROLE: 0 lone, 1 Headland, 2 Skerry. -/
def roleOf (s : State) : Nat := rdF s rDdlChip 31 30

/-- The chip's SERIAL (R427). -/
def serialOf (s : State) : Nat := rd64 s rDdlSerialLo rDdlSerialHi

/-- The serial of the chip's Headland; the own serial when lone (Table 15.6). -/
def hlSerialOf (s : State) : Nat := s.lk.hlSerial.getD (serialOf s)

/-- Changing LINKl_STATUS.STATE. -/
def setLink (s : State) (l v : Nat) : State := wrF s (rLinkStatus l) 31 28 v

/-- PEER_CHIP of link l. -/
def peerChip (s : State) (l : Nat) : Nat := rdF s (rLinkStatus l) 13 8

/-! ### Messages (R429) -/

/-- A 64-byte MGMT message: SUB, and its fields from byte 8. -/
def mgmtMsg (sub : Nat) (fields : List Byte) : List Byte :=
  (leBytes 8 sub ++ fields ++ List.replicate 56 0).take 64

/-- A MGMT segment leaves on a link, to the chip at its other end, or on the route to a chip. -/
def mgmtSeg (s : State) (via : Option Nat) (dst : Nat) (d : List Byte) : State :=
  match via with
  | some l => enqueue s l { seg0 s 7 (peerChip s l) 0 64 0 0 0 with data := d }
  | none => (segSend s { seg0 s 7 dst 0 64 0 0 0 with data := d }).2

/-- A message that waits for its ACK is sent. -/
def mgmtSend (s : State) (via : Option Nat) (dst : Nat) (d : List Byte) : State :=
  let s := mgmtSeg s via dst d
  { s with lk := { s.lk with mgmt := s.lk.mgmt ++ [⟨dst, via, d, now s, 1⟩] } }

/-- The oldest received message of a kind, which leaves the inbox. -/
def mgmtTake (s : State) (sub : Nat) : Option (Nat × Nat × List Byte) × State :=
  match s.lk.inbox.find? fun m => leAt m.2.2 0 1 == sub with
  | none => (none, s)
  | some m => (some m, { s with lk := { s.lk with inbox := s.lk.inbox.erase m } })

/-- The way back to the sender of a received message: its link while that link carries only VC3. -/
def backVia (s : State) (l : Nat) : Option Nat := if linkState s l = 3 then some l else none

/-- ACK of a received message. -/
def mgmtAck (s : State) (m : Nat × Nat × List Byte) (code ix : Nat) : State :=
  mgmtSeg s (backVia s m.1) m.2.1 (mgmtMsg 7 (leBytes 1 (leAt m.2.2 0 1) ++ leBytes 1 code ++ leBytes 1 ix))

/-- Changing the peers. -/
def updPeers (s : State) (f : List Peer → List Peer) : State := { s with lk := { s.lk with peers := f s.lk.peers } }

/-- PROBE: the Headland probes the chip on a link that carries only VC3, or (when it rebuilds its map) a chip by its number;
another chip answers the probe it received with ACK. -/
def execProbe (via : Option Nat) (c : Nat) (s : State) : Out :=
  if roleOf s = 1 then .next (mgmtSend s via c (mgmtMsg 1 []))
  else match mgmtTake s 1 with
    | (some m, s) => .next (mgmtAck s m 0 0)
    | (none, s) => .next s

/-- The fields of IDENT (Table 15.7). -/
def identFields (s : State) (ver base mib : Nat) : List Byte :=
  leBytes 8 (serialOf s) ++ leBytes 2 0x0096 ++ leBytes 1 0xB1 ++ leBytes 1 (roleOf s) ++
    leBytes 4 (shapeClass s).toNat ++ leBytes 4 ver ++ leBytes 8 base ++ leBytes 4 mib

/-- The Headland records an IDENT. -/
def identIn (s : State) (m : Nat × Nat × List Byte) : State :=
  let ser := leAt m.2.2 8 8
  let chip := if linkState s m.1 = 3 then none else some m.2.1
  let s := updPeers s fun ps =>
    if ps.any fun p => p.serial == ser then ps.map fun p => if p.serial = ser then { p with ident := m.2.2 } else p
    else ps ++ [{ serial := ser, chip := chip, link := m.1, ident := m.2.2 }]
  mgmtAck s m 0 0

/-- IDENT: a Skerry reports itself, with its firmware version and staging area; the Headland takes the report. `via` is the
link to the Headland while the chip has no number. -/
def execIdent (via : Option Nat) (ver base mib : Nat) (s : State) : Out :=
  if roleOf s = 1 then
    match mgmtTake s 2 with
    | (some m, s) => .next (identIn s m)
    | (none, s) => .next s
  else if roleOf s = 2 then
    .next (mgmtSend s via (rdF s rDdlChip 21 16) (mgmtMsg 2 (identFields s ver base mib)))
  else .next s

/-! ### Numbers (R430) -/

/-- Whether a number is in use. -/
def numUsed (s : State) (n : Nat) : Bool :=
  n == ownChip s || s.lk.peers.any fun p => !p.left && (p.chip == some n || p.offer == some n)

/-- R430: the number for a serial, and the reservation that gives way to it.
Assumption log: 63 (DEDUCED). -/
def numFor (s : State) (ser : Nat) : Option (Nat × Option Nat) :=
  let mine := s.lk.resv.find? fun r => r.1 == ser && !numUsed s r.2.1
  let free := (upto 64).find? fun n => n != 0 && !numUsed s n && !(s.lk.resv.any fun r => r.2.1 == n)
  let old := (s.lk.resv.filter fun r => !numUsed s r.2.1).foldl
    (fun (a : Option (Nat × Nat × Nat)) r => match a with
      | some b => if r.2.2 < b.2.2 then some r else a
      | none => some r) none
  match mine, free, old with
  | some r, _, _ => some (r.2.1, some r.1)
  | none, some n, _ => some (n, none)
  | none, none, some r => some (r.2.1, some r.1)
  | none, none, none => none

/-- The Headland assigns a number to peer i, or logs SYSTEM_FULL. -/
def assignOut (s : State) (i : Nat) : State :=
  match s.lk.peers[i]? with
  | none => s
  | some p =>
    if p.chip.isSome || p.left then s
    else
      let pick := match p.offer with
        | some n => some (n, none)
        | none => numFor s p.serial
      match pick with
      | none => logMsg s 0xB 0x7D (leBytes 8 p.serial)
      | some (n, gone) =>
        let s := updPeers s fun ps => ps.modify i fun p => { p with offer := some n }
        let s := { s with lk := { s.lk with resv := s.lk.resv.filter fun r => some r.1 != gone } }
        mgmtSend s (some p.link) 0 (mgmtMsg 3 (leBytes 1 n ++ leBytes 1 (ownChip s)))

/-- A chip accepts ASSIGN, or defers it while its engine runs. -/
def assignIn (s : State) (m : Nat × Nat × List Byte) : State :=
  if running s then mgmtAck s m 0x79 0
  else
    let s := wr s rDdlChip (BitVec.ofNat 32 (2 * 2 ^ 30 + leAt m.2.2 9 1 % 64 * 2 ^ 16 + leAt m.2.2 8 1 % 64))
    let s := mgmtAck s m 0 0
    foldS (fun s l => if linkState s l = 3 then setLink s l 4 else s) (upto 6) s

/-- ASSIGN: the Headland offers peer i a number; another chip takes the number it received. -/
def execAssign (i : Nat) (s : State) : Out :=
  if roleOf s = 1 then .next (assignOut s i)
  else match mgmtTake s 3 with
    | (some m, s) => .next (assignIn s m)
    | (none, s) => .next s

/-- ASSIGN_RETRY: the Headland offers again a number that was deferred, or probes again a chip left unassigned. -/
def execAssignRetry (i : Nat) (s : State) : Out :=
  if roleOf s ≠ 1 then .next s
  else match s.lk.peers[i]? with
    | none => .next s
    | some p =>
      if p.chip.isSome || p.left then .next s
      else if p.offer.isSome || (numFor s p.serial).isSome then .next (assignOut s i)
      else .next (mgmtSend s (some p.link) 0 (mgmtMsg 1 []))

/-! ### Routes -/

/-- A route table of 64 nibbles is written to DDL_ROUTEc. -/
def routesWrite (s : State) (t : List Nat) : State :=
  foldS (fun s c =>
    let n := t.getD c 0
    wr s (rDdlRoute c) (BitVec.ofNat 32 (b2n (bitN n 3) * 2 ^ 31 + n % 8))) (upto 64) s

/-- 64 nibbles as 32 bytes, the lower chip in the lower nibble. -/
def routeBytes (t : List Nat) : List Byte :=
  (upto 32).map fun i => BitVec.ofNat 8 (t.getD (2 * i) 0 % 16 + t.getD (2 * i + 1) 0 % 16 * 16)

/-- The nibbles of a ROUTES message. -/
def routeNibs (d : List Byte) : List Nat := (upto 64).map fun c => bitsN (leAt d (8 + c / 2) 1) (c % 2 * 4) 4

/-- The Headland gives a chip its route table. -/
def routesOut (s : State) (c : Nat) (t : List Nat) : State :=
  let s := { s with lk := { s.lk with tables := s.lk.tables.filter (fun x => x.1 != c) ++ [(c, t)] } }
  if c = ownChip s then routesWrite s t else mgmtSend s none c (mgmtMsg 4 (routeBytes t))

/-- ROUTES: the Headland sends chip c the table that it has computed; another chip writes the table it received.
Assumption log: 63 (DEDUCED). -/
def execRoutes (c : Nat) (tbl : List Nat) (s : State) : Out :=
  if roleOf s = 1 then .next (routesOut s c tbl)
  else match mgmtTake s 4 with
    | (some m, s) => .next (mgmtAck (routesWrite s (routeNibs m.2.2)) m 0 0)
    | (none, s) => .next s

/-! ### Windows across chips (R432) -/

/-- The MASK bits of agent 12 for RD and WR. -/
def remoteBits (rd wr : Bool) : Nat := b2n rd * 2 ^ 12 + b2n wr * 2 ^ 28

/-- Whether region r covers a range, in bytes. -/
def rgnCovers (s : State) (r a b : Nat) : Bool := (rgnRange s r).1 ≤ a && b ≤ (rgnRange s r).2

/-- R432: the target grants a range to agent 12: by a region that grants it already, by an unlocked region that covers it, or
by an unused one. The code of the check that refuses, and the region. -/
def winGrant (s : State) (rd' wr' : Bool) (base size : Nat) : (Nat × Nat) × State :=
  let a := 0x10000 * base
  let b := a + 0x10000 * size
  let m := remoteBits rd' wr'
  let on (r : Nat) := rdB s (rMemRgnCtl r) 31 && rgnCovers s r a b
  match (upto 64).find? fun r => on r && (rd s (rMemRgnMask r)).toNat &&& m == m with
  | some r => ((0, r), s)
  | none => match (upto 64).find? fun r => on r && !rdB s (rMemRgnCtl r) 30 with
    | some r => ((0, r), wr s (rMemRgnMask r) (rd s (rMemRgnMask r) ||| BitVec.ofNat 32 m))
    | none => match (upto 64).find? fun r => !rdB s (rMemRgnCtl r) 31 with
      | none =>
        let (c, s) := freeCode s
        ((c, 0), s)
      | some r =>
        let s' := wr (wr (wr s (rMemRgnBase r) (BitVec.ofNat 32 base)) (rMemRgnSize r) (BitVec.ofNat 32 size))
          (rMemRgnMask r) (BitVec.ofNat 32 m)
        let code := regionCheck s' r
        ((code, r), if code = 0 then wrB s' (rMemRgnCtl r) 31 true else s')

/-- The target takes the grant of a range back, from the unlocked region that covers it. -/
def winRevoke (s : State) (rd' wr' : Bool) (base size : Nat) : Nat × State :=
  let a := 0x10000 * base
  let b := a + 0x10000 * size
  match (upto 64).find? fun r => rdB s (rMemRgnCtl r) 31 && !rdB s (rMemRgnCtl r) 30 && rgnCovers s r a b with
  | some r => (r, wr s (rMemRgnMask r) (rd s (rMemRgnMask r) &&& ~~~(BitVec.ofNat 32 (remoteBits rd' wr'))))
  | none => (0, s)

/-- The source enables a window onto another chip.
Assumption log: 27 (DEDUCED). -/
def winEnable (s : State) (peer : Nat) (rd' wr' : Bool) (base size : Nat) : (Nat × Nat) × State :=
  match (upto 32).find? fun i => !rdB s (rMemWinCtl i) 31 && !winBusy s i with
  | none =>
    let (c, s) := freeCode s
    ((c, 0), s)
  | some i =>
    let s' := wr (wr (wr s (rMemWinBase i) (BitVec.ofNat 32 base)) (rMemWinSize i) (BitVec.ofNat 32 size))
      (rMemWinCtl i) (BitVec.ofNat 32 (b2n rd' * 2 ^ 29 + b2n wr' * 2 ^ 28 + peer % 64))
    let code := windowCheck s' i
    ((code, i), if code = 0 then wrB s' (rMemWinCtl i) 31 true else s')

/-- The windows of this chip onto a range of another. -/
def winFind (s : State) (peer base size : Nat) : Option Nat :=
  (upto 32).find? fun i => rdF s (rMemWinCtl i) 5 0 == peer && rdF s (rMemWinBase i) 23 0 == base &&
    rdF s (rMemWinSize i) 23 0 == size && (rdB s (rMemWinCtl i) 31 || winBusy s i)

/-- The source disables its window: the index, and whether it is still BUSY. -/
def winDisable (s : State) (peer base size : Nat) : (Nat × Bool) × State :=
  match winFind s peer base size with
  | none => ((0, false), s)
  | some i =>
    let s := winShut s i
    ((i, winBusy s i), s)

/-- The fields of WIN_OPEN and WIN_CLOSE. -/
def winFields (w : SysWin) (asSrc : Bool) : List Byte :=
  leBytes 1 (b2n asSrc) ++ leBytes 1 (if asSrc then w.dst else w.src) ++ leBytes 1 (b2n w.rd) ++ leBytes 1 (b2n w.wr) ++
    leBytes 4 w.base ++ leBytes 4 w.size

/-- Whether two windows are the same. -/
def sameWin (a b : SysWin) : Bool := a.src == b.src && a.dst == b.dst && a.base == b.base && a.size == b.size

/-- Removing or changing a window of the Headland's list. -/
def winSet (s : State) (w : SysWin) (st : Option WinStage) : State :=
  let rest := s.lk.wins.filter fun v => !sameWin v w
  { s with lk := { s.lk with wins := match st with
    | some st => rest ++ [{ w with stage := st }]
    | none => rest } }

/-- Whether another open window needs the grant of w. -/
def winShared (s : State) (w : SysWin) : Bool :=
  s.lk.wins.any fun v => !sameWin v w && v.stage == .isOpen && v.dst == w.dst &&
    v.base < w.base + w.size && w.base < v.base + v.size

/-- The chip on which a stage acts, whether it acts there as source, and whether it opens. -/
def stageAt (w : SysWin) : WinStage → Nat × Bool × Bool
  | .grant => (w.dst, false, true)
  | .enable => (w.src, true, true)
  | .isOpen => (w.src, true, true)
  | .closing => (w.src, true, false)
  | .revoke => (w.dst, false, false)

/-- The stage after one that ended with a code; none where the window is gone.
Assumption log: 63 (DEDUCED). -/
def stageNext (s : State) (w : SysWin) (code : Nat) : WinStage → Option WinStage
  | .grant => if code = 0 then some .enable else none
  | .enable => if code = 0 then some .isOpen else some .revoke
  | .isOpen => some .isOpen
  | .closing => if winShared s w then none else some .revoke
  | .revoke => none

/-- R434: a stage of a window ended with a code; a refusal is kept for the multi-chip start that waits for its windows. -/
def winNote (s : State) (w : SysWin) (code : Nat) : State :=
  match s.fw.multi with
  | some m => if code = 0 then s else { s with fw := { s.fw with multi := some { m with refused := m.refused ++ [(w, code)] } } }
  | none => s

/-- A stage on this chip: its code, or none while the window is BUSY. -/
def winLocal (s : State) (w : SysWin) : WinStage → Option Nat × State
  | .grant => let (r, s) := winGrant s w.rd w.wr w.base w.size; (some r.1, s)
  | .enable => let (r, s) := winEnable s w.dst w.rd w.wr w.base w.size; (some r.1, s)
  | .isOpen => (none, s)
  | .closing => let (r, s) := winDisable s w.dst w.base w.size; (if r.2 then none else some 0, s)
  | .revoke => (some 0, (winRevoke s w.rd w.wr w.base w.size).2)

/-- The Headland begins a stage of a window: it tells the chip concerned, or acts itself and goes on, over at most n
stages.
Assumption log: 63 (DEDUCED). -/
def winGo (s : State) (w : SysWin) (st : WinStage) : Nat → State
  | 0 => s
  | n + 1 =>
    let s := winSet s w (some st)
    let (c, asSrc, opens) := stageAt w st
    if st = .isOpen then s
    else if c ≠ ownChip s then mgmtSend s none c (mgmtMsg (if opens then 5 else 6) (winFields w asSrc))
    else match winLocal s w st with
      | (none, s) => s
      | (some code, s) =>
        let s := winNote s w code
        match stageNext s w code st with
        | none => winSet s w none
        | some st' => winGo s w st' n

/-- The Headland hears how a stage ended. -/
def winAck (s : State) (w : SysWin) (code : Nat) : State :=
  let s := winNote s w code
  match stageNext s w code w.stage with
  | none => winSet s w none
  | some st => winGo s w st 4

/-- A chip acts on WIN_OPEN. -/
def winOpenIn (s : State) (m : Nat × Nat × List Byte) : State :=
  let d := m.2.2
  let rd' := leAt d 10 1 != 0
  let wr' := leAt d 11 1 != 0
  let (r, s) := if leAt d 8 1 = 0 then winGrant s rd' wr' (leAt d 12 4) (leAt d 16 4)
    else winEnable s (leAt d 9 1) rd' wr' (leAt d 12 4) (leAt d 16 4)
  mgmtAck s m r.1 r.2

/-- WIN_OPEN: the Headland opens a window from chip src onto a range of chip dst; another chip acts on the message it
received. -/
def execWinOpen (src dst : Nat) (rd' wr' : Bool) (base size : Nat) (s : State) : Out :=
  if roleOf s = 1 then .next (winGo s ⟨src, dst, rd', wr', base, size, .grant⟩ .grant 4)
  else match mgmtTake s 5 with
    | (some m, s) => .next (winOpenIn s m)
    | (none, s) => .next s

/-- WIN_CLOSE: the Headland closes a window; another chip acts on the message it received, once BUSY reads 0 (R355). -/
def execWinClose (src dst base size : Nat) (s : State) : Out :=
  if roleOf s = 1 then
    match s.lk.wins.find? fun w => w.src == src && w.dst == dst && w.base == base && w.size == size with
    | none => .next s
    | some w => .next (winGo s w .closing 4)
  else match s.lk.inbox.find? fun m => leAt m.2.2 0 1 == 6 with
    | none => .next s
    | some m =>
      let d := m.2.2
      let drop (s : State) : State := { s with lk := { s.lk with inbox := s.lk.inbox.erase m } }
      if leAt d 8 1 = 0 then
        let (i, s) := winRevoke s (leAt d 10 1 != 0) (leAt d 11 1 != 0) (leAt d 12 4) (leAt d 16 4)
        .next (mgmtAck (drop s) m 0 i)
      else
        let (r, s) := winDisable s (leAt d 9 1) (leAt d 12 4) (leAt d 16 4)
        .next (if r.2 then s else mgmtAck (drop s) m 0 r.1)

/-! ### Acknowledgement, resending, leaving -/

/-- The ACK of an ASSIGN: the number is taken, or deferred. -/
def assignAck (s : State) (d : List Byte) (code : Nat) : State :=
  if code ≠ 0 then s
  else
    let n := leAt d 8 1
    match s.lk.peers.find? fun p => p.offer == some n with
    | none => s
    | some p =>
      let s := updPeers s fun ps => ps.map fun q => if q.serial = p.serial then { q with chip := some n, offer := none } else q
      if linkState s p.link = 3 then setLink s p.link 4 else s

/-- What an ACK of a message does at its sender. -/
def ackedBy (s : State) (q : Mgmt) (code : Nat) : State :=
  let sub := leAt q.data 0 1
  if sub = 3 then assignAck s q.data code
  else if sub = 5 ∨ sub = 6 then
    match s.lk.wins.find? fun w =>
      q.dst == (stageAt w w.stage).1 && winFields w (stageAt w w.stage).2.1 == slice q.data 8 12 with
    | some w => winAck s w code
    | none => s
  else s

/-- MGMT_ACK: the oldest ACK received ends the message it answers. -/
def execMgmtAck (s : State) : Out :=
  match mgmtTake s 7 with
  | (none, s) => .next s
  | (some m, s) =>
    let isFor (q : Mgmt) := leAt q.data 0 1 == leAt m.2.2 8 1 && (q.via == some m.1 || (q.via.isNone && q.dst == m.2.1))
    match s.lk.mgmt.find? isFor with
    | none => .next s
    | some q => .next (ackedBy { s with lk := { s.lk with mgmt := s.lk.mgmt.erase q } } q (leAt m.2.2 9 1))

/-- MGMT_RESEND of message i after 1 ms without an ACK: it is resent up to 3 times, and then given up.
Assumption log: 8 (DESIGN CHOICE). -/
def execMgmtResend (i : Nat) (s : State) : Out :=
  match s.lk.mgmt[i]? with
  | none => .next s
  | some q =>
    if 4 ≤ q.sends then .next { s with lk := { s.lk with mgmt := s.lk.mgmt.eraseIdx i } }
    else
      let s := mgmtSeg s q.via q.dst q.data
      .next { s with lk := { s.lk with mgmt := s.lk.mgmt.modify i fun q => { q with at0 := now s, sends := q.sends + 1 } } }

/-- R431: chip c departs at the Headland: the routes without it go to every chip, every window that names it closes, and a
NOTICE record is logged. -/
def chipDepart (s : State) (c : Nat) : State :=
  match s.lk.peers.find? fun p => !p.left && p.chip == some c with
  | none => s
  | some p =>
    let s := updPeers s fun ps => ps.filter fun q => q.serial != p.serial
    let s := { s with lk := { s.lk with resv := s.lk.resv.filter (fun r => r.1 != p.serial) ++ [(p.serial, c, now s)] } }
    let s := foldS (fun s t => routesOut s t.1 (t.2.set c 0)) (s.lk.tables.filter fun t => t.1 != c) s
    let s := { s with lk := { s.lk with tables := s.lk.tables.filter fun t => t.1 != c } }
    let s := foldS (fun s w =>
      if w.src = c then (if winShared s w then winSet s w none else winGo s w .revoke 4)
      else if w.dst = c then winGo s w .closing 4 else s) s.lk.wins s
    logRec s 2 0xB 0 0 0 (leBytes 1 c ++ leBytes 8 p.serial)

/-- LEAVE: a Skerry whose engine has stopped leaves; the Headland lets the chip go. -/
def execLeave (s : State) : Out :=
  if roleOf s = 1 then
    match mgmtTake s 8 with
    | (some m, s) => .next (chipDepart (mgmtAck s m 0 0) m.2.1)
    | (none, s) => .next s
  else if roleOf s = 2 && !running s then .next (mgmtSend s none (rdF s rDdlChip 21 16) (mgmtMsg 8 []))
  else .next s

/-- CHIP_DEPART: the Headland has had no route to chip c for 10 ms. -/
def execChipDepart (c : Nat) (s : State) : Out := if roleOf s = 1 then .next (chipDepart s c) else .next s

/-- R428 step 1: whether (HEAD_PREF, SERIAL) a is above b.
Assumption log: 63 (DEDUCED). -/
def prefAbove (a b : Nat × Nat) : Bool := decide (b.1 < a.1) || (a.1 == b.1 && decide (b.2 < a.2))

/-- HEADLAND_ELECTION among the Skerries that still have a route to one another: their (HEAD_PREF, SERIAL, number), this
chip's left out.
Assumption log: 63 (DEDUCED). -/
def execHeadlandElection (cands : List (Nat × Nat × Nat)) (s : State) : Out :=
  if roleOf s ≠ 2 then .next s
  else
    let me := (rdF s rDdlPref 3 0, serialOf s, ownChip s)
    let w := cands.foldl (fun a c => if prefAbove (c.1, c.2.1) (a.1, a.2.1) then c else a) me
    let s := wrF s rDdlChip 21 16 w.2.2
    let s := { s with lk := { s.lk with hlSerial := some w.2.1 } }
    .next (if w.2.1 = serialOf s then wrF s rDdlChip 31 30 1 else s)

/-- LONE_TIMEOUT: a chip with no ACTIVE link for 10 ms closes every window it holds, and becomes lone when its engine is not
running.
Assumption log: 8 (DESIGN CHOICE). -/
def execLoneTimeout (s : State) : Out :=
  if (upto 6).any (fun l => linkState s l == 4) || roleOf s == 0 then .next s
  else
    let s := foldS winShut (upto 32) s
    .next (if running s then { s with lk := { s.lk with loneWait := true } } else goLone s)

/-! ### Election at the end of training (R428) -/

/-- Joining the system of the peer as a Skerry: the link carries only VC3. -/
def joinAs (s : State) (l hl : Nat) : State :=
  let s := wrF s rDdlChip 31 30 2
  setLink { s with lk := { s.lk with hlSerial := some hl } } l 3

/-- A new Skerry appears on link l. -/
def takeIn (s : State) (l ser : Nat) : State :=
  let s := setLink s l 3
  if roleOf s = 1 then updPeers s fun ps => ps.filter (fun p => p.serial != ser) ++ [{ serial := ser, chip := none, link := l }]
  else s

/-- R428: the chips at the two ends of a trained link resolve membership.
Assumption log: 63 (DEDUCED). -/
def elect (s : State) (l : Nat) (p : Ctrl) : State :=
  let me := (rdF s rDdlPref 3 0, serialOf s)
  let lone := roleOf s == 0
  if lone && p.role == 0 then
    if prefAbove me (p.pref, p.serial) then
      takeIn { wrF s rDdlChip 31 30 1 with lk := { s.lk with hlSerial := some (serialOf s) } } l p.serial
    else joinAs s l p.serial
  else if lone then joinAs s l p.hlSerial
  else if p.role = 0 then takeIn s l p.serial
  else if p.hlSerial = hlSerialOf s then setLink s l 4
  else
    let s := wrF (wrB (setLink s l 6) (rLinkFlags l) 5 true) (rLinkReason l) 7 0 0x75
    logMsg s 0xB 0x75 (leBytes 1 l)

/-- LINK_TRAINED of link l on some lanes: ELECT, and membership by the first CTRL flit of the peer. -/
def execLinkTrained (l lanes : Nat) (peer : Ctrl) (s : State) : Out :=
  if linkState s l ≠ 1 then .next s
  else
    let s := wrF (setLink s l 2) (rLinkStatus l) 23 16 lanes
    let s := wrF (wrF s (rLinkStatus l) 13 8 peer.chip) (rLinkStatus l) 6 4 peer.link
    .next (elect (updLnk s l fun k => { k with peer := some peer }) l peer)

/-- LINK_TRAIN_FAILED: a training attempt of link l does not complete. -/
def execLinkTrainFailed (l : Nat) (s : State) : Out :=
  if linkState s l ≠ 1 then .next s
  else .next (logMsg (incr s (rLinkTrainFailCnt l)) 0xB 0x72 (leBytes 1 l))

end Sys2Proof.Machine
end

