-- ==== Sys2Proof/Machine/Links.lean ====
section
/-! DEFINITION. The Dardar links (15 sections 1 and 2): flits, replay, loss of lanes and links, segments and the ends of
remote operations. -/

namespace Sys2Proof.Machine
open Sys2Proof

/-! ### The end of a remote operation (R433) -/

/-- An operation of a cluster that ends with nothing delivered and nothing written. -/
def opDrop (s : State) (k xid ix : Nat) : State :=
  let had := (clu s k).ops.any fun y => y.xid == xid && y.ix == ix && y.data.isSome
  let s := if had then s else updXfer s k xid fun x => { x with reads := x.reads + 1 }
  opAck (readsDone s k xid) k xid ix

/-- An operation of a DMA channel that ends with nothing delivered and nothing written. -/
def dmaDrop (s : State) (n ix : Nat) : State :=
  let had := (dmaOf s n).ops.any fun y => y.ix == ix && y.data.isSome
  let s := if had then s else updDma s n fun d => { d with xfer := d.xfer.map fun x => { x with reads := x.reads + 1 } }
  ackTo s (.dma n) 0 ix 0 0 0 0

/-- The agent of an owner's operations. -/
def whoOwner (s : State) (o : ROp) : Who :=
  match o.owner with
  | .dma n => whoDma s n
  | .cluster k => whoClu k o.job
  | _ => ⟨0xB, 12, o.job, none, none⟩

/-- Table 15.8: a remote operation ends: status (0 OK, 1 REFUSED with a code, 2 POISON, 3 STALE) and, for a read, the data
with the poison flag of each byte. What an agent of the fabric reads is delivered; its length is kept in place of an index. -/
def ropEnd (s : State) (o : ROp) (status code : Nat) (bs : List Byte) (ps : List Bool) : State :=
  let w := whoOwner s o
  let s := { s with lk := { s.lk with ops := s.lk.ops.filter fun p => p.tag != o.tag } }
  let s := if status = 1 then logRefusal s w.isl code w.agent o.job o.addr else s
  let stale := status == 3
  match o.owner with
  | .cluster k =>
    if stale then opDrop s k o.xid o.ix
    else if o.rd then
      let n := (((clu s k).ops.find? fun y => y.xid == o.xid && y.ix == o.ix).map fun y => y.len).getD 0
      let s := updOp s k o.xid o.ix fun y => { y with tag := none }
      if status = 0 then opData s k o.xid o.ix bs ps
      else opData s k o.xid o.ix (List.replicate n 0) (List.replicate n true)
    else if status = 1 then
      let n := (((clu s k).ops.find? fun y => y.xid == o.xid && y.ix == o.ix).map fun y => y.len).getD 0
      opDenied s k o.xid o.ix o.addr n
    else opAck s k o.xid o.ix
  | .dma n =>
    let s := if status = 1 then dmaCode s n code else s
    if stale then dmaDrop s n o.ix
    else if o.rd then
      let len := (((dmaOf s n).ops.find? fun y => y.ix == o.ix).map fun y => y.len).getD 0
      let s := updDma s n fun d => { d with ops := d.ops.map (fun y => if y.ix = o.ix then { y with tag := none } else y) }
      if status = 0 then dmaData s n o.ix bs ps
      else dmaData s n o.ix (List.replicate len 0) (List.replicate len true)
    else if status = 1 then
      let len := (((dmaOf s n).ops.find? fun y => y.ix == o.ix).map fun y => y.len).getD 0
      dmaDenied s n o.ix o.addr len
    else ackTo s (.dma n) 0 o.ix 0 0 0 0
  | .none =>
    if !o.rd then s
    else if status = 0 then { s with mem := { s.mem with out := List.zip bs ps } }
    else { s with mem := { s.mem with out := List.replicate o.ix (0, true) } }
  | _ => s

/-- OP_TIMEOUT: no response to the operation with a TAG within DDL_OPTO.
Assumption log: 8 (DESIGN CHOICE). -/
def execOpTimeout (tag : Nat) (s : State) : Out :=
  match s.lk.ops.find? fun o => o.tag == tag with
  | none => .next s
  | some o =>
    let s := { incr s rDdlOptoCnt with lk := { s.lk with dead := s.lk.dead.filter (fun d => d.1 != tag) ++ [(tag, now s)] } }
    .next (ropEnd s o 1 0x78 [] [])

/-! ### Refusals on the way (R422, R424) -/

/-- A segment that this chip sent or forwarded is refused: a WR or RDREQ of its own ends, that of another chip is answered,
and any other segment is dropped. -/
def segRefuse (s : State) (g : Seg) (code : Nat) : State :=
  if g.kind ≠ 1 ∧ g.kind ≠ 2 then s
  else if g.src = ownChip s then
    match s.lk.ops.find? fun o => o.tag == g.tag with
    | some o => ropEnd s o 1 code [] []
    | none => s
  else (segSend s { seg0 s (if g.kind = 1 then 4 else 3) g.src g.addr 1 g.tag 0 g.job with
      len := g.len, status := 1, code := code }).2

/-- SEGMENT_FORWARD (R422). -/
def segForward (s : State) (g : Seg) : State :=
  if g.ttl = 0 then segRefuse (incr s rDdlHopCnt) g 0x77
  else match routeOf s g.dst with
    | some l => enqueue s l { g with ttl := g.ttl - 1 }
    | none => segRefuse (incr s rDdlUnreachCnt) g 0x76

/-- R424: link l goes down with a code: what it holds is refused, and it trains again. -/
def linkDown (s : State) (l code : Nat) : State :=
  let k := lnk s l
  let gs := (k.replay.flatMap fun f => f.segs) ++ k.txq
  let s := wrF (incr (wrB s (rLinkFlags l) 3 true) (rLinkDownCnt l)) (rLinkReason l) 7 0 code
  let s := wrF (setLink s l (if rdB s (rLinkCtl l) 31 && linkMay s l then 1 else 0)) (rLinkStatus l) 23 16 0
  let s := updLnk s l fun k => { keys := k.keys, keyCnt := k.keyCnt }
  let s := logMsg s 0xB code (leBytes 1 l)
  foldS (fun s g => segRefuse (incr s rDdlUnreachCnt) g 0x73) gs s

/-- LINK_DOWN of link l with its code: LINK_DOWN (0x73), or LINK_AUTH (0x74). -/
def execLinkDown (l code : Nat) (s : State) : Out :=
  if linkState s l < 2 then .next s else .next (linkDown s l code)

/-- R423: the transmitter of link l sends its replay buffer again, unchanged; the 16th replay from one SEQ takes it down.
Assumption log: 62 (DEDUCED). -/
def linkReplay (s : State) (l : Nat) : State :=
  let k := lnk s l
  let seq := match k.replay with
    | f :: _ => f.seq
    | [] => k.txSeq
  let n := if k.lastNak = seq then k.nakCnt + 1 else 1
  let s := incrBy (wrB (incr s (rLinkRetryCnt l)) (rLinkFlags l) 1 true) (rLinkTxCnt l) k.replay.length
  let s := updLnk s l fun k => { k with nakIn := false, lastNak := seq, nakCnt := n, sent := k.replay.getLast? }
  if n = 16 then linkDown s l 0x73 else s

/-- LINK_REPLAY: the transmitter of link l answers a NAK. -/
def execLinkReplay (l : Nat) (s : State) : Out :=
  if (lnk s l).nakIn && 2 ≤ linkState s l && linkState s l != 5 then .next (linkReplay s l) else .next s

/-- LANE_RETIRE of a receive lane of link l (R426). -/
def execLaneRetire (l lane : Nat) (s : State) : Out :=
  let lanes := rdF s (rLinkStatus l) 23 16
  if linkState s l < 2 || !bitN lanes lane then .next s
  else
    let left := lanes - 2 ^ lane
    let down := popN 8 left < 7 || !rdB s (rLinkCtl l) 28
    let s := wrF (incr (wrB s (rLinkFlags l) 2 true) (rLinkSpareCnt l)) (rLinkStatus l) 23 16 left
    let s := rasPost s 8 5 (if down then 0x73 else 0) 0xB 0 (l * 8 + lane) 0 0
    if down then .next (linkDown s l 0x73)
    else .next (updLnk (setLink s l 5) l fun k => { k with retire := k.retire ||| 2 ^ lane })

/-- LINK_RETRAIN_DONE: link l is in service again on its remaining lanes, and its transmitter replays. -/
def execLinkRetrainDone (l : Nat) (s : State) : Out :=
  if linkState s l ≠ 5 then .next s else .next (linkReplay (setLink s l 4) l)

/-! ### Keys (R425, R439) -/

/-- A write of KEYl_k_CTL.VALID := 1. -/
def keyLoad (s : State) (l k : Nat) : State :=
  let ws := (upto 8).map (fun i => rd s (rKeyW l k i)) ++ [rd s (rKeySalt l k)]
  updLnk (wr s (rKeyCtl l k) 1) l fun n => { n with keys := n.keys.set k ws, keyCnt := n.keyCnt.set k 0 }

/-- KEY_SLOT_LOAD of slot k of link l. -/
def execKeySlotLoad (l k : Nat) (s : State) : Out :=
  let l := l % 6
  let k := k % 2
  .next (busWrite s (rKeyCtl l k) 1 fun s => keyLoad s l k)

/-! ### Transmission (R419 to R421) -/

/-- Table 15.4: the VC of a segment kind. -/
def segVc (kind : Nat) : Nat :=
  if kind = 1 ∨ kind = 2 then 0 else if kind = 3 ∨ kind = 4 then 1 else if kind = 5 ∨ kind = 6 then 2 else 3

/-- The slots of a segment. -/
def segSlots (g : Seg) : Nat :=
  if g.kind = 2 ∨ g.kind = 4 ∨ (g.kind = 3 ∧ g.status ≠ 0) then 1 else 5

/-- Choosing segments for one flit: in queue order, passing over a VC once one of its segments lacks credit or must not be
sent, until one does not fit. The chosen segments, the rest, and the credit left.
Assumption log: 62 (DEDUCED). -/
def pickSegs (only3 : Bool) : List Seg → Nat → List Nat → List Nat → List Seg × List Seg × List Nat
  | [], _, cr, _ => ([], [], cr)
  | g :: gs, room, cr, shut =>
    let v := segVc g.kind
    let n := segSlots g
    if shut.contains v || (only3 && v != 3) || cr.getD v 0 < n then
      let (a, b, c) := pickSegs only3 gs room cr (v :: shut)
      (a, g :: b, c)
    else if room < n then ([], g :: gs, cr)
    else
      let (a, b, c) := pickSegs only3 gs (room - n) (cr.modify v fun x => x - n) shut
      (g :: a, b, c)

/-- The CTRL payload of link l (Table 15.6). The spec does not give the parity of LANE_PAR: it is free.
Assumption log: 2 (DESIGN CHOICE). -/
def ctrlOf (s : State) (l : Nat) : Ctrl × State :=
  let (n, s) := freeN s
  (⟨roleOf s, rdF s rDdlPref 3 0, ownChip s, l, serialOf s, hlSerialOf s, (upto 8).map fun i => bitsN n (8 * i) 8,
    (lnk s l).retire⟩, s)

/-- A flit of link l with its header: NAK, ACK and the freed slots. -/
def flitOf (s : State) (l typ seq : Nat) (enc : Bool) (segs : List Seg) (c : Option Ctrl) : Flit :=
  let k := lnk s l
  ⟨typ, enc, rdF s (rLinkCtl l) 29 29, k.nak, seq, k.rxSeq, k.freed.map (min 255), true, true, segs, c⟩

/-- A flit leaves: what its header reported is reported. -/
def flitOut (s : State) (l : Nat) (f : Flit) : State :=
  updLnk s l fun k => { k with nak := false, freed := k.freed.map (fun x => x - min 255 x), sent := some f }

/-- R515: as a flit is formed, T3 is inserted into a time response of this chip.
Assumption log: 55 (DEDUCED). -/
def stampT3 (s : State) (g : Seg) : Seg :=
  if g.kind = 7 ∧ g.src = ownChip s ∧ leAt g.data 0 1 = 10 then
    { g with data := (g.data.take 20 ++ leBytes 8 (now s) ++ g.data.drop 28).take 64 }
  else g

/-- R515: t1 is taken as the flit of a time request leaves.
Assumption log: 55 (DEDUCED). -/
def stampT1 (s : State) (l : Nat) (g : Seg) : State :=
  match s.io.sync with
  | some y =>
    if g.kind = 7 ∧ g.src = ownChip s ∧ leAt g.data 0 1 = 9 ∧ leAt g.data 8 4 = y.id ∧ y.link = l then
      { s with io := { s.io with sync := some { y with t1 := some (now s, (rd s (rLinkRetryCnt l)).toNat) } } }
    else s
  | none => s

/-- FLIT_TRANSMIT of link l. -/
def execFlitTransmit (l : Nat) (s : State) : Out :=
  let st := linkState s l
  if st < 2 || st == 5 then .next s
  else
    let k := lnk s l
    let enc := rdB s (rLinkCtl l) 30
    let (a, b, c) := pickSegs (st == 3) k.txq (if enc then 14 else 15) k.credit []
    if (st = 3 ∨ st = 4) ∧ k.sinceCtrl < 59 ∧ k.replay.length < 512 ∧ !a.isEmpty then
      let f := flitOf s l 1 k.txSeq enc (a.map (stampT3 s)) none
      let kid := rdF s (rLinkCtl l) 29 29
      let s := foldS (fun s g => stampT1 s l g) a (incr (flitOut s l f) (rLinkTxCnt l))
      .next (updLnk s l fun k =>
        { k with txq := b, credit := c, replay := k.replay ++ [f], txSeq := (k.txSeq + 1) % 4096,
                 sinceCtrl := k.sinceCtrl + 1,
                 keyCnt := if enc then k.keyCnt.modify kid (fun n => n + 1) else k.keyCnt })
    else
      let (p, s) := ctrlOf s l
      let s := flitOut s l (flitOf s l 2 0 false [] (some p))
      .next (updLnk s l fun k => { k with sinceCtrl := 0, retire := 0 })

end Sys2Proof.Machine
end

