-- ==== Sys2Proof/Machine/Lowwater.lean ====
section
/-! DEFINITION. Enabling and disabling a link (R417, R439), and Lowwater: the service that remains without the engine
(16 section 8). -/

namespace Sys2Proof.Machine
open Sys2Proof

/-! ### A link's enable (R439, R452) -/

/-- R439: the check of LINKl_CTL.EN; 0 where it passes. -/
def linkCheck (s : State) (l : Nat) : Nat :=
  if !rdB s rDdlCtl 0 || 1 < popN 8 (rdF s (rLinkCtl l) 7 0) then 0x70
  else if rdB s (rLinkCtl l) 30 && !rdB s (rKeyCtl l (rdF s (rLinkCtl l) 29 29)) 0 then 0x71
  else 0

/-- R452: the permanent lanes of link l are written into LANE_DIS at its next enable. -/
def linkLanes (s : State) (l : Nat) : State :=
  wrF s (rLinkCtl l) 7 0 (rdF s (rLinkCtl l) 7 0 ||| s.root.lanes.getD l 0)

/-- R417: an enable that has passed: the link trains, where the mode lets it. -/
def linkOn (s : State) (l : Nat) : State :=
  let s := wrB s (rLinkCtl l) 31 true
  if linkMay s l then setLink s l 1 else s

/-- A write of EN = 1: lanes, check, outcome. A link that a permanent lane keeps disabled is logged with UNIT_RETIRED. -/
def linkTry (s : State) (l : Nat) : State :=
  let s := linkLanes s l
  let s := if s.root.lanes.getD l 0 ≠ 0 ∧ 1 < popN 8 (rdF s (rLinkCtl l) 7 0) then logMsg s 0xC 0x90 (leBytes 1 l) else s
  let code := linkCheck s l
  let s := wrF s rDdlStatus 15 8 code
  if code = 0 then linkOn s l else s

/-- A link stops: STATE reads DOWN, and what it holds is refused as at a link down (R424).
Assumption log: 62 (DEDUCED). -/
def linkStop (s : State) (l : Nat) : State :=
  let k := lnk s l
  let gs := (k.replay.flatMap fun f => f.segs) ++ k.txq
  let s := wrF (setLink s l 0) (rLinkStatus l) 23 16 0
  let s := updLnk s l fun k => { keys := k.keys, keyCnt := k.keyCnt }
  foldS (fun s g => segRefuse (incr s rDdlUnreachCnt) g 0x73) gs s

/-- EN := 0 of link l.
Assumption log: 62 (DEDUCED). -/
def linkOff (s : State) (l : Nat) : State := linkStop (wrB s (rLinkCtl l) 31 false) l

/-- R466, R468: after a mode change, a link that the mode excludes is powered down, and an enabled one that it allows trains. -/
def linkMode (s : State) (l : Nat) : State :=
  if !rdB s (rLinkCtl l) 31 then s
  else if linkMay s l then (if linkState s l = 0 then setLink s l 1 else s)
  else if linkState s l = 0 then s else linkStop s l

/-! ### Lowwater (R462) -/

/-- The blocks that R462 excludes are disabled: the engine, its clusters and cores, the memory controller, the codecs, the shaper
and the links. -/
def lowBlocks (s : State) : State :=
  let s := engineOff s false
  let s := foldS (fun s k => wrB s (rCluCtl k) 0 false) (upto 8) s
  let s := foldS (fun s n => wrB s (rNcCtl n) 0 false) (upto 32) s
  let s := if rdB s rMemCtl 0 then memOff s else s
  let s := foldS (fun s n => if rdB s (rVidSesCtl n) 31 then sessionOff s n else s) (upto 32) (wrB s rVidCtl 0 false)
  let s := foldS (fun s q => if rdB s (rShpQCtl q) 31 then queueOff s q else s) (upto 64) (wrB s rShpCtl 0 false)
  wrB (foldS (fun s l => if rdB s (rLinkCtl l) 31 then linkOff s l else s) (upto 6) s) rDdlCtl 0 false

/-- Lowwater is entered for a cause (0 no class, 1 a DRAM device, 2 lockstep, 3 selected by power). -/
def lowEnter (s : State) (c : Nat) : State := lowBlocks (updRoot s fun r => { r with low := r.low ||| 2 ^ c })

/-- A cause of Lowwater ends. Nothing is enabled again by that. -/
def lowLeave (s : State) (c : Nat) : State := updRoot s fun r => { r with low := r.low &&& (15 - 2 ^ c) }

/-- R46, R454: no shape class remains: the program stops as under R392, and Lowwater begins.
Assumption log: 32 (DEDUCED). -/
def noClass (s : State) : State :=
  let s := if s.fw.prog.isSome then progEnd s 0xA5 else s
  lowEnter (logMsg s 0xC 0x98 []) 0

end Sys2Proof.Machine
end

