-- ==== Sys2Proof/Machine/Power.lean ====
section
/-! DEFINITION. Power modes, telemetry, capping, droop, temperature and emergencies (chapter 17). -/

namespace Sys2Proof.Machine
open Sys2Proof

/-- Changing the power controller's state. -/
def updPwr (s : State) (f : Pwr → Pwr) : State := { s with pwr := f s.pwr }

/-! ### The cap and the modes (R466 to R468) -/

/-- Table 17.1: the mode cap in mW. -/
def modeCap : Nat → Nat
  | 0 => 75000
  | 1 => 45000
  | 2 => 25000
  | _ => 8000

/-- The mode in force. -/
def modeNow (s : State) : Nat := rdF s rPwrStatus 1 0

/-- R466: the effective cap. -/
def capEff (s : State) : Nat := min (min (modeCap (modeNow s)) (rdF s rPwrCapLim 16 0)) s.pwr.therm

/-- R474: PWR_STATUS.THROTTLE. -/
def throttleShow (s : State) : State := wrB s rPwrStatus 4 (s.pwr.therm < modeCap (modeNow s))

/-- R480: the check of PWR_CTL.ENABLE. -/
def pwrCheck (s : State) : Nat :=
  let v := (upto 8).filter fun r => rdB s (rPwrRail r) 31
  let key (r : Nat) := (rdF s (rPwrRail r) 23 16, rdF s (rPwrRail r) 6 0)
  if v = [] then 0x80
  else if v.any fun a => v.any fun b => a != b && key a == key b then 0x80 else 0

/-- R467: the mode check of a change to MODE m; 0 where it passes. -/
def modeCheck (s : State) (m : Nat) : Nat :=
  if rdF s rPwrEmerg 3 0 ≠ 0 ∧ modeCap (modeNow s) < modeCap m then 0x84
  else if m = 2 ∧ (2 < popN 6 (rdF s rPwrNeapLinks 5 0) ∨ (upto 6).any fun l => !rdB s rPwrNeapLinks l && linkState s l == 4) then
    0x81
  else if m = 3 ∧ running s then 0x82
  else 0

/-- R466: the DDR rate of a mode: in Neap 6,400 MT/s (RATE 2) where full training reached a higher target; otherwise the rate
trained. -/
def ddrMode (s : State) (m : Nat) : State :=
  let t := rdF s rMemDdrCfg 10 8
  if trainState s ≠ 3 ∨ m = 3 then s
  else wrF s rMemTrainStatus 10 8 (if m = 2 ∧ 2 < t then 2 else t)

/-- R468: an accepted change: cap and ceiling, links, DDR rate; Lowwater disables what R462 excludes. The thermal cap stays at the
mode cap if it stood there, and is never above it.
Assumption log: 35 (DEDUCED), 65 (DESIGN CHOICE). -/
def modeSet (s : State) (m : Nat) : State :=
  let old := modeNow s
  let s := wrF (wrF s rPwrCtl 5 4 m) rPwrStatus 1 0 m
  let s := updPwr s fun p => { p with therm := if p.therm = modeCap old then modeCap m else min p.therm (modeCap m) }
  let s := throttleShow (wrF s rPwrCapEff 16 0 (capEff s))
  let s := ddrMode (foldS linkMode (upto 6) s) m
  if m = 3 then lowEnter s 3 else if old = 3 then lowLeave s 3 else s

/-- A write of MODE: one that changes nothing runs no check.
Assumption log: 14 (DEDUCED). -/
def modeWrite (s : State) (m : Nat) : State :=
  if m = modeNow s then s
  else
    let code := modeCheck s m
    let s := wrF s rPwrStatus 15 8 code
    if code = 0 then modeSet s m else s

/-- MODE_WRITE of PWR_CTL.MODE. -/
def execModeWrite (m : Nat) (s : State) : Out :=
  let m := m % 4
  .next (busWrite s rPwrCtl (setFld (rd s rPwrCtl) 5 4 m) fun s => modeWrite s m)

/-! ### Emergencies (R476, R477) -/

/-- The code of an emergency bit (Table 17.9): THERMAL, VR_FAULT, TELEMETRY, OVERPOWER. -/
def emergCode : Nat → Nat
  | 1 => 0x85
  | 2 => 0x83
  | _ => 0x86

/-- R477: what firmware does on every latch and clear: the log at FAULT, attention bit 6, the NOTICE record.
Assumption log: 65 (DESIGN CHOICE). -/
def emergTell (s : State) (i : Nat) : State :=
  let d := leBytes 1 i ++ leBytes 1 (rdF s rPwrEmerg 3 0)
  logRec (attnSet (logRec s 5 0xC (emergCode i) 0 0 d) 6) 2 0xC (emergCode i) 0 0 d

/-- R476: the condition of bit i holds: it is latched, and is no longer clearable. -/
def emergLatch (s : State) (i : Nat) : State :=
  let s := wrB (updPwr s fun p => { p with cond := p.cond ||| 2 ^ i }) rPwrEmerg (16 + i) false
  if rdB s rPwrEmerg i then s
  else emergTell (wrB (wrB s rPwrEmerg i true) rPwrStatus 3 true) i

/-- The condition of bit i no longer holds. -/
def emergGone (s : State) (i : Nat) : State := updPwr s fun p => { p with cond := p.cond &&& (15 - 2 ^ i) }

/-- EMERGENCY_LATCH of bit i: its condition holds. -/
def execEmergencyLatch (i : Nat) (s : State) : Out := if i < 4 then .next (emergLatch s i) else .next s

/-- EMERGENCY_CLEARABLE of bit i: its condition has been absent for 10 ms.
Assumption log: 8 (DESIGN CHOICE). -/
def execEmergencyClearable (i : Nat) (s : State) : Out :=
  if i < 4 ∧ rdB s rPwrEmerg i ∧ !bitN s.pwr.cond i then .next (wrB s rPwrEmerg (16 + i) true) else .next s

/-- R477: one bit of a W1C write: it clears if it is clearable and its condition has not returned. -/
def emergClr (s : State) (i : Nat) : State :=
  if rdB s rPwrEmerg i && rdB s rPwrEmerg (16 + i) && !bitN s.pwr.cond i then
    let s := wrB (wrB s rPwrEmerg i false) rPwrEmerg (16 + i) false
    emergTell (wrB s rPwrStatus 3 (rdF s rPwrEmerg 3 0 != 0)) i
  else s

/-- EMERGENCY_CLEAR: a W1C write of PWR_EMERG. -/
def execEmergencyClear (m : Nat) (s : State) : Out :=
  .next (if cgDrops s rPwrEmerg then cfgDrop s 0x70 else foldS emergClr (bitList 4 m) s)

/-! ### Telemetry and the loop (R469 to R472) -/

/-- A rail's power sample in mW, of VOUT in mV and IOUT in mA. -/
def railMw (x : Nat × Nat) : Nat := x.1 * x.2 / 1000

/-- R469: the chip power: the latest sample of every valid rail. -/
def chipMw (s : State) : Nat :=
  ((s.pwr.mw.zipIdx).filter fun x => rdB s (rPwrRail x.2) 31).foldl (fun n x => n + x.1) 0

/-- TELEMETRY_SAMPLE: for each rail, VOUT and IOUT where the rail returned a valid sample, and whether STATUS_WORD had a fault bit.
The chip power joins the loop's samples and the measured energy; ten in a row above 1.1 times the cap latch OVERPOWER.
Assumption log: 13 (DESIGN CHOICE). -/
def execTelemetrySample (rails : List (Option (Nat × Nat) × Bool)) (s : State) : Out :=
  let valid (r : Nat) := rdB s (rPwrRail r) 31
  let new (x : Nat × Nat) : Nat := match rails[x.2]? with
    | some (some v, _) => if valid x.2 then railMw v else x.1
    | _ => x.1
  let s := updPwr s fun p => { p with mw := p.mw.zipIdx.map new }
  let p := chipMw s
  let ovr := 11 * capEff s < 10 * p
  let s := updPwr s fun w => { w with samples := w.samples ++ [p], emeas := w.emeas + p * 100, ovr := if ovr then w.ovr + 1 else 0 }
  let fault := (rails.zipIdx).any fun x => x.1.2 && valid x.2
  let s := if fault then emergLatch s 1 else emergGone s 1
  let s := if (upto 8).all fun r => !valid r || (match rails[r]? with
      | some (some _, _) => true
      | _ => false) then emergGone s 2 else s
  .next (if 10 ≤ s.pwr.ovr then emergLatch s 3 else emergGone s 3)

/-- TELEMETRY_LOST of rail r: no valid sample for 1 ms.
Assumption log: 8 (DESIGN CHOICE). -/
def execTelemetryLost (r : Nat) (s : State) : Out := if r < 8 ∧ rdB s (rPwrRail r) 31 then .next (emergLatch s 2) else .next s

/-- R474: the thermal cap moves.
Assumption log: 35 (DEDUCED). -/
def thermMove (s : State) : State :=
  let tj := sextN 16 (rdF s rPwrTj 15 0)
  let cap := modeCap (modeNow s)
  let t := s.pwr.therm
  let t := if 1600 ≤ tj then (if t ≤ 8000 then t else max 8000 (t - 2000)) else if tj ≤ 1568 then min cap (t + 1000) else t
  throttleShow (updPwr s fun p => { p with therm := t })

/-- R472: the loop rate from R, OBS, the effective cap and P_m. -/
def loopR (s : State) (r obs cap pm : Nat) : Nat :=
  let r : Int := if obs + 16 < r then (obs : Int) + 16 else r
  let r := r + (((cap : Int) - pm) * rdF s rPwrKp 15 0) / 65536
  (min (max r (rdF s rPwrRmin 8 0)) 256).toNat

/-- CAPPING_LOOP_UPDATE: the thermal cap moves, and the loop, while it is enabled, sets R from the samples since its last update.
`obs` is the highest issue rate that any cluster of a placement reached. -/
def execCappingLoopUpdate (obs : Nat) (s : State) : Out :=
  if !rdB s rPwrCtl 0 then .next s
  else
    let s := thermMove s
    let n := s.pwr.samples.length
    let pm := if n = 0 then rdF s rPwrPMw 16 0 else s.pwr.samples.foldl (· + ·) 0 / n
    let cap := capEff s
    let s := wrF s rPwrR 8 0 (loopR s (rdF s rPwrR 8 0) obs cap pm)
    let s := wrF (wrF s rPwrPMw 16 0 pm) rPwrCapEff 16 0 cap
    .next (traceRec (updPwr s fun p => { p with samples := [] }) 7 0)

/-! ### Droop (R473) -/

/-- DROOP_TRIP of cluster k: rate and bucket are halved, and the steps restart. -/
def execDroopTrip (k : Nat) (s : State) : Out :=
  if 8 ≤ k then .next s
  else
    let r := loopRate s
    .next (incr (updClu s k fun c =>
      { c with droop := some (c.droop.getD r / 2), droopSteps := 0, bucket := c.bucket / 2 }) (rPwrDroopCnt k))

/-- DROOP_RISE_STEP of cluster k: one of 8 steps of R >> 4; with the last the rate is R again. -/
def execDroopRiseStep (k : Nat) (s : State) : Out :=
  let r := loopRate s
  let c := clu s k
  match c.droop with
  | none => .next s
  | some d =>
    if 8 ≤ c.droopSteps + 1 then .next (setClu s k { c with droop := none, droopSteps := 0 })
    else .next (setClu s k { c with droop := some (d + r / 16), droopSteps := c.droopSteps + 1 })

/-! ### Temperature (R474, R475) -/

/-- TEMPERATURE_SAMPLE: the 14 readings in 1/16 °C; Tj is the highest.
Assumption log: 13 (DESIGN CHOICE). -/
def execTemperatureSample (temps : List Int) (s : State) : Out :=
  let tj := (temps.take 14).foldl max (temps.headD 0)
  let s := foldS (fun s x => wrF s (rPwrTemp x.2) 15 0 (truncI 16 x.1)) (temps.take 14).zipIdx s
  let s := mr4Follow (wrF s rPwrTj 15 0 (truncI 16 tj)) (1360 ≤ tj)
  .next (if 1760 ≤ tj then emergLatch s 0 else emergGone s 0)

/-- THERMAL_TRIP: at 115 °C every island clock but the root's stops, THERMTRIP_N is low, and the trip is recorded. -/
def execThermalTrip (s : State) : Out :=
  if sextN 16 (rdF s rPwrTj 15 0) < 1840 then .next s
  else .next (updPwr s fun p => { p with tripped := true, tripRec := true })

end Sys2Proof.Machine
end

