-- ==== Sys2Proof/Machine/Reliability.lean ====
section
/-! DEFINITION. The health events' classification, retirement, quarantine, the kill scrub, the comparator, canary tiles and
lockstep (chapter 16). -/

namespace Sys2Proof.Machine
open Sys2Proof

/-! ### Retirement (R453, R457) -/

/-- R457: RAS_CFG_EPOCH advances, modulo 2^16 and skipping 0. -/
def cfgEpochNext (s : State) : State :=
  let e := (rdF s rRasCfgEpoch 15 0 + 1) % 2 ^ 16
  wrF s rRasCfgEpoch 15 0 (if e = 0 then 1 else e)

/-- R123, R453: bits are set in a retire register (0 cores, 1 cluster stores, 2 pipes); the mapping of each cluster that loses a
healthy core changes. -/
def retireSet (s : State) (kind mask : Nat) : State :=
  let a := if kind = 0 then rRasRetireCores else if kind = 1 then rRasRetireCstore else rRasRetirePipe
  let n := if kind = 0 then 32 else if kind = 1 then 8 else 3
  let t := wr s a (rd s a ||| BitVec.ofNat 32 (mask % 2 ^ n))
  foldS (fun u k => if healthyPos s k = healthyPos t k then u else mappingChanged u k) (upto 8) t

/-- R46, R453, R462: firmware retires units: the epoch advances, and Lowwater begins where no shape class remains and no program
runs. With a program, VARIANT_SWITCH follows. -/
def retire (s : State) (kind mask : Nat) : State :=
  let s := cfgEpochNext (retireSet s kind mask)
  if shapeClass s = 0 ∧ s.fw.prog.isNone ∧ !bitN s.root.low 0 then noClass s else s

/-- RAS_RETIRE: a write of a retire register.
Assumption log: 50 (DEDUCED). -/
def execRasRetire (kind mask : Nat) (s : State) : Out :=
  .next (busWrite s (if kind = 0 then rRasRetireCores else if kind = 1 then rRasRetireCstore else rRasRetirePipe)
    (BitVec.ofNat 32 mask) fun s => retire s kind mask)

/-! ### Classification (R448, R452) -/

/-- A field of an event word. -/
def evF (e : List Word) (w hi lo : Nat) : Nat := fld (e.getD w 0) hi lo

/-- Table 16.7: whether a detector's events of a kind are classified.
Assumption log: 12 (DESIGN CHOICE). -/
def classified (kind det : Nat) : Bool :=
  if kind = 0 then det ≤ 2
  else if kind = 1 then det = 2
  else if kind = 2 ∨ kind = 3 then 4 ≤ det && det ≤ 6
  else if kind = 4 then det = 7
  else if kind = 5 then det = 8
  else kind = 6 && det = 9

/-- Table 16.7: the window of a kind in ms.
Assumption log: 73 (DEDUCED). -/
def windowMs (kind : Nat) : Nat := if kind < 2 ∨ kind = 6 then 3600000 else 86400000

/-- Table 16.7: the threshold.
Assumption log: 73 (DEDUCED). -/
def threshOf (kind loc : Nat) : Nat := if kind = 4 then (if loc = 8 then 2 else 64) else 3

/-- Powered time in ms.
Assumption log: 56 (DEDUCED). -/
def poweredMs (s : State) : Nat := s.root.powered / 1000000

/-- R453, R452: a DRAM device becomes DEGRADED (1) or FAILED (2); a FAILED one takes DRAM out of service.
Assumption log: 32 (DEDUCED). -/
def devMark (s : State) (unit v : Nat) : State :=
  let i := 5 * (unit / 8) + unit % 8
  let s := updRoot s fun r => { r with devs := r.devs.set i (max v (r.devs.getD i 0)) }
  if v = 2 then
    let s := logMsg s 0xC 0x9C (leBytes 1 unit)
    lowEnter (if s.fw.prog.isSome then progEnd s 0xA5 else s) 1
  else logRec s 3 0xC 0 0 0 (leBytes 1 unit)

/-- Table 16.7: the permanent action. -/
def permanent (s : State) (kind unit loc : Nat) : State :=
  let s := logRec s 5 0xC 0x95 0 0 (leBytes 1 kind ++ leBytes 1 unit)
  if kind ≤ 2 then retire s 0 (2 ^ unit)
  else if kind = 3 then retire s 1 (2 ^ unit)
  else if kind = 4 then devMark s unit (if loc = 8 then 2 else 1)
  else if kind = 5 then updRoot s fun r => { r with lanes := r.lanes.modify (unit / 8) (· ||| 2 ^ (unit % 8)) }
  else retire s 2 (2 ^ unit)

/-- Table 16.6: bytes 0x00 to 0x2F of a journal record but for SEQ, which the root core fills in. -/
def journalBody (s : State) (e : List Word) (cls n c : Nat) : List Byte :=
  leBytes 4 0 ++ leBytes 4 s.root.pcycle ++ leBytes 8 (poweredMs s) ++ leBytes 4 (e.getD 0 0).toNat ++
    leBytes 4 (e.getD 1 0).toNat ++ leBytes 4 (e.getD 6 0).toNat ++ leBytes 1 cls ++ leBytes 1 (min n 255) ++
    leBytes 1 (min c 255) ++ leBytes 1 0 ++ leBytes 4 (e.getD 4 0).toNat ++ leBytes 4 (e.getD 5 0).toNat ++ leBytes 8 0

/-- R452: an event is classified, appended to the journal, and acted on.
Assumption log: 73 (DEDUCED). -/
def classify (s : State) (e : List Word) : State :=
  let kind := evF e 0 31 28
  let unit := evF e 1 31 24
  let loc := evF e 1 23 0
  if !classified kind (evF e 0 27 24) then s
  else
    let t := poweredMs s
    let same := s.root.recs.filter fun r => r.kind == kind && r.unit == unit && r.loc == loc && r.cls < 3
    let n := 1 + (same.filter fun r => t ≤ r.powered + windowMs kind).length
    let c := (s.root.pcycle :: same.map fun r => r.pcycle).eraseDups.length
    let cls := if threshOf kind loc ≤ n ∨ 3 ≤ c then 2 else if 2 ≤ n ∨ 2 ≤ c then 1 else 0
    let body := journalBody s e cls n c
    let s := updRoot s fun r => { r with recs := r.recs ++ [⟨kind, unit, loc, s.root.pcycle, t, cls⟩], jq := r.jq ++ [body] }
    if cls = 2 then permanent s kind unit loc else s

/-- The same event n times.
Assumption log: 73 (DEDUCED). -/
def classifyN (s : State) (e : List Word) : Nat → State
  | 0 => s
  | n + 1 => classifyN (classify s e) e n

/-- R448: the FIFO is empty: the records of a detector that were dropped count as repeats of its last one.
Assumption log: 73 (DEDUCED). -/
def dropRepeats (s : State) (d : Nat) : State :=
  let cnt := (rd s (rRasDetCnt d)).toNat
  let n := (cnt + 2 ^ 32 - s.fw.detSeen.getD d 0) % 2 ^ 32
  let s := { s with fw := { s.fw with detSeen := s.fw.detSeen.set d cnt } }
  classifyN s (s.fw.detLast.getD d []) n

/-- EVENT_CLASSIFY: firmware reads the oldest event record and classifies it.
Assumption log: 73 (DEDUCED). -/
def execEventClassify (s : State) : Out :=
  match s.rasEvt.ents with
  | [] => .next s
  | e :: es =>
    let d := evF e 0 27 24
    let up (f : Fw) : Fw :=
      { f with detSeen := f.detSeen.modify d fun n => (n + 1) % 2 ^ 32, detLast := f.detLast.set d e }
    let s := classify { s with rasEvt := { s.rasEvt with ents := es, rd := 0 }, fw := up s.fw } e
    .next (if es.isEmpty then foldS dropRepeats (upto 12) s else s)

/-- MEM_CE_POLL (R448): firmware reads the differences of MEM_CE_s_d; while RAS_CTL.CE_EVT is 0, no event names the symbols that
they count, and they are classified from the difference. The counters do not name the pin: it is a free value.
Assumption log: 33 (DESIGN CHOICE). -/
def cePoll (s : State) (i : Nat) : State :=
  let v := (rd s (rMemCe (i / 5) (i % 5))).toNat
  let n := (v + 2 ^ 32 - s.fw.ceSeen.getD i 0) % 2 ^ 32
  let s := { s with fw := { s.fw with ceSeen := s.fw.ceSeen.set i v } }
  if n = 0 ∨ rdB s rRasCtl 1 then s
  else
    let (pin, s) := freeN s
    let w0 := BitVec.ofNat 32 (4 * 2 ^ 28 + 7 * 2 ^ 24 + 8 * 2 ^ 12)
    let w1 := BitVec.ofNat 32 ((i / 5 * 8 + i % 5) * 2 ^ 24 + pin % 8)
    classifyN s [w0, w1, 0, 0, 0, 0, 0, 0] n

/-- MEM_CE_POLL.
Assumption log: 33 (DESIGN CHOICE). -/
def execMemCePoll (s : State) : Out := .next (foldS cePoll (upto 30) s)

/-! ### The journal (R449, R450) -/

/-- JOURNAL_WRITE: the root core writes the oldest record that it has been handed. -/
def execJournalWrite (s : State) : Out :=
  match s.root.jq with
  | [] => .next s
  | b :: bs => .next (journalPut (updRoot s fun r => { r with jq := bs }) b)

/-- JOURNAL_SEAL: the open segment is full. -/
def execJournalSeal (s : State) : Out :=
  if s.root.jcnt < 1000 ∨ s.root.sealed ∨ !idUsable s then .next s else .next (segSeal s)

/-! ### Canary tiles (R443, R444, R447) -/

/-- R443: whether a core is a canary candidate.
Assumption log: 75 (DEDUCED). -/
def canary (s : State) (n : Nat) : Bool :=
  n < 32 && healthy s n &&
  (!running s || !bitN (place s) (n / 4) || match logPos s n with
    | some p => classCores (rd s rEngProgClass) ≤ p
    | none => true)

/-- One tile on core n is counted; what it leaves in the core's planes is `left`.
Assumption log: 75 (DEDUCED). -/
def tileRun (s : State) (n : Nat) (left : List (Nat × Word)) : State :=
  let s := updCore (incr s rRasCanaryCnt) n fun c => { c with acc := mputs word0 left c.acc }
  { s with ras := { s.ras with tiles := addTo s.ras.tiles n 1 } }

/-- R447: after 6 clean tiles on each core of a suspect cluster, firmware clears its bit. -/
def tileClean (s : State) (n : Nat) : State :=
  let k := n / 4
  if !rdB s rRasSuspect k then s
  else
    let s := { s with fw := { s.fw with clean := addTo s.fw.clean n 1 } }
    let cnt (i : Nat) := ((s.fw.clean.find? fun x => x.1 == i).map fun x => x.2).getD 0
    if (upto 4).all fun i => !healthy s (4 * k + i) || 6 ≤ cnt (4 * k + i) then
      let s := wrB s rRasSuspect k false
      { s with fw := { s.fw with clean := s.fw.clean.filter (fun x => x.1 / 4 != k), dualHits := s.fw.dualHits.filter fun x => x.1 != k } }
    else s

/-- CANARY_TILE on core n with checker c. `col` is the first column in which the drained plane and the golden plane differ; then
the tile is run again with the second checker of `second`, which says whether its golden plane equals the first.
Assumption log: 13 (DESIGN CHOICE), 75 (DEDUCED). -/
def execCanaryTile (n c : Nat) (col : Option Nat) (second : Option (Nat × Bool)) (left : List (Nat × Word)) (s : State) : Out :=
  let far := (upto 32).any fun x => canary s x && x / 4 != n / 4
  if !rdB s rRasCtl 0 || !rdB s rRasCanaryCtl 31 || !canary s n || !canary s c || c == n || (far && c / 4 == n / 4) then .next s
  else
    let s := tileRun s n left
    match col, second with
    | none, _ => .next (tileClean s n)
    | some l, none => .next (rasPost s 2 0 0x92 (n / 4) 0 n (64 + l % 64) 0)
    | some l, some (c2, same) =>
      if !canary s c2 || c2 == n || c2 == c then .next (rasPost s 2 0 0x92 (n / 4) 0 n (64 + l % 64) 0)
      else
        let s := tileRun s n left
        .next (if same then rasPost s 2 0 0x92 (n / 4) 0 n (l % 64) 0 else rasPost s 2 1 0x92 (c / 4) 0 c 0 0)

/-- R444, R463: EN of RAS_CANARY_CTL is set: a new seed is drawn.
Assumption log: 2 (DESIGN CHOICE). -/
def canaryOn (s : State) : State :=
  if rdB s rRasCanaryCtl 31 then s
  else
    let (w, s) := freeW (wrB s rRasCanaryCtl 31 true)
    { s with ras := { s.ras with seed := w } }

/-! ### The comparator (R464) and dual-run (R446, R447) -/

/-- R464: START, while BUSY = 0.
Assumption log: 32 (DEDUCED). -/
def cmpStart (s : State) : State := if rdB s rRasCmpCtl 31 then s else wrB (wrB s rRasCmpCtl 31 true) rRasCmpCtl 30 false

/-- CMP_START.
Assumption log: 32 (DEDUCED). -/
def execCmpStart (s : State) : Out :=
  .next (busWrite s rRasCmpCtl 1 cmpStart)

/-- The comparator reads one word of 32 bytes: of this chip, or as the links delivered it. A refused read gives none. -/
def cmpWord (s : State) (g : Nat) (far : List (Option (List Byte × Bool))) :
    Option (List Byte × Bool) × List (Option (List Byte × Bool)) × State :=
  if g / 2 ^ 40 = ownChip s then
    let (r, s) := fabRead s whoCp (g % 2 ^ 40) 32
    (if r.code = 0 then some (r.data, r.pois.any id) else none, far, s)
  else ((far.headD none), far.drop 1, s)

/-- The pairs from index i on, over n of them; the first that differs. -/
def cmpGo (s : State) (a b i : Nat) (far : List (Option (List Byte × Bool))) (first : Option Nat) : Nat → Option Nat × State
  | 0 => (first, s)
  | n + 1 =>
    let (x, far, s) := cmpWord s (a + 32 * i) far
    let (y, far, s) := cmpWord s (b + 32 * i) far
    let same := x.isSome && x == y
    cmpGo s a b (i + 1) far (if first.isNone && !same then some i else first) n

/-- A comparator range base. -/
def cmpBase (s : State) (lo hi : Nat) : Nat := 2 ^ 32 * rdF s hi 13 0 + rdF s lo 31 5 * 32

/-- The comparison runs to its end.
Assumption log: 75 (DEDUCED). -/
def cmpRun (s : State) (far : List (Option (List Byte × Bool))) : State :=
  let (first, s) := cmpGo s (cmpBase s rRasCmpALo rRasCmpAHi) (cmpBase s rRasCmpBLo rRasCmpBHi) 0 far none (rd s rRasCmpLen).toNat
  let s := wrB (wrB s rRasCmpCtl 31 false) rRasCmpCtl 30 first.isSome
  match first with
  | some i => wr s rRasCmpFirst (BitVec.ofNat 32 i)
  | none => s

/-- R459: whether a range reaches a memory under kill scrub, whose reads are held.
Assumption log: 19 (DEDUCED). -/
def rangeScrubbing (s : State) (g n : Nat) : Bool :=
  g / 2 ^ 40 == ownChip s && s.ras.scrub.any fun x =>
    memBase x.mem < g % 2 ^ 40 + 32 * n && g % 2 ^ 40 < memBase x.mem + 0x200000

/-- CMP_DONE; `far` are the words of other chips in the order in which they were read, none for a refused one. While a word lies in
a memory under kill scrub, the comparison waits.
Assumption log: 13 (DESIGN CHOICE), 75 (DEDUCED). -/
def execCmpDone (far : List (Option (List Byte × Bool))) (s : State) : Out :=
  let n := (rd s rRasCmpLen).toNat
  if !rdB s rRasCmpCtl 31 || rangeScrubbing s (cmpBase s rRasCmpALo rRasCmpAHi) n ||
      rangeScrubbing s (cmpBase s rRasCmpBLo rRasCmpBHi) n then .next s
  else .next (cmpRun s far)

/-- R447: a mismatch names a cluster: its event, and after three within 1 h of powered time its bit in RAS_SUSPECT. -/
def dualHit (s : State) (k : Nat) : State :=
  let s := rasPost s 3 0 0x93 k 0 k 0 0
  let t := poweredMs s
  let hits := (s.fw.dualHits ++ [(k, t)]).filter fun x => t ≤ x.2 + 3600000
  let s := { s with fw := { s.fw with dualHits := hits } }
  if 3 ≤ (hits.filter fun x => x.1 == k).length then wrB s rRasSuspect k true else s

/-- DUAL_RUN_COMPARE of a sampled job: the results of the pass that both jobs have completed are compared, after the primary's has
been published.
Assumption log: 32 (DEDUCED). -/
def execDualRunCompare (id : Nat) (s : State) : Out :=
  match jobOf s id, s.fw.jobs.find? fun x => x.shadowOf == some id with
  | some j, some h =>
    if j.done ≠ h.done ∨ j.done ≤ j.cmped ∨ j.rlen = 0 ∨ (s.fw.pubs.any fun p => p.job == id) ∨ rdB s rRasCmpCtl 31 then .next s
    else
      let s := wr64 (wr64 s rRasCmpALo rRasCmpAHi (glob s j.rsrc / 32 * 32)) rRasCmpBLo rRasCmpBHi (glob s h.rsrc / 32 * 32)
      let s := cmpRun (cmpStart (wr s rRasCmpLen (BitVec.ofNat 32 (wordsIn j.rsrc j.rlen)))) []
      let s := updJob (incr s rRasDualCnt) id fun j => { j with cmped := j.done }
      .next (if rdB s rRasCmpCtl 30 then foldS dualHit (partClus s j.part ++ partClus s h.part) s else s)
  | _, _ => .next s

/-! ### Quarantine (R457) -/

/-- Whether a commit group names a register of island i. -/
def cgNames (s : State) (islOf : Nat → Nat) (g i : Nat) : Bool :=
  (upto (rdF s (rCpCgCtl g) 5 0 + 1)).any fun a => islOf (rdF s (rCpCgAddr g a) 26 20) == i

/-- Island i is quarantined: its bit, its event, its tags (R173), and the groups that name it, which abort unless the arbiter has
tagged them with their point (R410). -/
def quarantine (s : State) (i : Nat) : State :=
  let s := rasPost (wrB s rRasQuar i true) 11 15 0x96 i 0 i 0 0
  let tags (s : State) (m : Nat) := foldS (fun s j => slotTag s (512 * m + j) .invalid) (upto 512) s
  let s := if i < 8 then foldS tags ((upto 5).map fun j => cluMem i j) s else s
  foldS (fun s g => if cgNames s blkIsl g i && !(cgOf s g).tagged then cgAbort s g 0xAB i else s) (upto 16) s

/-- R457: island i rejoins the fabric, or is quarantined; `lost` says that its epoch copy was lost. -/
def islRejoin (s : State) (i : Nat) (lost : Bool) : State :=
  if lost ∨ rdF s (rRasIslEpoch i) 15 0 ≠ rdF s rRasCfgEpoch 15 0 then quarantine s i else s

/-- ISLAND_REJOIN of an island that has slept or been reset. -/
def execIslandRejoin (i : Nat) (lost : Bool) (s : State) : Out := if 15 ≤ i then .next s else .next (islRejoin s i lost)

/-- R457: a release request for the islands of a mask: each whose epoch equals the global one leaves quarantine. -/
def quarRelease (s : State) (mask : Nat) : State :=
  foldS (fun s i => if rdF s (rRasIslEpoch i) 15 0 = rdF s rRasCfgEpoch 15 0 then wrB s rRasQuar i false else s) (bitList 15 mask) s

/-- QUARANTINE_RELEASE: a write of RAS_QUAR_REL. -/
def execQuarantineRelease (mask : Nat) (s : State) : Out :=
  .next (busWrite s rRasQuarRel (BitVec.ofNat 32 mask) fun s => quarRelease s mask)

/-! ### The kill scrub (R458 to R460) -/

/-- The snapshot buffer's base (R460). -/
def snapBase (s : State) : Nat := 2 ^ 32 * rdF s rRasSnapBaseHi 13 0 + 2 ^ 21 * rdF s rRasSnapBaseLo 31 21

/-- A memory is written with zero words: poison clear, fresh check bits. -/
def memZero (s : State) (m : Nat) : State :=
  let a := memBase m
  let b := a + 0x200000
  { s with mem := { s.mem with sram := mclear a b s.mem.sram, pois := mclear (a / 32) (b / 32) s.mem.pois,
                               ecc := mclear (a / 32) (b / 32) s.mem.ecc,
                               wb := s.mem.wb.filter fun w => w < a / 32 || b / 32 ≤ w } }

/-- R460: the memory is copied to its place in the snapshot buffer before it is zeroed. -/
def snapCopy (s : State) (m off : Nat) : State :=
  let got := sramRead s (memBase m) 0x200000
  fabStore got.2 whoCp ((snapBase got.2 + off) % 2 ^ 40) got.1.1 got.1.2.1

/-- KILL_SCRUB of memory m: read into the snapshot where one is taken, and written to zero. -/
def execKillScrub (m : Nat) (s : State) : Out :=
  match s.ras.scrub.find? fun x => x.mem == m with
  | none => .next s
  | some x =>
    if x.zeroed then .next s
    else
      let s := match x.snap with
        | some off => snapCopy s m off
        | none => s
      let mark (y : Scrub) : Scrub := if y.mem = m then { y with zeroed := true } else y
      .next (memZero { s with ras := { s.ras with scrub := s.ras.scrub.map mark } } m)

/-- KILL_SCRUB_DONE of memory m: its INVALID slots become EMPTY; the last memory of a cluster clears its bit in RAS_KSCRUB, and
the last of a job that a snapshot was taken of sets HELD and JOB. -/
def execKillScrubDone (m : Nat) (s : State) : Out :=
  match s.ras.scrub.find? fun x => x.mem == m with
  | none => .next s
  | some x =>
    if !x.zeroed then .next s
    else
      let s := foldS (fun s i => if (slotGet s (512 * m + i)).tag = .invalid then slotTag s (512 * m + i) .empty else s) (upto 512) s
      let rest := s.ras.scrub.filter fun y => y.mem != m
      let s := { s with ras := { s.ras with scrub := rest } }
      let s := if rest.any fun y => memClu y.mem == memClu m then s else wrB s rRasKscrub (memClu m) false
      .next (if x.snap.isSome && !(rest.any fun y => y.job == x.job) then
        wrF (wrB s rRasSnapCtl 30 true) rRasSnapCtl 11 0 x.job else s)

/-- SNAP_HELD_CLEAR: a write of HELD := 0. -/
def execSnapHeldClear (s : State) : Out :=
  .next (busWrite s rRasSnapCtl (setBit (rd s rRasSnapCtl) 30 false) fun s => wrB s rRasSnapCtl 30 false)

/-! ### Lockstep (R461) -/

/-- What firmware held is lost when its processor is held; the commit groups stay in the CP block, with no request to answer. -/
def fwLost (s : State) : State :=
  { s with fw := { cgs := s.fw.cgs.map fun c => { c with owner := none, answer := false }, armed := s.fw.armed } }

/-- LOCKSTEP_MISMATCH: the root core holds the control processor, stops the engine, appends the event to the journal, enters
Lowwater, and starts the restart monitor.
Assumption log: 32 (DEDUCED). -/
def execLockstepMismatch (s : State) : Out :=
  let s := wrB s rCpStatus 0 true
  let s := updRoot s fun r => { r with held := true, lockCnt := r.lockCnt + 1 }
  let s := if running s then engineStop s else s
  let s := rasPost s 10 15 0x97 0xC 0 0 0 0
  let e := [BitVec.ofNat 32 (15 * 2 ^ 28 + 10 * 2 ^ 24 + 0x97 * 2 ^ 16 + 0xC * 2 ^ 12), 0, 0, 0, 0, 0, 0, 0]
  let s := journalPut s (journalBody s e 3 0 0)
  .next (setFwState (lowEnter (fwLost s) 2) 3)

/-! ### The variant switch (R120, R222, R403, R454) -/

/-- R120: n bytes at a global address as firmware's DMA reads them. What another chip's memory holds is no state of this chip: it is
a free value, where a window covers the address.
Assumption log: 85 (DESIGN CHOICE). -/
def ctxBytes (s : State) (g n : Nat) : (List Byte × List Bool) × State :=
  match localOf s g with
  | some a =>
    let r := fabReads s whoFwDma a n
    ((r.1.data, r.1.pois), r.2)
  | none =>
    if (winOf s false g).isNone then ((List.replicate n 0, List.replicate n true), refuse s whoFwDma 0x46 g)
    else
      let c := s.free
      (((upto (n / 4 + 1)).flatMap fun i => leBytes 4 (Config.freeWord (c + i)).toNat).take n |> fun bs =>
        (bs, List.replicate n false), freeSkip s (n / 4 + 1))

/-- R120: bytes written at a global address by firmware's DMA: on another chip, operation by operation. -/
def ctxPut (s : State) (g : Nat) (bs : List Byte) (ps : List Bool) : State :=
  match localOf s g with
  | some a => (fabWrites s whoFwDma a bs ps).2
  | none => foldS (fun s p =>
      let y : XOp := { xid := 0, ix := p.2.2, src := p.2.1, dst := p.2.1, len := p.2.2, core := 0, ring := false, cls := .link,
                       epoch := 0, job := 0, data := none }
      (writeRemote s whoFwDma .none y (slice bs p.1 p.2.2) (slice ps p.1 p.2.2)).2.2) (pieces g bs.length) s

/-- The context of a parked tie-point: each tensor with its bytes and their poison (R120). -/
def ctxSave (s : State) (r : PtRec) : List (Tensor × List Byte × List Bool) × State :=
  r.tens.foldl (fun a t =>
    let g := ctxBytes a.2 t.loc t.size
    (a.1 ++ [(t, g.1.1, g.1.2)], g.2)) ([], s)

/-- R120: the tensor of a variant's record that takes a saved one: equal NAME, SIZE and FORMAT. -/
def ctxFind (r : PtRec) (t : Tensor) : Option Tensor :=
  r.tens.find? fun u => u.name == t.name && u.size == t.size && u.fmt == t.fmt

/-- The context restored onto a record, or none where a tensor has no place. -/
def ctxRestore (s : State) (r : PtRec) : List (Tensor × List Byte × List Bool) → Option State
  | [] => some s
  | (t, bs, ps) :: l =>
    match ctxFind r t with
    | none => none
    | some u => ctxRestore (ctxPut s u.loc bs ps) r l

/-- R403: the EPOCH event of each job that runs. -/
def epochEvents (s : State) : State :=
  foldS (fun s j =>
    if j.st = .running ∧ !j.left then
      let e := partEpoch s j.part
      postEvent (updJob s j.id fun j => { j with epoch := e }) j.rq 0 4 j.id (leBytes 2 e)
    else s) s.fw.jobs s

/-- The extents of each cluster's job are written to the clusters of the new placement. -/
def argsAgain (s : State) : State :=
  foldS (fun s j => if installed j then foldS (fun s k => setArgs s k j.ext) (partClus s j.part) s else s) s.fw.jobs s

/-- R222: the partitions of a new placement: a cluster that stays keeps its own, one that leaves has none, and one that joins has
one of the program's, which no rule names.
Assumption log: 86 (DESIGN CHOICE). -/
def newParts (old : List Nat) (w pl : Nat) : List Nat :=
  let used := (old.filter (· != 0xFF)).eraseDups
  (upto 8).map fun k =>
    if !bitN pl k then 0xFF
    else if old.getD k 0xFF ≠ 0xFF then old.getD k 0xFF
    else used.getD (w / 8 ^ k % used.length) 0

/-- R222, from step 4 on: the variant of the new class is loaded, the context restored, and the engine enabled behind its
tie-point.
Assumption log: 86 (DESIGN CHOICE). -/
def migrate (s : State) (p : Prog) (o : Obj) (srcs : List (Nat × Src)) (ctx : Option (Nat × List (Tensor × List Byte × List Bool))) :
    State :=
  let w := freeN (engineOff (foldS switchDrop s.fw.switches s) false)
  match loadBundle w.2 o (newParts p.parts w.1) srcs none p.chips with
  | (.bad c, s) => progEnd s c
  | (.ok q _, s) =>
    let s := argsAgain { s with fw := { s.fw with prog := some q } }
    match ctx with
    | none => epochEvents (wrB s rEngCtl 2 false)
    | some (ptid, ts) =>
      match q.ties.find? fun r => r.ptid == ptid with
      | none => progEnd s 0x2D
      | some r =>
        match ctxRestore s r ts with
        | none => progEnd s 0x2D
        | some s =>
          let start := if r.bar + 1 = q.barCount then 0 else r.bar + 1
          let s := wrB (tagsSet (wr (unitsOn s q) rEngStartBar (BitVec.ofNat 32 start)) q start) rEngCtl 2 false
          let s := epochEvents (engineTry s)
          if rdB s rEngCtl 0 then switchesGo { s with fw := { s.fw with passSeen := (rd s rCpPassCnt).toNat } }
          else progEnd s (rdF s rEngStatus 15 8)

/-- VARIANT_SWITCH (R454): the shape class is no longer the program's. Firmware has the engine park, then migrates; `srcs` lists
the slots of the new variant whose first transfer is HALO or LINK.
Assumption log: 27 (DEDUCED), 76 (DEDUCED). -/
def execVariantSwitch (srcs : List (Nat × Nat)) (s : State) : Out :=
  match s.fw.prog with
  | none => .next s
  | some p =>
    if (shapeClass s).toNat = p.cls then .next s
    else if shapeClass s = 0 then .next (noClass s)
    else if running s && !parkedB s then .next (wrB s rEngCtl 2 true)
    else if (rd s rCpPassCnt).toNat ≠ s.fw.passSeen ∧ rdF s rEngTieStatus 19 0 = p.barCount - 1 then .next s
    else match objOf s p.handle with
      | none => .next (progEnd s 0x2D)
      | some o =>
        let cls := srcs.map fun x => (x.1, srcOf x.2)
        if !running s then .next (migrate s p o cls none)
        else match p.ties.find? fun r => r.bar == rdF s rEngTieStatus 19 0 with
          | none => .next (progEnd s 0x2D)
          | some r =>
            let (ts, s) := ctxSave s r
            .next (migrate s p o cls (some (r.ptid, ts)))

end Sys2Proof.Machine
end

