-- ==== Sys2Proof/Machine/Service.lean ====
section
/-! DEFINITION. The service cores, the system time, Ethernet, the triggers and the serial controllers (chapter 19). -/

namespace Sys2Proof.Machine
open Sys2Proof

/-- Changing the state of the service island, TIM, TRG, SIO and the pins. -/
def updIo (s : State) (f : Io → Io) : State := { s with io := f s.io }

/-! ### Service cores (R510 to R512) -/

/-- R511: the harts are held: ETH_SVC_CTL shows none out of reset. -/
def hartsHold (s : State) : State := wrF (updIo s fun i => { i with harts := List.replicate 8 none }) rEthSvcCtl 15 8 0

/-- The DEST 3 entries of an image are copied through the verifier; the first code that refuses one, or 0. -/
def payloadCopy (s : State) (o : Obj) : List LoadEnt → Nat × State
  | [] => (0, s)
  | e :: es =>
    if e.dest ≠ 3 then payloadCopy s o es
    else
      let ((bs, c), s) := objBytes s o e.src e.size
      let (c, s) := if c ≠ 0 then (c, s) else fabWrites s whoFwDma (e.dst % 2 ^ 40) bs (List.replicate bs.length false)
      if c ≠ 0 then (c, s) else payloadCopy s o es

/-- R511, step 3: the 8 harts are released at the DST of entry 0.
Assumption log: 71 (DESIGN CHOICE). -/
def hartsGo (s : State) (pc : Nat) : State :=
  let a1 := 0x2300000000 + rdF s rCpSvcPage 19 6 * 64
  wrF (updIo s fun i => { i with harts := (upto 8).map fun h => some ⟨pc, h, a1⟩ }) rEthSvcCtl 15 8 0xFF

/-- The image that an object of class 0 to 2 carries, for attestation. -/
def imgOf (o : Obj) : SImg := ⟨o.slot, o.version, o.digest⟩

/-- SERVICE_CORE_START: the copies, the release, and the answer to the FW_ACTIVATE that asked. -/
def execServiceCoreStart (s : State) : Out :=
  match s.io.svc with
  | none => .next s
  | some (q, h) =>
    let s := updIo s fun i => { i with svc := none }
    match objOf s h with
    | none => .next (respond s q 0xAF [])
    | some o =>
      let ((hd, c), s) := objBytes s o 0 256
      let es := (loadTable hd 2 (o.total - 3200)).getD []
      let (c, s) := if c ≠ 0 then (c, s) else payloadCopy s o es
      if c ≠ 0 then .next (respond s q c [])
      else
        let s := hartsGo s ((es.map fun e => e.dst).headD 0)
        let s := updObj (updRoot s fun r => { r with inUse := r.inUse.set 2 (some (imgOf o)) }) h fun o => { o with inUse := true }
        .next (respond s q 0 [])

/-- SVC_IRQ_SET: a write of ETH_SVC_IRQ_SET. -/
def execSvcIrqSet (s : State) : Out :=
  .next (busWrite s rEthSvcIrqSet 1 fun s => wrB s rEthSvcIrq 0 true)

/-! ### Trigger outputs (R519) -/

/-- A trigger output. -/
def outOf (s : State) (o : Nat) : TrgOut := s.io.outs.getD o {}

/-- Changing a trigger output. -/
def updOut (s : State) (o : Nat) (f : TrgOut → TrgOut) : State := updIo s fun i => { i with outs := i.outs.modify o f }

/-- MODE of output o. -/
def outMode (s : State) (o : Nat) : Nat := rdF s (rTrgOutCtl o) 30 29

/-- The number of pulses that output o's schedule holds; none where it has no end. -/
def outTotal (s : State) (o : Nat) : Option Nat :=
  if rd s (rTrgOutPeriod o) = 0 then some 1
  else if rd s (rTrgOutCount o) = 0 then none else some (rd s (rTrgOutCount o)).toNat

/-- The number of the first grid point at or after a time. -/
def gridFrom (s : State) (o t : Nat) : Nat :=
  let st := rd64 s (rTrgOutStartLo o) (rTrgOutStartHi o)
  let p := (rd s (rTrgOutPeriod o)).toNat
  if t ≤ st then 0 else if p = 0 then 1 else cdiv (t - st) p

/-- The time of grid point k. -/
def gridTime (s : State) (o k : Nat) : Nat := rd64 s (rTrgOutStartLo o) (rTrgOutStartHi o) + k * (rd s (rTrgOutPeriod o)).toNat

/-- The next pulse of a schedule is its first grid point at or after now + 1 µs; `missed` counts the points passed over. -/
def outSched (s : State) (o : Nat) (missed : Nat → Nat) : State :=
  if outMode s o ≠ 1 then s
  else
    let k := gridFrom s o (now s + 1000)
    let k := match outTotal s o with
      | some n => min k n
      | none => k
    let more := match outTotal s o with
      | some n => decide (k < n)
      | none => true
    let s := updOut s o fun x => { x with next := if more then some (gridTime s o k) else none, k := k }
    incrBy s (rTrgOutMissCnt o) (missed k)

/-- EN := 1 of output o: a single pulse whose time has passed is missed.
Assumption log: 54 (DEDUCED). -/
def outOn (s : State) (o : Nat) : State :=
  if rdB s (rTrgOutCtl o) 31 then updOut s o fun x => { x with closing := false }
  else
    let s := updOut (wrB s (rTrgOutCtl o) 31 true) o fun _ => {}
    outSched s o fun k => if outTotal s o = some 1 then k else 0

/-- EN := 0 of output o takes effect when the pulse in progress ends.
Assumption log: 54 (DEDUCED). -/
def outOff (s : State) (o : Nat) : State :=
  if (outOf s o).ends.isSome then updOut s o fun x => { x with next := none, due := [], closing := true }
  else updOut (wrB s (rTrgOutCtl o) 31 false) o fun _ => {}

/-- R519: after a step of the time every enabled output is scheduled again; a forward step misses what it skips.
Assumption log: 54 (DEDUCED). -/
def outStep (fwd : Bool) (s : State) (o : Nat) : State :=
  let x := outOf s o
  if !rdB s (rTrgOutCtl o) 31 || x.closing then s
  else
    let late := x.due.filter fun t => fwd && t < now s
    let s := updOut (incrBy s (rTrgOutMissCnt o) late.length) o fun x => { x with due := x.due.filter fun t => !late.contains t }
    outSched s o fun k => if fwd then k - x.k else 0

/-- The pulse in progress ends.
Assumption log: 54 (DEDUCED). -/
def pulseEnd (s : State) (o : Nat) : State :=
  let x := outOf s o
  match x.ends with
  | some e =>
    if e ≤ now s then
      if x.closing then updOut (wrB s (rTrgOutCtl o) 31 false) o fun _ => {}
      else updOut s o fun x => { x with ends := none }
    else s
  | none => s

/-- A pulse of output o begins now. -/
def pulseGo (s : State) (o : Nat) : State :=
  let w := max 10 (rdF s (rTrgOutWidth o) 23 0)
  incr (updOut s o fun x => { x with ends := some (now s + w) }) (rTrgOutPulseCnt o)

/-- TRIGGER_PULSE of output o: the pulse whose WIDTH is complete ends, and the pulse whose time has come is driven. -/
def execTriggerPulse (o : Nat) (s : State) : Out :=
  if 24 ≤ o then .next s
  else
    let s := pulseEnd s o
    let x := outOf s o
    if !rdB s rTrgCtl 0 || !rdB s (rTrgOutCtl o) 31 || x.closing then .next s
    else match outMode s o, x.next, x.due with
      | 1, some t, _ =>
        if now s < t then .next s
        else
          let k := x.k + 1
          let more := match outTotal s o with
            | some n => decide (k < n)
            | none => true
          .next (pulseGo (updOut s o fun x => { x with next := if more then some (gridTime s o k) else none, k := k }) o)
      | 2, _, t :: ts => if now s < t then .next s else .next (pulseGo (updOut s o fun x => { x with due := ts }) o)
      | _, _, _ => .next s

/-- The level that output o drives.
Assumption log: 54 (DEDUCED). -/
def outPin (s : State) (o : Nat) : Bool :=
  let on := rdB s (rTrgOutCtl o) 31 &&
    (if outMode s o = 0 then rdB s (rTrgOutCtl o) 27 else outMode s o != 3 && (outOf s o).ends.isSome)
  on != rdB s (rTrgOutCtl o) 28

/-! ### Trigger inputs (R518) -/

/-- EDGE of an input: whether it takes an edge. -/
def edgeOk (edge : Nat) (rising : Bool) : Bool := (edge = 0 && rising) || (edge = 1 && !rising) || edge = 2

/-- R519: an edge of input i at time t reaches a linked output. -/
def linkedEdge (i t : Nat) (s : State) (o : Nat) : State :=
  if !rdB s (rTrgOutCtl o) 31 || outMode s o != 2 || rdF s (rTrgOutCtl o) 20 16 != i || (outOf s o).closing then s
  else if (outOf s o).ends.isSome then incr s (rTrgOutBusyCnt o)
  else updOut s o fun x => { x with due := x.due ++ [t + (rd s (rTrgOutDelay o)).toNat] }

/-- TRIGGER_INPUT_EDGE: the level of input i has changed and has been stable for MINW ticks; `ago` is how long ago, in ns, the tick
was in which it was first seen. -/
def execTriggerInputEdge (i : Nat) (rising : Bool) (ago : Nat) (s : State) : Out :=
  if 24 ≤ i then .next s
  else
    let s := wrB s rTrgInLevel i rising
    if !rdB s rTrgCtl 0 || !rdB s (rTrgInCfg i) 31 || !edgeOk (rdF s (rTrgInCfg i) 30 29) rising then .next s
    else
      let t := now s - ago
      let e := [i + b2n rising * 256, t, t / 2 ^ 32].map (BitVec.ofNat 32)
      let s := updIo s fun x => { x with trg := (fifoPush 256 e x.trg).1 }
      .next (foldS (linkedEdge i t) (upto 24) s)

/-! ### System time (R513 to R515) -/

/-- R513: INC, the units of 2^-32 ns of a control-island cycle, with RATE clamped to ±1,000,000 ppb. No RATE makes the quotient
end in a half.
Assumption log: 6 (DESIGN CHOICE). -/
def timeInc (s : State) : Nat :=
  let r : Int := max (-1000000) (min (rd s rTimRate).toInt 1000000)
  (0x140000000 + (2 * 0x140000000 * r + 1000000000) / 2000000000 : Int).toNat

/-- One control-island cycle in which no command acts: the system time, modulo 2^64 ns, and the powered time (R449) advance. The
control island has no cycle while the chip is held in reset, or after a thermal trip (R475).
Assumption log: 6 (DESIGN CHOICE), 56 (DEDUCED), 72 (DEDUCED). -/
def idleCycle (s : State) : State :=
  if !s.io.released || s.pwr.tripped then s
  else
    let f := s.frac + timeInc s
    { s with ns := (s.ns + f / 2 ^ 32) % 2 ^ 64, frac := f % 2 ^ 32,
             root := { s.root with powered := s.root.powered + f / 2 ^ 32 } }

/-- R514: a step of the time: STEPPED, TIM_STEP_CNT, and the outputs are scheduled again. -/
def timeStep (s : State) (v : Int) : State :=
  let s := { s with ns := truncI 64 ((s.ns : Int) + v) }
  foldS (outStep (0 < v)) (upto 24) (incr (wrB s rTimStatus 0 true) rTimStepCnt)

/-- A write of TIM_STEP_HI; with SRC = LINK it is dropped. -/
def timStepWrite (s : State) (hi : Nat) : State :=
  if rdB s rTimCtl 1 then cfgDrop s 0x7D
  else timeStep s (sextN 64 (hi % 2 ^ 32 * 2 ^ 32 + (rd s rTimStepLo).toNat))

/-- TIM_STEP. -/
def execTimStep (hi : Nat) (s : State) : Out :=
  .next (busWrite s rTimStepHi (BitVec.ofNat 32 hi) fun s => timStepWrite s hi)

/-- PERIOD of the link servo, in ms. -/
def timPeriod (s : State) : Nat := max 1 (rdF s rTimLinkCfg 9 0)

/-- θ and d of a sample.
Assumption log: 55 (DEDUCED). -/
def syncSample (t1 t2 t3 t4 : Int) : Int × Int := (((t2 - t1) - (t4 - t3)) / 2, ((t4 - t1) - (t3 - t2)) / 2)

/-- R515: the servo takes θ: a step above STEP_NS, else RATE.
Assumption log: 55 (DEDUCED). -/
def servo (s : State) (th : Int) : State :=
  if rdF s rTimLinkCfg 31 16 < th.natAbs then timeStep s th
  else
    let r := (rd s rTimRate).toInt + 250 * th / timPeriod s
    wr s rTimRate (BitVec.ofInt 32 (max (-1000000) (min r 1000000)))

/-- A signed value saturated to 32 bits. -/
def sat32 (v : Int) : Word := BitVec.ofInt 32 (max (-2147483648) (min v 2147483647))

/-- A sample is used. -/
def syncUse (s : State) (th d : Int) : State :=
  let s := wr (wr s rTimOffset (sat32 th)) rTimDelay (sat32 d)
  let near := ((decide (th.natAbs < 100)) :: s.io.near).take 8
  let s := wrB (incr (updIo s fun i => { i with near := near }) rTimSyncCnt) rTimStatus 1 (near.length == 8 && near.all id)
  servo s th

/-- Whether the link servo runs: ENABLE, SRC = LINK, on a Skerry. -/
def servoOn (s : State) : Bool := rdB s rTimCtl 0 && rdB s rTimCtl 1 && roleOf s == 2

/-- The response that has arrived is used, or discarded where the retries changed or the parent is not ACTIVE.
Assumption log: 55 (DEDUCED). -/
def syncTake (s : State) : State :=
  match s.io.rsp, s.io.sync with
  | some r, some y =>
    let s := updIo s fun i => { i with rsp := none }
    if r.id ≠ y.id then s
    else
      let s := updIo s fun i => { i with sync := none }
      match y.t1 with
      | some (t1, n) =>
        if n ≠ r.retry ∨ linkState s y.link ≠ 4 then incr s rTimSyncSkipCnt
        else
          let v := syncSample t1 r.t2 r.t3 r.t4
          syncUse s v.1 v.2
      | none => s
  | some _, none => updIo s fun i => { i with rsp := none }
  | none, _ => s

/-- TSYNC_REQ: PERIOD has passed: a request with no response is a sample discarded, and the next one is sent to the parent. -/
def execTsyncReq (s : State) : Out :=
  if !servoOn s then .next s
  else
    let s := syncTake s
    let s := if s.io.sync.isSome then incr (updIo s fun i => { i with sync := none }) rTimSyncSkipCnt else s
    let c := rdF s rDdlChip 21 16
    let l := rdF s (rDdlRoute c) 2 0
    if !rdB s (rDdlRoute c) 31 || 6 ≤ l then .next (wrB s rTimStatus 2 true)
    else
      let s := wrB s rTimStatus 2 false
      if linkState s l ≠ 4 then .next (incr s rTimSyncSkipCnt)
      else
        let id := (s.io.syncId + 1) % 2 ^ 32
        let s := updIo s fun i => { i with syncId := id, sync := some ⟨id, l, none⟩ }
        .next (mgmtSeg s (some l) 0 (mgmtMsg 9 (leBytes 4 id)))

/-- TSYNC_RSP: the child takes the response.
Assumption log: 55 (DEDUCED). -/
def execTsyncRsp (s : State) : Out := if servoOn s then .next (syncTake s) else .next s

/-! ### Ethernet (R516, R517) -/

/-- The service island's agent at the fabric. -/
def whoEth : Who := ⟨0xD, 14, 0, none, none⟩

/-- Whether port p runs: the block, the port, and its link.
Assumption log: 52 (DEDUCED). -/
def portRuns (s : State) (p : Nat) : Bool := p < 2 && rdB s rEthCtl 0 && rdB s (rEthPCtl p) 31 && rdB s (rEthPStatus p) 0

/-- MTU of port p.
Assumption log: 52 (DEDUCED). -/
def ethMtu (s : State) (p : Nat) : Nat := max 64 (min (rdF s (rEthPCtl p) 13 0) 9216)

/-- Bytes of a global address that service agents can reach: another chip's is refused.
Assumption log: 52 (DEDUCED). -/
def ethRead (s : State) (g n : Nat) : Got × State :=
  if g / 2 ^ 40 = ownChip s then fabReads s whoEth (g % 2 ^ 40) n else (gotNone n 0x46, refuse s whoEth 0x46 g)

/-- A write by a port. -/
def ethWrite (s : State) (g : Nat) (bs : List Byte) : State :=
  if g / 2 ^ 40 = ownChip s then fabStore s whoEth (g % 2 ^ 40) bs (List.replicate bs.length false)
  else refuse s whoEth 0x46 g

/-- Entries of a ring by its CFG. -/
def ethEnts (cfg : Nat) : Nat := 16 * 4 ^ (cfg % 4)

/-- A big-endian number of n bytes at an offset. -/
def beAt (bs : List Byte) (o n : Nat) : Nat := (slice bs o n).foldl (fun v b => 256 * v + b.toNat) 0

/-- n bytes of a number, most significant first. -/
def beBytes (n v : Nat) : List Byte := (leBytes n v).reverse

/-- The offset of the EtherType behind at most one VLAN tag.
Assumption log: 51 (PRESUMED). -/
def typeAt (f : List Byte) : Nat := if beAt f 12 2 = 0x8100 then 16 else 12

/-- The offset of the PTP header of a frame that carries PTP (R517): EtherType 0x88F7, or UDP port 319 over IPv4 or IPv6.
Assumption log: 51 (PRESUMED). -/
def ptpAt (f : List Byte) : Option Nat :=
  let o := typeAt f + 2
  let t := beAt f (typeAt f) 2
  if t = 0x88F7 then some o
  else if t = 0x0800 then
    let u := o + beAt f o 1 % 16 * 4
    if beAt f (o + 9) 1 = 17 ∧ beAt f (u + 2) 2 = 319 then some (u + 8) else none
  else if t = 0x86DD then
    if beAt f (o + 6) 1 = 17 ∧ beAt f (o + 42) 2 = 319 then some (o + 48) else none
  else none

/-- R517: whether RX marks a frame PTP: an event message (IEEE 1588-2019: types 0 to 3).
Assumption log: 51 (PRESUMED). -/
def isPtp (f : List Byte) : Bool :=
  match ptpAt f with
  | some o => beAt f o 1 % 16 < 4
  | none => false

/-- The sum of the 16-bit words of a byte string, modulo 65535. -/
def onesSum (bs : List Byte) : Nat :=
  (bs.zipIdx.foldl (fun n x => n + x.1.toNat * (if x.2 % 2 = 0 then 256 else 1)) 0) % 65535

/-- Over IPv6 the last two bytes of the UDP payload, which starts at o, restore the sum that it had before the change.
Assumption log: 51 (PRESUMED). -/
def ip6Fix (old new : List Byte) (o : Nat) : List Byte :=
  let n := beAt old (o - 4) 2 - 8
  let v := (onesSum (slice old o n) + 65535 - onesSum (slice new o (n - 2))) % 65535
  if n < 2 then new
  else patch new (o + n - 2) (if n % 2 = 0 then beBytes 2 v else leBytes 2 v)

/-- R517: the one-step change of a frame that departs at t; `rx` is the RX time in TS. None for a format error.
Assumption log: 51 (PRESUMED). -/
def oneStep (f : List Byte) (o : Nat) (ip6 : Bool) (t rx : Nat) : Option (List Byte) :=
  let typ := beAt f o 1 % 16
  let new :=
    if f.length < o + 44 then none
    else if typ = 0 then some (patch f (o + 34) (beBytes 6 (t / 10 ^ 9) ++ beBytes 4 (t % 10 ^ 9)))
    else if typ = 3 then
      let c := (beAt f (o + 8) 8 + truncI 64 (((t : Int) - rx) * 65536)) % 2 ^ 64
      some (patch f (o + 8) (beBytes 8 c))
    else none
  new.map fun g =>
    if ip6 then ip6Fix f g o
    else if beAt f (typeAt f) 2 = 0x0800 then patch g (o - 2) (beBytes 2 0)
    else g

/-- The write-back of a TX descriptor at g, and TAIL. -/
def txDone (s : State) (p g flags result : Nat) (ts : Option Nat) : State :=
  let s := match ts with
    | some t => ethWrite s (g + 0x10) (leBytes 8 t)
    | none => s
  let s := ethWrite s (g + 0xC) (leBytes 4 (flags % 2 ^ 16 + result * 2 ^ 24 + 2 ^ 31))
  wrF s (rEthPTxTail p) 9 0 ((rdF s (rEthPTxTail p) 9 0 + 1) % ethEnts (rdF s (rEthPTxCfg p) 1 0))

/-- R516: the global address of the next TX descriptor of port p. -/
def ethTxDesc (s : State) (p : Nat) : Nat :=
  2 ^ 32 * rdF s (rEthPTxBaseHi p) 13 0 + rdF s (rEthPTxBaseLo p) 31 6 * 64 + 32 * rdF s (rEthPTxTail p) 9 0

/-- The TX descriptor at TAIL.
Assumption log: 52 (DEDUCED). -/
def txTake (s : State) (p : Nat) : State :=
  let g := ethTxDesc s p
  let got := ethRead s g 32
  let d := got.1
  let s := got.2
  let len := leAt d.data 8 2
  let flags := leAt d.data 12 4
  if flags % 2 ^ 16 / 8 ≠ 0 ∨ leAt d.data 0x18 8 ≠ 0 ∨ len + 4 < 64 ∨ ethMtu s p < len + 4 then txDone s p g flags 1 none
  else
    let got := ethRead s (leAt d.data 0 8) len
    let b := got.1
    let s := got.2
    if b.pois.any id then txDone (incr s (rEthPTxPoisonCnt p)) p g flags 2 none
    else
      let t := now s
      let f := if bitN flags 1 then oneStep b.data (leAt d.data 10 2) (bitN flags 2) t (leAt d.data 16 8) else some b.data
      match f with
      | none => txDone s p g flags 1 none
      | some f =>
        let s := updIo s fun i => { i with tx := i.tx.set p (f ++ leBytes 4 (crc32 f)) }
        txDone (incr s (rEthPTxCnt p)) p g flags 0 (if bitN flags 0 || bitN flags 1 then some t else none)

/-- ETH_TX_DESCRIPTOR of port p.
Assumption log: 52 (DEDUCED). -/
def execEthTxDescriptor (p : Nat) (s : State) : Out :=
  if !portRuns s p || rdF s (rEthPTxHead p) 9 0 % ethEnts (rdF s (rEthPTxCfg p) 1 0) == rdF s (rEthPTxTail p) 9 0 then .next s
  else .next (txTake s p)

/-- R516: the global address of the next RX descriptor of port p. -/
def ethRxDesc (s : State) (p : Nat) : Nat :=
  2 ^ 32 * rdF s (rEthPRxBaseHi p) 13 0 + rdF s (rEthPRxBaseLo p) 31 6 * 64 + 32 * rdF s (rEthPRxTail p) 9 0

/-- A received frame takes the RX descriptor at TAIL.
Assumption log: 52 (DEDUCED). -/
def rxTake (s : State) (p : Nat) (f : List Byte) (t : Nat) : State :=
  let g := ethRxDesc s p
  let got := ethRead s g 32
  let d := got.1
  let s := got.2
  let cap := leAt d.data 8 2
  let s := ethWrite s (leAt d.data 0 8) (f.take cap)
  let s := ethWrite (ethWrite s (g + 0x10) (leBytes 8 t)) (g + 0x18) (leBytes 2 f.length)
  let s := ethWrite s (g + 0xC) (leBytes 4 (b2n (isPtp f) + (if cap < f.length then 3 else 0) * 2 ^ 24 + 2 ^ 31))
  let s := wrF s (rEthPRxTail p) 9 0 ((rdF s (rEthPRxTail p) 9 0 + 1) % ethEnts (rdF s (rEthPRxCfg p) 1 0))
  incr s (rEthPRxCnt p)

/-- ETH_RX_FRAME on port p: the bytes without their FCS, whether the FCS was bad, and how long ago, in ns, the first bit after the
SFD arrived.
Assumption log: 13 (DESIGN CHOICE), 52 (DEDUCED). -/
def execEthRxFrame (p : Nat) (f : List Byte) (badFcs : Bool) (ago : Nat) (s : State) : Out :=
  if !portRuns s p then .next s
  else if badFcs then .next (incr s (rEthPFcsCnt p))
  else if rdF s (rEthPRxHead p) 9 0 % ethEnts (rdF s (rEthPRxCfg p) 1 0) == rdF s (rEthPRxTail p) 9 0 then
    .next (incr s (rEthPNobufCnt p))
  else .next (rxTake s p f (now s - ago))

/-- ETH_LINK_CHANGE of port p. Only 1000BASE-X has auto-negotiation; MODE 3 holds the port down.
Assumption log: 52 (DEDUCED). -/
def execEthLinkChange (p : Nat) (up : Bool) (s : State) : Out :=
  if 2 ≤ p then .next s
  else
    let m := rdF s (rEthPCtl p) 25 24
    let up := up && rdB s rEthCtl 0 && rdB s (rEthPCtl p) 31 && m != 3
    .next (wrB (wrB s (rEthPStatus p) 0 up) (rEthPStatus p) 1 (up && m == 2))

/-! ### Serial I/O (R520) -/

/-- The base of serial controller ch: 0 to 5 I2C, 6 to 7 SPI, 8 to 9 UART. -/
def serBase (ch : Nat) : Nat :=
  if ch < 6 then 0x3007F01000 + 0x100 * ch else if ch < 8 then 0x3007F02000 + 0x100 * (ch - 6) else 0x3007F03000 + 0x100 * (ch - 8)

/-- A serial controller. -/
def serOf (s : State) (ch : Nat) : Ser := s.io.ser.getD ch {}

/-- Changing a serial controller. -/
def updSer (s : State) (ch : Nat) (f : Ser → Ser) : State := updIo s fun i => { i with ser := i.ser.modify ch f }

/-- OP of a command entry. -/
def serOp (e : List Word) : Nat := fld (e.headD 0) 31 28

/-- A NACK (0), ARB_LOST (1) or TIMEOUT (2): the flag, the commands up to the next START are discarded, and STOP is issued.
Assumption log: 53 (DESIGN CHOICE). -/
def serFail (s : State) (ch flag : Nat) : State :=
  let s := wrB s (serBase ch + 0x14) flag true
  updSer s ch fun x => { x with cmd := { x.cmd with ents := x.cmd.ents.dropWhile fun e => serOp e != 0 },
                                isOpen := false, bus := some 0x30000000 }

/-- The oldest command of controller ch, if its OP is `op` and the controller runs; it leaves the FIFO. -/
def serTake (s : State) (ch op : Nat) : Option Word × State :=
  if 8 ≤ ch || !rdB s rSioCtl 0 || !rdB s (serBase ch) 31 then (none, s)
  else match (serOf s ch).cmd.ents with
    | [] => (none, s)
    | e :: es =>
      if serOp e ≠ op then (none, s)
      else (some (e.headD 0), updSer s ch fun x => { x with cmd := { x.cmd with ents := es, rd := 0 }, bus := some (e.headD 0) })

/-- How an I2C command ended: not at all, or with a NACK (0) or the arbitration lost (1). SPI has neither.
Assumption log: 53 (DESIGN CHOICE). -/
def serErr (s : State) (ch : Nat) (err : Option Nat) : State :=
  match err with
  | some e => if ch < 6 then serFail s ch (e % 2) else s
  | none => s

/-- SIO_START on controller ch.
Assumption log: 53 (DESIGN CHOICE). -/
def execSioStart (ch : Nat) (err : Option Nat) (s : State) : Out :=
  match serTake s ch 0 with
  | (some _, s) => .next (serErr (updSer s ch fun x => { x with isOpen := true }) ch err)
  | (none, s) => .next s

/-- SIO_WRITE on controller ch.
Assumption log: 53 (DESIGN CHOICE). -/
def execSioWrite (ch : Nat) (err : Option Nat) (s : State) : Out :=
  match serTake s ch 1 with
  | (some _, s) => .next (serErr s ch err)
  | (none, s) => .next s

/-- SIO_READ on controller ch: the byte that the device drove enters the RX FIFO.
Assumption log: 13 (DESIGN CHOICE), 53 (DESIGN CHOICE). -/
def execSioRead (ch : Nat) (b : Byte) (err : Option Nat) (s : State) : Out :=
  match serTake s ch 2 with
  | (some _, s) =>
    match err with
    | some _ =>
      if ch < 6 then .next (serErr s ch err)
      else .next (updSer s ch fun x => { x with rx := (fifoPush Config.sioRxDepth [b.setWidth 32] x.rx).1 })
    | none => .next (updSer s ch fun x => { x with rx := (fifoPush Config.sioRxDepth [b.setWidth 32] x.rx).1 })
  | (none, s) => .next s

/-- SIO_STOP on controller ch.
Assumption log: 53 (DESIGN CHOICE). -/
def execSioStop (ch : Nat) (s : State) : Out :=
  match serTake s ch 3 with
  | (some _, s) => .next (updSer s ch fun x => { x with isOpen := false })
  | (none, s) => .next s

/-- I2C_TIMEOUT of controller ch: a device has stretched the clock beyond 25 ms.
Assumption log: 8 (DESIGN CHOICE). -/
def execI2cTimeout (ch : Nat) (s : State) : Out := if ch < 6 ∧ (serOf s ch).isOpen then .next (serFail s ch 2) else .next s

end Sys2Proof.Machine
end

