-- ==== Sys2Proof/Machine/Reset.lean ====
section
/-! DEFINITION. Resets, REFCLK and the PLLs (chapter 20). -/

namespace Sys2Proof.Machine
open Sys2Proof

/-! ### Chip reset (R527 to R529, R537) -/

/-- R537: every register, memory and unit returns to its reset state. What is kept: the commands that wait, the flash, the fuses, the
trip record, the straps as latched, and the pins. `cause` holds the causes present during this reset.
Assumption log: 1 (DESIGN CHOICE), 4 (DESIGN CHOICE), 40 (DEDUCED). -/
def chipReset (s : State) (cause : Nat) : State :=
  let r := s.root
  let root : Root := { nor := r.nor, emmc := r.emmc, revoke := r.revoke, rb := r.rb, straps := r.straps }
  let cause := if s.io.released then cause else s.io.cause ||| cause
  let io : Io :=
    { porLow := s.io.porLow, rstLow := s.io.rstLow, refLost := s.io.refLost, cause := cause, testen := s.io.testen }
  { State.reset with pending := s.pending, free := s.free, root := root, io := io, pwr := { tripRec := s.pwr.tripRec } }

/-- Whether something still holds the chip in reset. -/
def resetHeld (s : State) : Bool := s.io.porLow || s.io.rstLow || s.io.refLost

/-- Reset release (Table 20.6): the PLLs are locked, the islands and, outside the private test mode, the root core leave reset; the causes
are captured, and the boot nonce is drawn.
Assumption log: 2 (DESIGN CHOICE), 40 (DEDUCED). -/
def resetRelease (s : State) : State :=
  if resetHeld s then s
  else
    let s := wr s rTopPllLock 0x7FFF
    let s := wr s rTopRstCause (BitVec.ofNat 32 (s.io.cause % 16 + 16 * b2n s.pwr.tripRec))
    let s := foldS (fun s w =>
      let (v, s) := freeW s
      wr s (rSecBootNonce w) v) (upto 8) s
    updIo s fun i => { i with released := !i.testen, relAt := now s }

/-- TOP_RST_CTL.CHIP: a software chip reset, whose sequence runs to its end.
Assumption log: 40 (DEDUCED). -/
def softReset (s : State) : State := resetRelease (chipReset s 4)

/-- CHIP_RESET: RST_N goes low (`pin`), or TOP_RST_CTL.CHIP is written with its key.
Assumption log: 40 (DEDUCED). -/
def execChipReset (pin : Bool) (s : State) : Out :=
  if pin then .next (chipReset (updIo s fun i => { i with rstLow := true }) 2) else .next (softReset s)

/-- POWER_ON_RESET: PORST_N goes low, or VDD_AON falls below its trip point (`aon` says that it stays up).
Assumption log: 40 (DEDUCED). -/
def execPowerOnReset (aon : Bool) (s : State) : Out :=
  let s := chipReset (updIo s fun i => { i with porLow := true }) 1
  .next (if aon then s else updPwr s fun p => { p with tripRec := false })

/-- CLK_LOST: REFCLK has had no edge for 2 µs. -/
def execClkLost (s : State) : Out := .next (chipReset (updIo s fun i => { i with refLost := true }) 8)

/-- REFCLK_RETURN: REFCLK has run for 100 µs after a loss. -/
def execRefclkReturn (s : State) : Out :=
  if !s.io.refLost then .next s else .next (resetRelease (updIo s fun i => { i with refLost := false }))

/-- RESET_DEASSERT: the rising edge of the last reset pin latches the straps, BOOT_SEL and TESTEN.
Assumption log: 11 (DESIGN CHOICE), 40 (DEDUCED). -/
def execResetDeassert (straps : Nat) (testen : Bool) (s : State) : Out :=
  if !s.io.porLow && !s.io.rstLow then .next s
  else
    let s := updRoot s fun r => { r with straps := straps % 8 }
    .next (resetRelease (updIo s fun i => { i with porLow := false, rstLow := false, testen := testen }))

/-- RSTOUT_N is low during a chip reset, for 100 µs after reset release, and while TOP_RST_CTL.OUT = 1 (R531). -/
def rstoutLow (s : State) : Bool := !s.io.released || now s < s.io.relAt + 100000 || rdB s rTopRstCtl 1

/-! ### The PLLs (R527) -/

/-- PLL_LOCK_LOSS of island i. -/
def execPllLockLoss (i : Nat) (s : State) : Out := if i < 15 then .next (wrB s rTopPllLock i false) else .next s

/-- PLL_RELOCK of island i; the beats that a cluster island held are counted as blocked beats.
Assumption log: 8 (DESIGN CHOICE). -/
def execPllRelock (i n : Nat) (s : State) : Out :=
  if 15 ≤ i || rdB s rTopPllLock i then .next s
  else
    let s := wrB s rTopPllLock i true
    .next (if i < 8 ∧ running s ∧ bitN (place s) i then incrBy s (rCluBlockedCnt i) n else s)

/-! ### Island reset (R530, R537) -/

/-- Memory in [a, b) is zero, clean and unpoisoned. -/
def sramZero (s : State) (a b : Nat) : State :=
  { s with mem := { s.mem with sram := mclear a b s.mem.sram, pois := mclear (a / 32) (b / 32) s.mem.pois,
                               barPois := mclear (a / 8) (b / 8) s.mem.barPois, ecc := mclear (a / 32) (b / 32) s.mem.ecc,
                               barEcc := mclear (a / 8) (b / 8) s.mem.barEcc,
                               wb := s.mem.wb.filter fun w => w < a / 32 || b / 32 ≤ w } }

/-- The registers of a block return to their reset values. -/
def blkReset (s : State) (k : Nat) : State :=
  let a := blkBase k
  { s with rf := { s.rf with val := mclear a (a + 0x100000) s.rf.val, chk := s.rf.chk.filter fun c => c.blk != k,
                             held := s.rf.held.filter fun h => h.1 < a || a + 0x100000 ≤ h.1,
                             hi := s.rf.hi.filter fun h => h.1 < a || a + 0x100000 ≤ h.1 } }

/-- Cluster island k: its registers, cores, memories, tags, hold stores and bank. -/
def cluReset (s : State) (k : Nat) : State :=
  let s := foldS blkReset ((0x10 + k) :: (upto 4).map fun p => 0x20 + 4 * k + p) s
  let s := foldS (fun s p => setCore s (4 * k + p) {}) (upto 4) (setClu s k {})
  let s := foldS (fun s i =>
    let m := cluMem k i
    let s := sramZero s (memBase m) (memBase m + 0x200000)
    { s with mem := { s.mem with slots := mclear (512 * m) (512 * m + 512) s.mem.slots,
                                 holds := s.mem.holds.filter fun h => h.mem != m } }) (upto 5) s
  sramZero s (bankBase k) (bankBase k + 0x100000)

/-- The DDR island: DMA and MEM. ENFORCE and the locked regions stay until a chip reset (R353).
Assumption log: 39 (DEDUCED), 42 (DESIGN CHOICE). -/
def ddrReset (s : State) : State :=
  let t := blkReset (blkReset s 0x40) 0x48
  let t := wrB t rMemFwCtl 0 (rdB s rMemFwCtl 0)
  let t := foldS (fun t r =>
    if rdB s (rMemRgnCtl r) 30 then
      foldS (fun t a => wr t a (rd s a)) [rMemRgnCtl r, rMemRgnBase r, rMemRgnSize r, rMemRgnMask r] t
    else t) (upto 64) t
  { t with dma := List.replicate 8 {}, mem := { t.mem with dram := [], patrol := List.replicate 6 0 } }

/-- Island i returns to its reset state. The temperature code of the host port's MR4 follows the die, not the island (R359).
Assumption log: 39 (DEDUCED), 40 (DEDUCED). -/
def islInit (s : State) (i : Nat) : State :=
  if i < 8 then cluReset s i
  else if i = 8 then ddrReset s
  else if i = 9 then
    { sramZero (blkReset s 0x50) 0x2200000000 0x2200400000 with hp := { hot := s.hp.hot } }
  else if i = 0xA then
    let t := sramZero (foldS blkReset ((upto 16).map fun k => 0x58 + k) s) 0x2100000000 0x2100800000
    { t with csi := {}, vid := {}, mem := { t.mem with scrubM := 0 } }
  else if i = 0xB then
    let t := blkReset s 0x68
    { t with lk := { t.lk with l := List.replicate 6 {} } }
  else if i = 0xD then
    updIo (blkReset s 0x7C) fun x => { x with harts := List.replicate 8 none, svc := none, l2 := [], tx := [[], []] }
  else s

/-- R530: whether island i may be reset: it takes part in no running placement and no prepared or armed commit group.
Assumption log: 41 (DEDUCED). -/
def islFree (s : State) (i : Nat) : Bool :=
  !(i < 8 && running s && bitN (place s) i) &&
    !((upto 16).any fun g => (cgState s g == 1 || cgState s g == 2) && cgNames s blkIsl g i)

/-- HOLD of island i is set. -/
def islHold (s : State) (i : Nat) : State :=
  if i = 12 ∨ i = 14 ∨ 15 ≤ i ∨ rdB s rTopIslRst i then s
  else if islFree s i then wrB (islInit s i) rTopIslRst i true
  else cfgDrop s 0

/-- HOLD of island i is cleared. -/
def islRelease (s : State) (i : Nat) : State :=
  if i < 15 ∧ rdB s rTopIslRst i then islRejoin (wrB s rTopIslRst i false) i false else s

/-- A write of TOP_ISL_RST.
Assumption log: 40 (DEDUCED), 41 (DEDUCED). -/
def islRstWrite (s : State) (v : Nat) : State :=
  foldS (fun s i => if bitN v i then islHold s i else islRelease s i) (upto 15) s

/-- ISLAND_RESET: a write of TOP_ISL_RST that sets the bits of a mask.
Assumption log: 41 (DEDUCED), 50 (DEDUCED). -/
def execIslandReset (mask : Nat) (s : State) : Out :=
  .next (busWrite s rTopIslRst (rd s rTopIslRst ||| BitVec.ofNat 32 (mask % 2 ^ 15)) fun s => foldS islHold (bitList 15 mask) s)

/-- ISLAND_RESET_RELEASE: the write that clears the bit of island i. -/
def execIslandResetRelease (i : Nat) (s : State) : Out :=
  .next (busWrite s rTopIslRst (if i < 15 then setBit (rd s rTopIslRst) i false else rd s rTopIslRst) fun s => islRelease s i)

end Sys2Proof.Machine
end

