-- ==== Sys2Proof/Machine/Boot.lean ====
section
/-! DEFINITION. The root ROM's boot sequence, the journal's verification, the Shallows program and the two monitors (chapters 16
and 18). -/

namespace Sys2Proof.Machine
open Sys2Proof

/-! ### The boot firewall (R493) -/

/-- The bits of a list of agents. -/
def agentBits (l : List Nat) : Nat := l.foldl (fun v i => v ||| 2 ^ i) 0

/-- One region of Table 18.9: number, base and end, RD and WR agents, and whether it is locked. -/
def bootRegion (s : State) (r a b : Nat) (rdA wrA : List Nat) (lock : Bool) : State :=
  let s := wr (wr s (rMemRgnBase r) (BitVec.ofNat 32 (a / 65536))) (rMemRgnSize r) (BitVec.ofNat 32 ((b - a) / 65536))
  let s := wr s (rMemRgnMask r) (BitVec.ofNat 32 (agentBits rdA + 65536 * agentBits wrA))
  wr s (rMemRgnCtl r) (BitVec.ofNat 32 (2 ^ 31 + b2n lock * 2 ^ 30))

/-- The regions of Table 18.9, then ENFORCE. -/
def bootFirewall (s : State) : State :=
  let media := [0, 1, 2, 3, 4, 5, 6, 7, 8, 9, 13, 15]
  let eng := [0, 1, 2, 3, 4, 5, 6, 7, 8, 13, 15]
  let s := bootRegion s 63 0x2300000000 0x23000C0000 [13, 15] [15] true
  let s := bootRegion s 62 0x23000C0000 0x2300100000 [8, 13, 15] [8, 13, 15] false
  let s := bootRegion s 61 0x2100000000 0x2100400000 media [8, 9, 12, 13, 14, 15] false
  let s := bootRegion s 60 0x2100400000 0x2100800000 media [8, 9, 12, 13, 14, 15] false
  let s := bootRegion s 59 0x2200000000 0x2200400000 [8, 11, 13, 15] [8, 11, 13, 15] false
  let s := bootRegion s 58 0x2000000000 0x2004000000 eng eng false
  let s := bootRegion s 57 0x2004000000 0x2005000000 eng eng false
  wrB s rMemFwCtl 0 true

/-- R493, step 3: agent bits 12 and 14 lose the write grants of regions 60 and 61. -/
def narrowMedia (s : State) : State :=
  foldS (fun s r => wr s (rMemRgnMask r) (rd s (rMemRgnMask r) &&& 0xAFFFFFFF)) [60, 61] s

/-- R493, step 4: narrowing at the hand-over; with DEST 2 entries the lower media SRAM is writable by the root core alone. -/
def narrowBoot (s : State) (es : List LoadEnt) : State :=
  let s := narrowMedia s
  if es.any fun e => e.dest == 2 then wrF s (rMemRgnMask 61) 31 16 0x8000 else s

/-! ### The control page (R370 to R375, R486) -/

/-- Step 1 of R486: the control page of the ROM, with the log ring (Table 13.4); MAGIC last.
Assumption log: 43 (DESIGN CHOICE). -/
def romPage (s : State) : State :=
  let s := fwPut s (hpAddr 0x800) (leBytes 4 0x10000 ++ leBytes 4 0x40000)
  let s := fwPut s (hpAddr 4) (leBytes 2 1)
  let s := setFwState s 1
  let s := fwPut s (hpAddr 0xC) (leBytes 1 0 ++ leBytes 1 0)
  fwPut s (hpAddr 0) (leBytes 4 0x5A4B4850)

/-- Ring pair r of a page, with its request and response rings.
Assumption log: 43 (DESIGN CHOICE). -/
def pageRing (s : State) (p reqs ents rsps : Nat) : State := fwPut s p (leBytes 4 reqs ++ leBytes 4 ents ++ leBytes 4 rsps ++ leBytes 4 ents)

/-- NSLOT and SLOT_SIZE that firmware gives result channel k, within R375 and an equal share of the area of Table 13.4.
Assumption log: 43 (DESIGN CHOICE). -/
def chanShape (k : Nat) : Nat × Nat :=
  let n := 2 + (Config.slotsOf k).1 % 255
  (n, 2 + (Config.slotsOf k).2 % (0x3B000 / 32 / n - 1))

/-- Boot firmware's page: n ring pairs of 64 entries (Table 13.4), the result channels with cleared slot headers (R375), and POLL_US
between 1 and 100.
Assumption log: 2 (DESIGN CHOICE), 43 (DESIGN CHOICE). -/
def fwPage (s : State) (n chans : Nat) : State :=
  let s := foldS (fun s r => pageRing s (hpAddr (0x100 + 0x80 * r)) (0x1000 + 0x1000 * r) 64 (0x5000 + 0x1000 * r)) (upto n) s
  let s := foldS (fun s k =>
    let (a, b) := chanShape k
    let s := foldS (fun s i => fwPut s (hpAddr (0x50000 + 0x3B000 * k + 32 * b * i)) (List.replicate 32 0)) (upto a) s
    fwPut s (chanPage k) (leBytes 4 (0x50000 + 0x3B000 * k) ++ leBytes 2 a ++ leBytes 2 b ++ leBytes 4 0)) (upto chans) s
  let (p, s) := freeN s
  fwPut s (hpAddr 8) (leBytes 4 (1 + p % 100) ++ leBytes 1 n ++ leBytes 1 chans)

/-- The page of the service cores' ring pairs (R385), in control SRAM data: at activation, where CP_SVC_PAGE is still 0.
Assumption log: 43 (DESIGN CHOICE). -/
def svcPage (s : State) : State :=
  if rdF s rCpSvcPage 19 6 ≠ 0 then s
  else
    let s := wr s rCpSvcPage 0xC0000
    foldS (fun s r => pageRing s (pairPage s (4 + r)) (0xC1000 + 0x800 * r) 16 (0xC1400 + 0x800 * r)) (upto 4) s

/-! ### The journal at boot (R450, R451, R453) -/

/-- The RETIRED map of a segment header (Table 16.5). -/
structure RMap where
  cores : Nat := 0
  cstore : Nat := 0
  pipe : Nat := 0
  lanes : List Nat := [0, 0, 0, 0, 0, 0]
  devs : List Nat := List.replicate 30 0
  deriving DecidableEq, Repr

/-- The map of a header. -/
def mapOf (h : List Byte) : RMap :=
  ⟨leAt h 0x10 4, leAt h 0x14 1, leAt h 0x15 1 % 8, (upto 6).map fun l => leAt h (0x16 + l) 1,
    (upto 30).map fun i => leAt h 0x1C 8 / 4 ^ i % 4⟩

/-- A permanent record joins the map (Table 16.7).
Assumption log: 45 (DEDUCED). -/
def mapAdd (m : RMap) (r : JRec) : RMap :=
  if r.cls ≠ 2 then m
  else if r.kind ≤ 2 then { m with cores := m.cores ||| 2 ^ r.unit }
  else if r.kind = 3 then { m with cstore := m.cstore ||| 2 ^ r.unit }
  else if r.kind = 4 then
    { m with devs := m.devs.modify (5 * (r.unit / 8) + r.unit % 8) fun v => max v (if r.loc = 8 then 2 else 1) }
  else if r.kind = 5 then { m with lanes := m.lanes.modify (r.unit / 8) (· ||| 2 ^ (r.unit % 8)) }
  else if r.kind = 6 then { m with pipe := m.pipe ||| 2 ^ r.unit }
  else m

/-- How far the verification has come: the chain, unless the record before is no longer there; whether the records from here to the next
good seal are CLASS 3; the records; the RETIRED map of the last verified header with what the records after it retire; the places
at fault; the next record SEQ, PCYCLES and the powered time. -/
structure Jv where
  chain : Option (List Byte)
  bad : Bool := false
  recs : List JRec := []
  map : RMap := {}
  faults : List (Nat × Nat) := []
  seq : Nat := 0
  pcycle : Nat := 0
  powered : Nat := 0
  deriving DecidableEq, Repr

/-- One record of 64 bytes, at index i of segment g.
Assumption log: 45 (DEDUCED). -/
def jvRec (g : Nat) (v : Jv) (x : List Byte × Nat) : Jv :=
  let b := x.1
  let ok := match v.chain with
    | none => true
    | some c => (Config.shake (c ++ b.take 48)).take 16 == slice b 48 16
  let bad := v.bad || !ok
  let w0 := leAt b 0x10 4
  let r : JRec := ⟨bitsN w0 28 4, leAt b 0x17 1, leAt b 0x14 3, leAt b 4 4, leAt b 8 8, if bad then 3 else leAt b 0x1C 1⟩
  { v with chain := some (slice b 48 16), bad := bad, recs := v.recs ++ [r], map := mapAdd v.map r,
           faults := if ok then v.faults else v.faults ++ [(g, x.2)], seq := leAt b 0 4 + 1, powered := max v.powered (leAt b 8 8) }

/-- The records of a segment: those written.
Assumption log: 45 (DEDUCED). -/
def segRecs (s : State) (d : Bool) (a : Nat) : List (List Byte) :=
  ((upto 1000).map fun i => flashGet s d (a + 64 + 64 * i) 64).takeWhile fun b => b.any (· != 0xFF)

/-- Whether the seal area of a segment has not been written. -/
def segUnsealed (s : State) (d : Bool) (a : Nat) : Bool := (flashGet s d (a + 64064) 1472).all (· == 0xFF)

/-- One segment g at a: its records and its seal. Only the newest may be without one.
Assumption log: 45 (DEDUCED). -/
def jvSeg (s : State) (d : Bool) (a : Nat) (pub : List Byte) (v : Jv) (g : Nat) (newest : Bool) : Jv :=
  let h := flashGet s d a 64
  let rs := segRecs s d a
  let n := v.recs.length
  let before := v.map
  let w := rs.zipIdx.foldl (jvRec g) { v with pcycle := leAt h 8 4 }
  if newest && segUnsealed s d a then w
  else
    let area := flashGet s d (a + 64064) 1472
    let good := Config.falconVerify pub (h ++ w.chain.getD (List.replicate 16 0)) (slice area 8 (leAt area 0 2))
    if good then { w with bad := false, map := (w.recs.drop n).foldl mapAdd (mapOf h) }
    else
      { w with bad := true, faults := w.faults ++ [(g, rs.length)], map := before,
               recs := w.recs.take n ++ (w.recs.drop n).map fun r => { r with cls := 3 } }

/-- A segment number in its place by SEG_SEQ. -/
def segInsert (x : Nat × Nat) : List (Nat × Nat) → List (Nat × Nat)
  | [] => [x]
  | y :: ys => if x.2 ≤ y.2 then x :: y :: ys else y :: segInsert x ys

/-- The segments of the ring that hold a header, by SEG_SEQ: (ring index, SEG_SEQ).
Assumption log: 45 (DEDUCED). -/
def segRing (s : State) (d : Bool) (a : Nat) : List (Nat × Nat) :=
  ((upto 16).filterMap fun i =>
    let h := flashGet s d (a + 65536 * i) 64
    if leAt h 0 4 = 0x4A484B5A then some (i, leAt h 4 4) else none).foldr segInsert []

/-- R453: the RETIRED map takes effect, and the root core keeps what classification needs.
Assumption log: 45 (DEDUCED). -/
def journalSet (s : State) (v : Jv) : State :=
  let pc := v.pcycle + b2n (rdB s rTopRstCause 0)
  let s := updRoot s fun r =>
    { r with recs := v.recs, jok := v.faults.isEmpty, lanes := v.map.lanes, devs := v.map.devs, jseq := v.seq, pcycle := pc,
             chain := v.chain.getD (List.replicate 16 0), powered := v.powered * 1000000 }
  retireSet (retireSet (retireSet s 0 v.map.cores) 1 v.map.cstore) 2 v.map.pipe

/-- Step 7 of R486: every seal and every chain is verified; what was not sealed is sealed, and a new segment is opened.
Assumption log: 45 (DEDUCED). -/
def journalVerify (s : State) : State :=
  match journalAt s, s.root.seed with
  | some (d, a), some seed =>
    let pub := Config.falconPub seed
    let segs := segRing s d a
    let first := match segs.head? with
      | some x => if x.2 ≤ 1 then some (List.replicate 16 0) else none
      | none => some (List.replicate 16 0)
    let last := segs.getLast?
    let v := segs.foldl (fun (v : Jv) x => jvSeg s d (a + 65536 * x.1) pub v x.1 (some x == last)) { chain := first }
    let s := journalSet (foldS (fun s f => logMsg s 0xE 0x99 (leBytes 4 f.1 ++ leBytes 4 f.2)) v.faults s) v
    match last with
    | none => segOpen s 0
    | some (i, q) =>
      let s := updRoot s fun r => { r with jseg := i, jsegSeq := q, jcnt := (segRecs s d (a + 65536 * i)).length }
      let s := if segUnsealed s d (a + 65536 * i) then segSeal s else s
      segOpen s (i + 1)
  | _, _ => s

/-- Where the journal goes on, without any verification: on the recovery path, records are still chained (R450). -/
def journalFind (s : State) : State :=
  match journalAt s with
  | none => s
  | some (d, a) =>
    let segs := segRing s d a
    let rs := segs.flatMap fun x => segRecs s d (a + 65536 * x.1)
    let r := rs.getLast?.getD []
    match segs.getLast? with
    | none => s
    | some (i, q) =>
      let b := a + 65536 * i
      let pc := leAt (flashGet s d b 64) 8 4 + b2n (rdB s rTopRstCause 0)
      updRoot s fun t => { t with jseg := i, jsegSeq := q, jcnt := (segRecs s d b).length, sealed := !segUnsealed s d b,
                                  jseq := if r = [] then 0 else leAt r 0 4 + 1, pcycle := pc,
                                  chain := if r = [] then List.replicate 16 0 else slice r 48 16 }

/-! ### Trying an image (R483, R486 step 3) -/

/-- R507: an attempt is recorded.
Assumption log: 44 (DEDUCED). -/
def bootTry (s : State) (code src copy : Nat) : State :=
  let k := s.root.tries
  let s := if k < 10 then wr s (rBootTry k) (BitVec.ofNat 32 (code * 256 + src * 8 + copy * 4)) else s
  let s := wrF s rBootStatus 5 2 (src * 2 + copy)
  updRoot (if code = 0 then s else wrF s rBootStatus 15 8 code) fun r => { r with tries := k + 1 }

/-- An image as received: it is copied by its load table, and checked; the entries and the image where it passes, and the code.
Assumption log: 44 (DEDUCED). -/
def imageTry (s : State) (img : List Byte) (src copy : Nat) : Option (List LoadEnt × SImg) × Nat × State :=
  let len := img.length - 3200
  let tab := if img.length < 3200 then none else loadTable (img.take len) 0 len
  match tab with
  | none => (none, 0x89, bootTry s 0x89 src copy)
  | some es =>
    let sig := img.drop len
    let s := loadCopy s img 0 es
    let code := imageCheck s sig (img.take len) img.length [0]
    let s := bootTry s code src copy
    (if code = 0 then some (es, ⟨leAt sig 5 1, leAt sig 8 4, slice sig 0x20 64⟩) else none, code, s)

/-- A copy in a flash: the bytes of its partition, at most 4 MiB.
Assumption log: 44 (DEDUCED). -/
def flashImage (s : State) (d : Bool) (copy : Nat) : List Byte :=
  match partOf s d (1 + copy) with
  | some (a, n) => if n ≤ 0x400000 then flashGet s d a n else []
  | none => []

/-! ### The two paths (R486, R487) -/

/-- The control processor is released at an entry point. -/
def cpGo (s : State) (entry : Nat) : State := updRoot s fun r => { r with held := false, entry := entry }

/-- The Shallows bundle that an image carries: its DEST 2 entry. -/
def shalOf (es : List LoadEnt) : Option (Nat × Nat) := (es.find? fun e => e.dest == 2).map fun e => (e.dst, e.size)

/-- The hand-over to a checked image: ROM_HIDE and BOOT_TIME, the control processor's release and the root runtime, and boot firmware's
first words. -/
def handOver (s : State) (img : List Byte) (es : List LoadEnt) (im : SImg) : State :=
  let s := wrB s rSecLock 0 true
  let s := wr s rBootTime (BitVec.ofNat 32 ((now s - s.io.relAt) / 1000))
  let s := updRoot (cpGo s (leAt img 8 4)) fun r =>
    { r with rootEntry := leAt img 12 4, inUse := r.inUse.set 0 (some im), shal := shalOf es }
  setFwState (fwPage s 4 (1 + Config.results % 16)) 2

/-- Steps 5 to 8 of R486. -/
def bootMain (s : State) (img : List Byte) (es : List LoadEnt) (im : SImg) (flash : Option (Bool × Nat)) : State :=
  let s := narrowBoot (wrB s rSecLock 3 true) es
  let s := updRoot s fun r => { r with flash := flash, seed := some ((Config.shake (Config.deviceSecret ++
    [0x5A, 0x4B, 0x39, 0x36, 0x2D, 0x49, 0x44])).take 48) }
  let s := updRoot (wrB s rSecLock 1 true) fun r => { r with idKey := true }
  let s := wrF (journalVerify s) rBootStatus 7 6 1
  handOver s img es im

/-- R487, R501: the recovery path. -/
def bootRecovery (s : State) : State :=
  let s := wrF (wrB (wrB s rSecLock 1 true) rSecLock 2 true) rBootStatus 7 6 2
  setFwState (fwPage (logMsg (journalFind s) 0xE 0x8E []) 1 0) 5

/-- R483: what the ROM enables for a source: the links of a lone chip, or Ethernet port 0.
Assumption log: 44 (DEDUCED). -/
def sourceUp (s : State) (x : Nat) : State :=
  if x = 3 then foldS linkTry (upto 6) (wrB s rDdlCtl 0 true)
  else if x = 4 then wrB (wrB s rEthCtl 0 true) (rEthPCtl 0) 31 true
  else s

/-- The ROM tries the sources of the order from position i on, over at most n of them: a flash at once, any other by waiting for
it.
Assumption log: 44 (DEDUCED). -/
def bootFrom (s : State) (i : Nat) : Nat → State
  | 0 => bootRecovery s
  | n + 1 =>
    match (bootOrder s)[i]? with
    | none => bootRecovery s
    | some x =>
      let s := updRoot s fun r => { r with src := some i }
      if 2 ≤ x then sourceUp s x
      else
        let a := flashImage s (x == 1) 0
        match imageTry s a x 0 with
        | (some (es, im), _, s) => bootMain s a es im (some (x == 1, 0))
        | (none, _, s) =>
          let b := flashImage s (x == 1) 1
          match imageTry s b x 1 with
          | (some (es, im), _, s) => bootMain s b es im (some (x == 1, 1))
          | (none, _, s) => bootFrom s (i + 1) n

/-- R482: the order that the ROM selects. -/
def orderPick (s : State) : Nat := if bitN Config.bootOvr 3 then Config.bootOvr % 8 else s.root.straps

/-- R475: a thermal trip before this reset is logged, and cleared. -/
def tripLog (s : State) : State :=
  if s.pwr.tripRec then wrB (updPwr (logMsg s 0xE 0x87 []) fun p => { p with tripRec := false }) rTopRstCause 4 false else s

/-- ROM_BOOT: the ROM's sequence from reset release on.
Assumption log: 11 (DESIGN CHOICE), 48 (DESIGN CHOICE). -/
def execRomBoot (s : State) : Out :=
  if !s.io.released || s.root.src.isSome || rdF s rBootStatus 7 6 != 0 then .next s
  else
    let s := tripLog (romPage (hptOn (bootFirewall s)))
    let v := orderPick s * 256 + Config.bootOvr % 8 * 16 + b2n (bitN Config.bootOvr 3) * 8 + s.root.straps
    .next (bootFrom (wr s rBootOrder (BitVec.ofNat 32 v)) 0 6)

/-! ### Sources that wait (R483, R485) -/

/-- The source that the ROM waits for. -/
def bootSrc (s : State) : Option Nat :=
  match s.root.src with
  | some i => if fwState s = 1 then (bootOrder s)[i]? else none
  | none => none

/-- The next source is tried. -/
def bootNext (s : State) : State :=
  match s.root.src with
  | some i => bootFrom s (i + 1) 6
  | none => s

/-- BOOT_STAT of a request. -/
def bootStat (s : State) (seq code src : Nat) : State :=
  fwPut s (hpAddr 0xC00) (leBytes 4 seq ++ leBytes 1 code ++ leBytes 1 src ++ List.replicate 26 0)

/-- An image from a source that waits: its outcome, the answer, and the next step.
Assumption log: 44 (DEDUCED). -/
def bootTake (s : State) (img : List Byte) (src : Nat) (seq : Option Nat) : State :=
  let (r, code, s) := imageTry s img src 0
  let s := match seq with
    | some q => bootStat s q code src
    | none => s
  match r with
  | some (es, im) => bootMain s img es im none
  | none => bootNext s

/-- BOOT_REQ: the request of the source that the ROM waits for: the host's words, the oldest entry of pair 8, or, over TFTP, a file whose
length is `tftp`.
Assumption log: 44 (DEDUCED). -/
def execBootReq (tftp : Option Nat) (s : State) : Out :=
  match bootSrc s, tftp with
  | some 2, _ =>
    let q := ramNat s (hpAddr 0xC20) 4
    let o := ramNat s (hpAddr 0xC24) 4
    let n := ramNat s (hpAddr 0xC28) 4
    if q = s.root.reqSeq then .next s
    else
      let s := updRoot s fun r => { r with reqSeq := q }
      let ok := 0x10000 ≤ o ∧ o % 64 = 0 ∧ o + n ≤ 0x400000
      .next (bootTake s (if ok then ramGet s (hpAddr o) n else []) 2 (some q))
  | some 3, _ =>
    match s.fw.in8 with
    | [] => .next s
    | (_, e) :: es =>
      let s := narrowMedia { s with fw := { s.fw with in8 := es } }
      let o := leAt e 4 4
      let n := leAt e 8 4
      .next (bootTake s (if o + n ≤ 0x800000 then ramGet s (0x2100000000 + o) n else []) 3 (some (leAt e 0 4)))
  | some 4, some n => .next (bootTake (narrowMedia s) (ramGet s 0x2100000000 (min n 0x800000)) 4 none)
  | _, _ => .next s

/-- BOOT_SOURCE_TIMEOUT: the source gives up; the host port never does as the last source.
Assumption log: 8 (DESIGN CHOICE), 44 (DEDUCED). -/
def execBootSourceTimeout (s : State) : Out :=
  match bootSrc s, s.root.src with
  | some x, some i => if x = 2 ∧ (bootOrder s).length ≤ i + 1 then .next s else .next (bootNext s)
  | _, _ => .next s

/-! ### The monitors (R461, R501) -/

/-- An object that a monitor may activate: closed, of the class, and still trusted (R498); else the code. -/
def actCheck (s : State) (e : List Byte) (cls : Nat) : Except Nat Obj :=
  match objOf s (arg e 0 2) with
  | none => .error 0xAF
  | some o =>
    if !o.closed ∨ o.kind ≠ 0 ∨ o.cls ≠ cls then .error 0xAF
    else if useCheck s o ≠ 0 then .error (useCheck s o) else .ok o

/-- The bytes of a checked object, as the root core reads them. -/
def objAll (s : State) (o : Obj) : List Byte × State :=
  let (g, s) := fabReads s whoRoot o.base o.total
  (g.data, s)

/-- An image is written to a copy of a flash; none where the partition does not hold it. -/
def copyWrite (s : State) (d : Bool) (copy : Nat) (bs : List Byte) : Option State :=
  match partOf s d (1 + copy) with
  | some (a, n) => if bs.length ≤ n then some (flashPut s d a bs) else none
  | none => none

/-- R501: FW_ACTIVATE in the recovery monitor. -/
def recoveryActivate (s : State) (q : Rq) (e : List Byte) : State :=
  match actCheck s e 0 with
  | .error c => respond s q c []
  | .ok o =>
    let (img, s) := objAll s o
    match (bootOrder s).find? fun x => x < 2 with
    | some x =>
      match copyWrite s (x == 1) 1 img with
      | none => respond s q 0x89 []
      | some s =>
        match copyWrite s (x == 1) 0 img with
        | none => respond s q 0x89 []
        | some s => softReset (respond s q 0 [])
    | none =>
      let len := img.length - 3200
      let es := (loadTable (img.take len) 0 len).getD []
      let s := respond s q 0 []
      let s := narrowBoot (wrB (loadCopy s img 0 es) rSecLock 3 true) es
      handOver { s with fw := { s.fw with neg := [] } } img es (imgOf o)

/-- RECOVERY_ACTIVATE of the next request of pair r. -/
def execRecoveryActivate (r : Nat) (s : State) : Out :=
  if fwState s = 5 then .next (onReq s r 0x18 recoveryActivate) else .next s

/-- The DEST 1 entries of an image go, through the verifier, into the bank not in use, SEC_BANK switches; its entry point, or the code
of a block that failed.
Assumption log: 26 (DEDUCED). -/
def bankLoad (s : State) (o : Obj) : Nat × State :=
  let ((hd, c), s) := objBytes s o 0 256
  if c ≠ 0 then (c, s)
  else
    let b := 1 - rdF s rSecBank 0 0
    let es := ((loadTable hd 1 (o.total - 3200)).getD []).filter fun e => e.dest == 1
    let r := es.foldl (fun (a : Nat × State) e =>
      let ((bs, c), s) := objBytes a.2 o e.src e.size
      (if a.1 = 0 then c else a.1, if c = 0 then ramPut s (0x2300000000 + 0x60000 * b + e.dst) bs else s)) (0, s)
    if r.1 ≠ 0 then r else (0, cpGo (wr r.2 rSecBank (BitVec.ofNat 32 b)) (leAt hd 8 4))

/-- Service firmware runs: FW_STATE 4; negotiation does not survive (R388, R411). -/
def svcRuns (s : State) (o : Obj) : State :=
  let s := updObj s o.handle fun p => { p with inUse := true }
  let s := updRoot s fun r => { r with inUse := r.inUse.set 1 (some (imgOf o)) }
  setFwState (svcPage { s with fw := { s.fw with neg := [] } }) 4

/-- R461: FW_ACTIVATE in the restart monitor. -/
def restartActivate (s : State) (q : Rq) (e : List Byte) : State :=
  if 2 ≤ s.root.lockCnt then respond s q 0x97 []
  else if emergency s then respond s q 0x84 []
  else match actCheck s e 1 with
    | .error c => respond s q c []
    | .ok o =>
      let (c, s) := bankLoad s o
      if c ≠ 0 then respond s q c []
      else lowLeave (svcRuns (respond s q 0 []) o) 2

/-- RESTART_ACTIVATE of the next request of pair r. -/
def execRestartActivate (r : Nat) (s : State) : Out :=
  if fwState s = 3 ∧ s.root.held ∧ s.root.lockCnt ≠ 0 then .next (onReq s r 0x18 restartActivate) else .next s

/-! ### Shallows (R500) -/

/-- A range of global addresses lies in engine SRAM or in media SRAM of this chip. -/
def inShallows (s : State) (r : Int × Int) : Bool :=
  within r (glob s 0x2000000000) (glob s 0x2005000000) || within r (glob s 0x2100000000) (glob s 0x2100800000)

/-- Whether a bar of the Shallows program keeps the limits; `nest` is the loaded nest.
Assumption log: 46 (DEDUCED). -/
def shalBar (s : State) (k : Nat) (nest : Option Nat) (g : BarSeg) : Bool :=
  let d : Option NestDesc := nest.map fun n => descAt s k n
  let body := match d with
    | some d => d.bodyFirst ≤ g.bar && g.bar ≤ d.bodyLast
    | none => false
  (g.slots.all fun x => slotMx x.2 == 0 || pairOf (mxArgs (slotMx x.2)).wfmt (mxArgs (slotMx x.2)).afmt == some .i8) &&
    match g.kslot with
    | some w => (kslotEnds s k w (d.getD ⟨0, 0, 0, [], [], []⟩) body).all (inShallows s)
    | none => true

/-- Whether the bars of a bank keep the limits. -/
def shalBars (s : State) (k : Nat) : Option Nat → List BarSeg → Bool
  | _, [] => true
  | n, g :: gs => shalBar s k n g && shalBars s k ((nestOf g).orElse fun _ => n) gs

/-- The variants of a bundle with the class in force: (number, PLACE).
Assumption log: 46 (DEDUCED). -/
def shalVariants (s : State) (o : Obj) : List (Nat × Nat) × State :=
  let ((h, _), s) := objBytes s o 0 64
  let n := min (leAt h 12 4) 4096
  let ((t, _), s) := objBytes s o 64 (32 * n)
  if !bundleForm h t n o.total then ([], s)
  else
    let (ix, s) := sectBytes s o (sectsOf t n) 2 0
    (((upto (ix.length / 64)).filter fun v => leAt ix (64 * v) 4 == (shapeClass s).toNat).map fun v =>
      (v, leAt ix (64 * v + 4) 4 % 256), s)

/-- Whether cluster k is healthy for the class in force, and not quarantined. -/
def cluFit (s : State) (k : Nat) : Bool :=
  !rdB s rRasQuar k && classCores (shapeClass s) ≤ (healthyPos s k).length

/-- The Shallows program starts: its results go to channel 0 under job ID 0.
Assumption log: 46 (DEDUCED). -/
def shalGo (s : State) (p : Prog) (im : SImg) (rsrc rlen : Nat) : State :=
  let (code, s) := progGo s p im
  if code ≠ 0 then logMsg s 0xC code []
  else
    let t := rd64 s rCpPassTsLo rCpPassTsHi
    let j : Job :=
      { id := 0, rq := ⟨0, 0xFFFFFFFF, 0⟩, part := 0, abortOnDl := false, arithFatal := false, passEvents := false, rchan := 0,
        passes := 0, deadlineUs := 0, ext := p.args.map fun a => if a.1 = 0 then 0 else a.2, seed := 0, rsrc := rsrc, rlen := rlen,
        st := .running, passStart := t }
    { s with fw := { s.fw with jobs := s.fw.jobs ++ [j] } }

/-- SHALLOWS_START: boot firmware enables MEM and starts the Shallows bundle. `srcs` lists the slots whose first transfer is HALO or
LINK; the pass result lies at `rsrc`, over `rlen` bytes. -/
def shalStart (s : State) (a n : Nat) (srcs : List (Nat × Nat)) (rsrc rlen : Nat) : State :=
  let o : Obj := { handle := 0, kind := 1, total := n, base := a, closed := true, cls := 3 }
  let (vs, s) := shalVariants s o
  match (upto 8).find? fun k => cluFit s k && vs.any fun v => v.2 == 2 ^ k with
  | none => logMsg s 0xC (if vs.isEmpty then 0x2D else 0x20) []
  | some k =>
    let v := (vs.find? fun v => v.2 == 2 ^ k).map fun v => v.1
    let parts := (upto 8).map fun i => if i = k then 0 else 0xFF
    match loadBundle s o (fun _ => parts) (srcs.map fun x => (x.1, srcOf x.2)) v [] with
    | (.bad c, s) => logMsg s 0xC c []
    | (.ok p im, s) =>
      let bars := (walkBank s k 0 0 p.barCount).map fun x => x.1
      if shalBars s k none bars then shalGo s p im rsrc rlen else logMsg s 0xC 0x20 []

/-- SHALLOWS_START.
Assumption log: 46 (DEDUCED), 76 (DEDUCED). -/
def execShallowsStart (srcs : List (Nat × Nat)) (rsrc rlen : Nat) (s : State) : Out :=
  if fwState s ≠ 2 ∨ s.root.held then .next s
  else
    let s := if rdB s rMemCtl 0 then s else memTry s
    match s.root.shal with
    | none => .next s
    | some (a, n) =>
      let s := updRoot s fun r => { r with shal := none }
      .next (if s.fw.prog.isSome then s else shalStart s a n srcs rsrc rlen)

end Sys2Proof.Machine
end

