-- ==== Sys2Proof/Machine/Fifos.lean ====
section
/-! DEFINITION. The FIFOs that registers expose (R15 to R17): their data ports, their count registers, and what enters and
leaves them. -/

namespace Sys2Proof.Machine
open Sys2Proof

/-- Which element of an array register an address names: the array's base, stride and count. -/
def ixOf (a base stride n : Nat) : Option Nat :=
  (upto n).find? fun i => a == base + stride * i

/-- The FIFOs with a data port, and the command FIFO of each serial controller. -/
inductive Port where
  | events
  | setq (g : Nat)
  | reports (n : Nat)
  | ras
  | trng
  | trg
  | rx (ch : Nat)
  | cmd (ch : Nat)
  deriving DecidableEq, Repr

/-- The serial controller whose register at offset `o` an address is. -/
def serIx (a o : Nat) : Option Nat :=
  ixOf a (rSioI2cCtl 0 + o) 0x100 6 <|> (ixOf a (rSioSpiCtl 0 + o) 0x100 2).map (6 + ·) <|>
    (ixOf a (rSioUartCtl 0 + o) 0x100 2).map (8 + ·)

/-- The FIFO whose data port an address is. -/
def portData (a : Nat) : Option Port :=
  if a = rEngEventData then some .events
  else if a = rRasEvtData then some .ras
  else if a = rSecTrngData then some .trng
  else if a = rTrgEvtData then some .trg
  else (ixOf a (rCsiFgSetqData 0) 0x40 17).map .setq <|> (ixOf a (rVidSesRepData 0) 0x80 32).map .reports <|>
    (serIx a 0x10).map .rx

/-- The FIFO whose COUNT register an address is. -/
def portCount (a : Nat) : Option Port :=
  if a = rEngEventCount then some .events
  else if a = rRasEvtCount then some .ras
  else if a = rSecTrngCount then some .trng
  else if a = rTrgEvtCount then some .trg
  else (ixOf a (rCsiFgSetqCount 0) 0x40 17).map .setq <|> (ixOf a (rVidSesRepCount 0) 0x80 32).map .reports <|>
    (serIx a 0xC).map .rx <|> (serIx a 8).map .cmd

/-- The capacity of a FIFO in entries (R91, R295, R315, R448, R506, R518, R520).
Assumption log: 49 (DESIGN CHOICE). -/
def portCap : Port → Nat
  | .events => 256
  | .setq _ => 64
  | .reports _ => 64
  | .ras => 256
  | .trng => 64
  | .trg => 256
  | .rx _ => Config.sioRxDepth
  | .cmd _ => 64

/-- A FIFO. -/
def portGet (s : State) : Port → Fifo
  | .events => s.eng.events
  | .setq g => (fgOf s g).q
  | .reports n => (sesOf s n).rep
  | .ras => s.rasEvt
  | .trng => s.rf.trng
  | .trg => s.io.trg
  | .rx ch => (serOf s ch).rx
  | .cmd ch => (serOf s ch).cmd

/-- Replacing a FIFO. -/
def portPut (s : State) (p : Port) (f : Fifo) : State :=
  match p with
  | .events => { s with eng := { s.eng with events := f } }
  | .setq g => updFg s g fun x => { x with q := f }
  | .reports n => updSes s n fun x => { x with rep := f }
  | .ras => { s with rasEvt := f }
  | .trng => { s with rf := { s.rf with trng := f } }
  | .trg => updIo s fun x => { x with trg := f }
  | .rx ch => updSer s ch fun x => { x with rx := f }
  | .cmd ch => updSer s ch fun x => { x with cmd := f }

/-- R17: whether the block of a FIFO is enabled. -/
def portOn (s : State) : Port → Bool
  | .events => rdB s rEngCtl 0
  | .setq g => rdB s rCsiCtl 0 && rdB s (rCsiFgCtl g) 31
  | .reports n => rdB s rVidCtl 0 && rdB s (rVidSesCtl n) 31
  | .ras => rdB s rRasCtl 0
  | .trng => rdB s rSecCtl 0
  | .trg => rdB s rTrgCtl 0
  | .rx ch => rdB s rSioCtl 0 && rdB s (serBase ch) 31
  | .cmd ch => rdB s rSioCtl 0 && rdB s (serBase ch) 31

/-- R16: a word of an entry arrives. The entry is committed with its last word; a packet whose check fails is rewound; one that
meets a full FIFO is dropped as a whole. The second result says that this word was refused. An open packet holds a place from its
first word on, and a full FIFO refuses every other entry, so nothing but that place of its own can fill the FIFO while it is open;
it is not rewound for that.
Assumption log: 21 (DESIGN CHOICE). -/
def fifoWord (cap : Nat) (w : Word) (last bad : Bool) (f : Fifo) : Fifo × Bool :=
  if f.drop then ({ f with drop := !last }, false)
  else if f.part.isEmpty && fifoFull cap f then
    ({ f with ovr := true, lost := (f.lost + 1) % 2 ^ 32, drop := !last }, true)
  else if !last then ({ f with part := f.part ++ [w] }, false)
  else if bad then ({ f with part := [] }, false)
  else ({ f with ents := f.ents ++ [f.part ++ [w]], part := [] }, false)

/-- R16: a full FIFO's overrun counter, where a register holds it.
Assumption log: 21 (DESIGN CHOICE). -/
def portOver (s : State) : Port → State
  | .setq g => incr s (rCsiFgOvrCnt g)
  | _ => s

/-- A word enters a FIFO.
Assumption log: 21 (DESIGN CHOICE), 53 (DESIGN CHOICE). -/
def portWrite (s : State) (p : Port) (w : Word) (last bad : Bool) : State :=
  let r := fifoWord (portCap p) w last bad (portGet s p)
  let s := portPut s p r.1
  if r.2 then portOver s p else s

/-- FIFO_WRITE: a word of an entry enters the FIFO whose data port is at an address; `bad` is the failed CRC or ECC of a packet,
known with its last word. A serial controller's commands enter through its command register.
Assumption log: 21 (DESIGN CHOICE). -/
def execFifoWrite (a : Nat) (w : Word) (last bad : Bool) (s : State) : Out :=
  match portData a with
  | some p => .next (portWrite s p w last bad)
  | none => match serIx a 4 with
    | some ch => .next (portWrite s (.cmd ch) w last bad)
    | none => .next s

/-- The value that the last read delivered. -/
def delivered (s : State) (w : Word) : State := { s with rf := { s.rf with rdata := w } }

/-- R414: what firmware traces when it reads a FIFO. -/
def portTrace (s : State) : Port → State
  | .events => traceRec s 4 0
  | _ => s

/-- R15: the value of a FIFO's COUNT register; an entry in flight fills its place. -/
def portCountView (s : State) (p : Port) : Word :=
  fifoCount (portCap p) (portGet s p)

/-- FIFO_DATA_READ of the data port at an address: the next word of the oldest entry, or a stalled reader. -/
def execFifoDataRead (a : Nat) (s : State) : Out :=
  match portData a with
  | none => .next s
  | some p => match fifoPop (portGet s p) with
    | some (w, f) => .next (portTrace (delivered (portPut s p f) w) p)
    | none =>
      if s.rf.stall.contains a then .next s
      else .next { s with rf := { s.rf with stall := s.rf.stall ++ [a] } }

/-- What a stalled reader's read returns: to the reader of FIFO_DATA_READ, or over the fabric to an agent (R17). -/
def stallGive (s : State) (fab : Bool) (w : Word) : State :=
  let s := delivered s w
  if fab then deliver s (leBytes 4 w.toNat) (List.replicate 4 false) else s

/-- The oldest stalled reader of a data port leaves its wait: whether it reads over the fabric. Which of two stalled readers is
served first the spec does not say; the one of FIFO_DATA_READ is, and then the agents in the order of their reads.
Assumption log: 21 (DESIGN CHOICE). -/
def stallPop (s : State) (a : Nat) : Option (Bool × State) :=
  if s.rf.stall.contains a then some (false, { s with rf := { s.rf with stall := s.rf.stall.filter (· != a) } })
  else match s.rf.fabStall.find? fun x => x.2 == a with
    | some x => some (true, { s with rf := { s.rf with fabStall := s.rf.fabStall.erase x } })
    | none => none

/-- R17: a read of an empty FIFO ends with 0, and the FIFO's empty-read counter advances.
Assumption log: 21 (DESIGN CHOICE). -/
def stallZero1 (s : State) (a : Nat) : State :=
  match stallPop s a, portData a with
  | some (fab, s), some p =>
    portPut (stallGive s fab 0) p { portGet s p with dry := ((portGet s p).dry + 1) % 2 ^ 32 }
  | some (fab, s), none => stallGive s fab 0
  | none, _ => s

/-- R17, R21: the stalled reads of a data port end with 0, each counted. -/
def stallZero (s : State) (a : Nat) : State := foldS (fun s _ => stallZero1 s a) (upto (s.rf.fabStall.length + 1)) s

/-- FIFO_STALL_END at a data port: an entry has been committed and is returned to its oldest reader, or the block has been disabled
and the reads return 0. -/
def execFifoStallEnd (a : Nat) (s : State) : Out :=
  match portData a with
  | none => .next s
  | some p => match stallPop s a, fifoPop (portGet s p) with
    | none, _ => .next s
    | some (fab, t), some (w, f) => .next (portTrace (stallGive (portPut t p f) fab w) p)
    | some _, none => if portOn s p then .next s else .next (stallZero s a)

end Sys2Proof.Machine
end

