-- ==== Sys2Proof/Machine/Regs.lean ====
section
/-! DEFINITION. Register accesses (chapter 00): what a write lands, what it starts, the enable bits and their checks, and what a
read returns. -/

namespace Sys2Proof.Machine
open Sys2Proof

/-! ### Enable bits (R18) -/

/-- The enable bits of the device: of a block, a firewall region, a window, a camera port, a camera stream, a fusion group, a codec
session, a sample queue, a link, a trigger output, canary tiles, snapshots (R463), ISP parameter sets (R300), and those whose check has no failing condition (R509). -/
inductive En where
  | blk (k : Nat)
  | region (r : Nat)
  | window (w : Nat)
  | port (p : Nat)
  | stream (m : Nat)
  | group (g : Nat)
  | session (n : Nat)
  | queue (q : Nat)
  | link (l : Nat)
  | out (o : Nat)
  | canary
  | snap
  | arm (m : Nat)
  | plain
  deriving DecidableEq, Repr

/-- The enable bit that a register holds, and its place. -/
def enOf (a : Nat) : Option (En × Nat) :=
  if a / 0x1000000000 = 3 ∧ a % 0x100000 = 4 then some (.blk (regBlk a), 0)
  else if a = rRasCanaryCtl then some (.canary, 31)
  else if a = rRasSnapCtl then some (.snap, 31)
  else
    let e := (ixOf a (rMemRgnCtl 0) 0x20 64).map En.region <|> (ixOf a (rMemWinCtl 0) 0x20 32).map En.window <|>
      (ixOf a (rCsiPortCtl 0) 0x20 12).map En.port <|> (ixOf a (rCsiStrCfg 0) 0x80 48).map En.stream <|>
      (ixOf a (rCsiFgCtl 0) 0x40 17).map En.group <|> (ixOf a (rVidSesCtl 0) 0x80 32).map En.session <|>
      (ixOf a (rShpQCtl 0) 0x40 64).map En.queue <|> (ixOf a (rLinkCtl 0) 0x40 6).map En.link <|>
      (ixOf a (rTrgOutCtl 0) 0x40 24).map En.out <|>
      (ixOf a (rEthPCtl 0) 0x400 2 <|> ixOf a (rTrgInCfg 0) 4 24 <|> serIx a 0 <|> ixOf a rSioGpioCtl 4 1).map fun _ => En.plain
    e.map fun e => (e, 31)

/-- The check of a block's ENABLE: 0, or the first failing code.
Assumption log: 15 (DEDUCED). -/
def blkCheck (s : State) (k : Nat) : Nat :=
  match blkOf k with
  | some .nc => if healthy s (k - 0x20) then (if rdB s rRasQuar (blkIsl k) then 0x96 else 0) else 0x90
  | some .clu => if rdB s rRasQuar (blkIsl k) then 0x2E else 0
  | some b =>
    if rdB s rRasQuar (blkIsl k) then 0x96
    else match b with
      | .eng => engineCheck s
      | .mem => memCheck s
      | .hpt => hptCheck s
      | .pwr => pwrCheck s
      | _ => 0
  | none => 0

/-- R18, R457: the check of an enable bit of block k.
Assumption log: 15 (DEDUCED). -/
def enCheck (s : State) (k : Nat) (e : En) : Nat :=
  match e with
  | .blk k => blkCheck s k
  | e =>
    if rdB s rRasQuar (blkIsl k) then 0x96
    else match e with
      | .region r => regionCheck s r
      | .window w => windowCheck s w
      | .port p => portCheck s p
      | .stream m => streamCheck s m
      | .group g => groupCheck s g
      | .session n => sessionCheck s n
      | .queue q => queueCheck s q
      | .link l => linkCheck s l
      | .arm m => paramCheck s m
      | _ => 0

/-- An enable whose check has passed. -/
def enOn (s : State) (e : En) (a b : Nat) : State :=
  match e with
  | .blk k => match blkOf k with
    | some .eng => engineOn s
    | some .mem => memOn (wrB s a b true)
    | some .hpt => hptOn s
    | some .trg => foldS (outStep true) (upto 24) (wrB s a b true)
    | _ => wrB s a b true
  | .stream m => streamOn s m
  | .session n => sessionOn s n
  | .queue q => queueOn s q
  | .link l => linkOn s l
  | .out o => outOn s o
  | .canary => canaryOn s
  | _ => wrB s a b true

/-- R21: an enable bit is written 0. With the shaper, the waits of QPOP READs end (R185). -/
def enOff (s : State) (e : En) (a b : Nat) : State :=
  match e with
  | .blk k => match blkOf k with
    | some .eng => engineOff s false
    | some .mem => memOff s
    | some .shp => foldS queueEnds (upto 64) (wrB s a b false)
    | _ => wrB s a b false
  | .port p => portOff s p
  | .session n => sessionOff s n
  | .queue q => queueOff s q
  | .link l => linkOff s l
  | .out o => outOff s o
  | .window w => winShut s w
  | _ => wrB s a b false

/-- What an enable write does before its check: the permanent lanes of a link (R452). -/
def enPrep (s : State) : En → State
  | .link l =>
    let s := linkLanes s l
    if s.root.lanes.getD l 0 ≠ 0 ∧ 1 < popN 8 (rdF s (rLinkCtl l) 7 0) then logMsg s 0xC 0x90 (leBytes 1 l) else s
  | _ => s

/-- R18: the check of an enable begins: CHK_BUSY.
Assumption log: 14 (DEDUCED). -/
def chkStart (s : State) (e : En) (a b : Nat) : State :=
  let s := enPrep s e
  { s with rf := { s.rf with chk := s.rf.chk ++ [⟨regBlk a, a, b⟩] } }

/-! ### Which writes are dropped -/

/-- Whether a register's static fields keep their values (R20). -/
def staticHeld (s : State) (a : Nat) (r : RegRow) : Bool := rdB s (guardOf a r).1 (guardOf a r).2

/-- The live fields that the owning chapter makes static for a time: the scan's range while BUSY (R356), PWR_NEAP_LINKS in Neap
(R480), and L2LOCK while any hart runs (R521). -/
def liveHeld (s : State) (a : Nat) : Bool :=
  if a = rMemPscanBaseLo ∨ a = rMemPscanBaseHi ∨ a = rMemPscanLen then rdB s rMemPscanCtl 31
  else if a = rPwrNeapLinks then rdF s rPwrCtl 5 4 == 2
  else a == rEthSvcCtl && rdF s rEthSvcCtl 15 8 != 0

/-- The group whose POINT, TIMEOUT or action register an address is. -/
def cgOwn (a : Nat) : Option Nat :=
  if rCpCgCtl 0 ≤ a ∧ a < rCpCgCtl 16 ∧ (a - rCpCgCtl 0) % 0x400 ≠ 0 then some ((a - rCpCgCtl 0) / 0x400) else none

/-- The firewall region that a register belongs to. -/
def rgnReg (a : Nat) : Option Nat := if rMemRgnCtl 0 ≤ a ∧ a < rMemRgnCtl 64 then some ((a - rMemRgnCtl 0) / 0x20) else none

/-- Writes that the owning chapters drop whatever the agent: R409, R415, R198, R205, R229, R300, R353, R514. -/
def wrDropped (s : State) (a : Nat) (r : RegRow) : Bool :=
  let k := regBlk a - 0x10
  cgDrops s a || a == rCpFwAct || (a == rTimRate && rdB s rTimCtl 1) ||
    ((r.staged != 0 || (ixOf a (rCluTagCmd 0) 0x100000 8).isSome) && !stagedOk s k) ||
    (match cgOwn a with
      | some g => cgLive s g
      | none => false) ||
    (match rgnReg a with
      | some r => rdB s (rMemRgnCtl r) 30
      | none => false) ||
    (match ispShadow a with
      | some m => rdB s (armOf m).1 (armOf m).2
      | none => false) ||
    match ixOf a (rCpJobCl 0) 4 8 with
      | some k => running s && bitN (place s) k
      | none => false

/-- Writes that are dropped because of the agent: the root core's blocks, the resets (R535), and the region of a pinned
object (R494).
Assumption log: 17 (DEDUCED), 50 (DEDUCED). -/
def agentDropped (s : State) (g a : Nat) : Bool :=
  if regBlk a = 0x78 ∨ regBlk a = 0x79 then g != 15
  else if a = rTopRstCtl ∨ a = rTopIslRst then g != 13 && g != 15
  else match rgnReg a with
    | some r => g != 15 && s.fw.objs.any fun o => o.region == some r
    | none => false

/-! ### Writes that act as the owning chapter says -/

/-- CLUk_TAG_CMD (R198).
Assumption log: 18 (DEDUCED). -/
def tagCmd (s : State) (k v : Nat) : State :=
  let m := rdF s (rCluTagSel k) 18 16
  let src : Src → Src := fun old => match bitsN v 24 2 with
    | 0 => .loc
    | 1 => .halo
    | 2 => .link
    | _ => old
  let tag : Tag := match bitsN v 16 2 with
    | 0 => .empty
    | 1 => .filling
    | 2 => .full
    | _ => .invalid
  if 5 ≤ m then s
  else
    let first := rdF s (rCluTagSel k) 8 0
    foldS (fun s i =>
      if 512 ≤ first + i then s
      else
        let key := cluMem k m * 512 + first + i
        slotPut s key ⟨tag, src (slotGet s key).src, .none⟩) (upto (bitsN v 0 9 + 1)) s

/-- A write of CP_CGg_CTL. -/
def cgCtlWrite (s : State) (g v : Nat) : State :=
  let s := wrF s (rCpCgCtl g) 5 0 v
  let s := if bitN v 30 then cgCancel s g else s
  if bitN v 31 then cgPrepare s g else s

/-- A write of TOP_RST_CTL (R535). -/
def rstCtlWrite (s : State) (v : Nat) : State :=
  if bitsN v 16 16 ≠ 0x5A96 then s
  else
    let s := wrB s rTopRstCtl 1 (bitN v 1)
    if bitN v 0 then softReset s else s

/-- A W1C write of NCn_RES_STATUS; KIND of NCn_RES_LOG returns to 0 with the last flag (R160). -/
def resStatusWrite (s : State) (n v : Nat) : State :=
  let had := rdF s (rNcResStatus n) 1 0
  let s := wrF s (rNcResStatus n) 1 0 (had &&& (3 - v % 4))
  if had ≠ 0 ∧ rdF s (rNcResStatus n) 1 0 = 0 then wrF s (rNcResLog n) 31 30 0 else s

/-- A W1C write of a COUNT register (R15). -/
def countWrite (s : State) (a v : Nat) : Option State :=
  match portCount a with
  | some p => some (if bitN v 31 then portPut s p { portGet s p with ovr := false } else s)
  | none => none

/-- The registers of the job IDs (R415, R479): the energy measured so far is charged before the binding changes. -/
def jobReg (a : Nat) : Bool := rCpJobCl 0 ≤ a && a < rCpJobCsi 48

/-- The writes that act as a whole by their own rule; none for every other register. -/
def regOwn (s : State) (a : Nat) (w : Word) : Option State :=
  let v := w.toNat
  let of (i : Option Nat) (f : Nat → State) : Option State := i.map f
  if a = rTopRstCtl then some (rstCtlWrite s v)
  else if a = rTopIslRst then some (islRstWrite s v)
  else if a = rEngAdmit then some (if bitN v 0 then scanStart s else s)
  else if a = rMemTrainCtl then some (if bitN v 0 then fullTrain s else s)
  else if a = rMemPscanCtl then some (if bitN v 0 then pscanStart s else s)
  else if a = rHptAttnSet then some (attnSetWrite s v)
  else if a = rPwrEmerg then some (foldS emergClr (bitList 4 v) s)
  else if a = rRasRetireCores then some (retire s 0 v)
  else if a = rRasRetireCstore then some (retire s 1 v)
  else if a = rRasRetirePipe then some (retire s 2 v)
  else if a = rRasQuarRel then some (quarRelease s (v % 2 ^ 15))
  else if a = rRasCmpCtl then some (if bitN v 0 then cmpStart s else s)
  else if a = rEthSvcIrqSet then some (if bitN v 0 then wrB s rEthSvcIrq 0 true else s)
  else if a = rTimStepHi then some (timStepWrite s v)
  else if jobReg a then some (wr (energyRead s) a (BitVec.ofNat 32 (v % 2 ^ 12)))
  else
    countWrite s a v <|> of (ixOf a (rCluTagCmd 0) 0x100000 8) (fun k => tagCmd s k v) <|>
    of (ixOf a (rNcResStatus 0) 0x100000 32) (fun n => resStatusWrite s n v) <|>
    of (ixOf a (rCpCgCtl 0) 0x400 16) (fun g => cgCtlWrite s g v) <|>
    of (ixOf a (rCsiStrRel 0) 0x80 48) (fun m => relWrite s m (v % 256)) <|>
    of (ixOf a (rKeyCtl 0 0) 0x40 24) (fun i =>
      if i % 4 < 2 then (if bitN v 0 then keyLoad s (i / 4) (i % 4) else wr s a 0) else s) <|>
    of (serIx a 4) (fun ch => portWrite s (.cmd ch) w true false)

/-! ### Landing (R11, R20) -/

/-- The fields of a register take a written value but for those of `keep`: live, staged and write-only fields are written, static
ones unless they are held, W1C flags cleared and W1S bits set. -/
def landFields (s : State) (a : Nat) (r : RegRow) (keep : Nat) (v : Word) : State :=
  let old := rd s a
  let held := r.stat != 0 && staticHeld s a r
  let lheld := liveHeld s a
  let m (n : Nat) : Word := BitVec.ofNat 32 n
  let take := (m r.staged ||| m r.wo ||| (if lheld then 0 else m r.live) ||| (if held then 0 else m r.stat)) &&& ~~~ (m keep)
  let w1s := m r.w1s &&& ~~~ (m keep)
  let new := ((old &&& ~~~ take) ||| (v &&& take)) &&& ~~~ (v &&& m r.w1c) ||| (v &&& w1s)
  let frozen := (if held then m r.stat else 0) ||| (if lheld then m r.live else 0)
  let s := wr s a new
  if (old ^^^ v) &&& frozen != 0 then cfgDrop s (regBlk a) else s

/-- The bits that an enable's register lands by a rule of their own. -/
def enKeep (e : En) (b : Nat) : Nat :=
  2 ^ b + match e with
    | .blk k => if blkOf k = some .eng then 4 else if blkOf k = some .pwr then 0x30 else 0
    | .region _ => 2 ^ 30
    | .port _ => 2 ^ 30
    | .queue _ => 2 ^ 30
    | .snap => 2 ^ 30
    | _ => 0

/-- Those bits: STOP (R105), MODE (R467), LOCK (R353), the two FLUSH bits (R281, R321), and HELD, which a 0 clears (R463). -/
def enOther (s : State) (e : En) (v : Nat) : State :=
  match e with
  | .blk k =>
    if blkOf k = some .eng then (if bitN v 2 then wrB s rEngCtl 2 true else stopClear s)
    else if blkOf k = some .pwr then modeWrite s (bitsN v 4 2) else s
  | .region r => if bitN v 30 then rgnLock s r else s
  | .port p => if bitN v 30 then portFlush s p else s
  | .queue q => if bitN v 30 then queueFlush s q else s
  | .snap => if bitN v 30 then s else wrB s rRasSnapCtl 30 false
  | _ => s

/-- R463: writes of EN of RAS_SNAP_CTL are ignored without the debug privilege. -/
def enIgnored (s : State) (e : En) : Bool := e == .snap && !rdB s rSecLock 4

/-- A write lands. In a write on the bus an enable or an arm bit starts its check; in an action of a commit group, whose check has
run in the prepare phase, it takes effect at once. -/
def regLand (direct : Bool) (s : State) (a : Nat) (v : Word) : State :=
  if a = rIspArmLo then foldS (ispArm direct) (bitList 32 v.toNat) s
  else if a = rIspArmHi then foldS (fun s i => ispArm direct s (32 + i)) (bitList 16 v.toNat) s
  else match regRow a, regOwn s a v with
  | none, _ => s
  | some _, some t => t
  | some r, none => match enOf a with
    | none => landFields s a r 0 v
    | some (e, b) =>
      let on := rdB s a b
      let s := enOther (landFields s a r (enKeep e b) v) e v.toNat
      if enIgnored s e then s
      else if !on && bit v b then (if direct then enOn s e a b else chkStart s e a b)
      else if on && !bit v b then enOff s e a b
      else s

/-- R19, R20: a write that the bus delivers. -/
def regDeliver (s : State) (a : Nat) (v : Word) : State :=
  match regRow a with
  | none => s
  | some r => if wrDropped s a r then cfgDrop s (regBlk a) else regLand false s a v

/-- R8: a bad access is counted.
Assumption log: 17 (DEDUCED). -/
def badAccess (s : State) : State := incr s rTopBadaccCnt

/-- Whether a register has a writable field other than W1C (R19). -/
def holdable (r : RegRow) : Bool := r.live != 0 || r.stat != 0 || r.staged != 0 || r.w1s != 0 || r.wo != 0

/-- A write of a register whatever its agent: one to an island in reset is lost (R530), one that meets a check is held (R19), and any
other is delivered. -/
def regPut (s : State) (a : Nat) (v : Word) : State :=
  match regRow a with
  | none => s
  | some r =>
    if rdB s rTopIslRst (blkIsl (regBlk a)) then s
    else if chkBusy s (regBlk a) && holdable r then holdWrite s a v
    else regDeliver s a v

/-- A write of a register by an agent (Table 12.8): a bad access; a write to an island in reset (R530); one dropped for its agent;
or one as any agent's.
Assumption log: 41 (DEDUCED), 50 (DEDUCED). -/
def regWrite (s : State) (g a : Nat) (v : Word) : State :=
  if (regRow a).isNone then badAccess s
  else if agentDropped s g a && !rdB s rTopIslRst (blkIsl (regBlk a)) then cfgDrop s (regBlk a)
  else regPut s a v

/-- CANARY_ENABLE: a write of RAS_CANARY_CTL with EN = 1 and INTERVAL. -/
def execCanaryEnable (interval : Nat) (s : State) : Out :=
  .next (regPut s rRasCanaryCtl (BitVec.ofNat 32 (2 ^ 31 + interval % 2 ^ 20)))

/-- TRIGGER_OUTPUT_ENABLE of output o: a write of EN. -/
def execTriggerOutputEnable (o : Nat) (on : Bool) (s : State) : Out :=
  if 24 ≤ o then .next s
  else .next (regPut s (rTrgOutCtl o) (setBit (rd s (rTrgOutCtl o)) 31 on))

/-- REGISTER_WRITE by an agent.
Assumption log: 8 (DESIGN CHOICE), 50 (DEDUCED). -/
def execRegisterWrite (g a : Nat) (v : Word) (s : State) : Out := .next (regWrite s g a v)

/-- BAD_ACCESS: an access of the wrong width, misaligned, or of no register. A read (`read`) delivers zero. -/
def execBadAccess (read : Bool) (s : State) : Out :=
  .next (badAccess (if read then delivered s 0 else s))

/-- ENABLE_WRITE: a write of 1 to the enable bit of a register.
Assumption log: 14 (DEDUCED), 50 (DEDUCED). -/
def execEnableWrite (g a : Nat) (v : Word) (s : State) : Out :=
  match enOf a with
  | some (_, b) => .next (regWrite s g a (setBit v b true))
  | none => .next s

/-- DISABLE_WRITE: a write of 0 to the enable bit of a register; the block's stalled data-port reads end when it is off. -/
def execDisableWrite (g a : Nat) (v : Word) (s : State) : Out :=
  match enOf a with
  | some (_, b) =>
    let s := regWrite s g a (setBit v b false)
    .next (foldS (fun s p => match portData p with
      | some q => if portOn s q then s else stallZero s p
      | none => s) (s.rf.stall ++ s.rf.fabStall.map fun x => x.2).eraseDups s)
  | none => .next s

/-- STAGED_REGISTER_WRITE: a write of CLUk_SHAPE_ARGj, CLUk_EPOCH, or the edge or window table.
Assumption log: 25 (DEDUCED). -/
def execStagedRegisterWrite (g a : Nat) (v : Word) (s : State) : Out :=
  match regRow a with
  | some r => if r.staged != 0 then .next (regWrite s g a v) else .next s
  | none => .next s

/-- TAG_CMD of cluster k: a write of CLUk_TAG_CMD. `par` is the slot whose tag read finds a parity error (R168).
Assumption log: 18 (DEDUCED). -/
def execTagCmd (g k v : Nat) (par : Option Nat) (s : State) : Out :=
  let k := k % 8
  let m := rdF s (rCluTagSel k) 18 16
  let s := match par with
    | some i => if m < 5 ∧ stagedOk s k then tagParity s (cluMem k m * 512 + i % 512) else s
    | none => s
  .next (regWrite s g (rCluTagCmd k) (BitVec.ofNat 32 v))

/-! ### The end of a check (R18, R19) -/

/-- Held writes of block k land in order, until one of them starts a check.
Assumption log: 14 (DEDUCED). -/
def heldLandAll (s : State) (k : Nat) : List (Nat × Word) → State
  | [] => s
  | (a, v) :: rest =>
    if regBlk a ≠ k || chkBusy s k then heldLandAll (holdWrite s a v) k rest
    else heldLandAll (regDeliver s a v) k rest

/-- What a check in progress decides: an enable bit, or the arm bit of a stream (R300). -/
def chkEn (c : Chk) : Option (En × Nat) :=
  if c.addr = rIspArmLo then some (.arm c.bitIx, c.bitIx)
  else if c.addr = rIspArmHi then some (.arm (32 + c.bitIx), c.bitIx)
  else enOf c.addr

/-- CONSISTENCY_CHECK_END of block k: REASON, CHK_BUSY, the enable, and the held writes.
Assumption log: 14 (DEDUCED), 15 (DEDUCED). -/
def execConsistencyCheckEnd (k : Nat) (s : State) : Out :=
  match s.rf.chk.find? fun c => c.blk == k with
  | none => .next s
  | some c => match chkEn c with
    | none => .next s
    | some (e, _) =>
      let code := enCheck s k e
      let s := wrF s (blkBase k + 8) 15 8 code
      let s := { s with rf := { s.rf with chk := s.rf.chk.filter (· != c) } }
      let s := if code = 0 then enOn s e c.addr c.bitIx else s
      let held := s.rf.held
      .next (heldLandAll { s with rf := { s.rf with held := [] } } k held)

/-! ### Reads (R9) -/

/-- The first elements of the 64-bit quantities of R9, with their array dimensions.
Assumption log: 16 (DEDUCED). -/
def loRegs : List (Nat × List (Nat × Nat)) :=
  [(rCpPassTsLo, []), (rCpCgTsLo 0, [(0x400, 16)]), (rDmaChBaseLo 0, [(0x40, 8)]), (rMemUeAddrLo, []), (rMemPscanBaseLo, []),
   (rMemPscanFirstLo, []), (rCsiStrBufLo 0, [(0x80, 48)]), (rVidSesMemLo 0, [(0x80, 32)]), (rVidSesRingLo 0, [(0x80, 32)]),
   (rShpQBaseLo 0, [(0x40, 64)]), (rDdlSerialLo, []), (rRasSnapBaseLo, []), (rRasCmpALo, []), (rRasCmpBLo, []),
   (rEthPTxBaseLo 0, [(0x400, 2)]), (rEthPRxBaseLo 0, [(0x400, 2)]), (rTimNowLo, []), (rTrgOutStartLo 0, [(0x40, 24)])]

/-- Whether a register is a _LO register.
Assumption log: 16 (DEDUCED). -/
def isLo (a : Nat) : Bool := loRegs.any fun x => x.1 ≤ a && dimsMatch x.2 (a - x.1)

/-- R198: CLUk_TAG_READ. -/
def tagView (s : State) (k : Nat) : Word :=
  let m := rdF s (rCluTagSel k) 18 16
  if 5 ≤ m then 0
  else
    let v := slotGet s (cluMem k m * 512 + rdF s (rCluTagSel k) 8 0)
    let t := match v.tag with
      | .empty => 0
      | .filling => 1
      | .full => 2
      | .invalid => 3
    let c := match v.src with
      | .loc => 0
      | .halo => 1
      | .link => 2
    BitVec.ofNat 32 (2 ^ 16 * t + 2 ^ 12 * c)

/-- The value of a STATUS register: CHK_BUSY, and DMA_IDLE of a cluster (R198, R540). -/
def statusView (s : State) (a : Nat) : Word :=
  let k := regBlk a
  let v := setBit (rd s a) 30 (chkBusy s k)
  if 0x10 ≤ k ∧ k < 0x18 then setBit v 0 ((clu s (k - 0x10)).xfers.isEmpty && (clu s (k - 0x10)).ops.isEmpty) else v

/-- The registers that show what stands elsewhere in the state; none for the others. -/
def ownView (s : State) (a : Nat) : Option Word :=
  let n (x : Nat) : Word := BitVec.ofNat 32 x
  if a / 0x1000000000 = 3 ∧ a % 0x100000 = 8 then some (statusView s a)
  else if a = rEngShapeClass then some (shapeClass s)
  else if a = rTimNowLo then some (n (now s))
  else if a = rTimNowHi then some (n (now s / 2 ^ 32))
  else if a = rSecKeys then
    some (n (s.root.revoke % 16 + (upto 4).foldl (fun v k => v + Config.keyPerm k % 64 * 2 ^ (6 * k + 4)) 0))
  else if a = rSecRb then some (n ((upto 4).foldl (fun v c => v + s.root.rb.getD c 0 % 256 * 2 ^ (8 * c)) 0))
  else
    (portCount a).map (portCountView s) <|>
    (ixOf a (rEngClBar 0) 4 8).map (fun k => n (b2n (clu s k).blocked * 2 ^ 31 + barOf s k)) <|>
    (ixOf a (rCluTagRead 0) 0x100000 8).map (tagView s) <|>
    (ixOf a (rMemWinCtl 0) 0x20 32).map (fun w => setBit (rd s a) 30 (winBusy s w)) <|>
    (ixOf a (rDmaChHead 0) 0x40 8).map (fun c => n ((rd s a).toNat % dmaSize s c)) <|>
    (ixOf a (rVidSesHead 0) 0x80 32).map (fun v => n ((rd s a).toNat % sesSize s v)) <|>
    (ixOf a (rCsiPortPktCount 0) 0x20 12).map (fun p => n (b2n (rdB s a 31) * 2 ^ 31 + b2n (portFull s p) * 2 ^ 30 +
      (portQ s p).length)) <|>
    (ixOf a (rShpQCount 0) 0x40 64).map (fun q => n (b2n (rdB s a 31) * 2 ^ 31 + b2n (rdB s (rShpQCtl q) 31 && sqFull s q) * 2 ^ 30 +
      ((sqOf s q).commit - (sqOf s q).read))) <|>
    (ixOf a (rShpQPtrA 0) 0x40 64).map (fun q => n ((sqOf s q).read % 2 ^ 16 * 2 ^ 16 + (sqOf s q).commit % 2 ^ 16)) <|>
    (ixOf a (rShpQPtrB 0) 0x40 64).map (fun q => n ((sqOf s q).free % 2 ^ 16 * 2 ^ 16 + (sqOf s q).mark % 2 ^ 16))

/-- The live value that a read of a register returns. -/
def regView (s : State) (a : Nat) : Word :=
  match regRow a with
  | none => 0
  | some r =>
    if rdB s rTopIslRst (blkIsl (regBlk a)) then 0
    else match ownView s a with
      | some w => w
      | none => rd s a &&& ~~~ (BitVec.ofNat 32 r.wo)

/-- R168: a read of CLUk_TAG_READ reads the tag it names. -/
def tagRead (s : State) (a : Nat) : State :=
  match ixOf a (rCluTagRead 0) 0x100000 8 with
  | none => s
  | some k =>
    let m := rdF s (rCluTagSel k) 18 16
    if 5 ≤ m then s else tagSee s (cluMem k m * 512 + rdF s (rCluTagSel k) 8 0)

/-- A read of a register that is no FIFO data port: a _LO read latches its _HI value, and the next _HI read takes it.
Assumption log: 16 (DEDUCED). -/
def regRead (s : State) (a : Nat) : Word × State :=
  match regRow a with
  | none => (0, badAccess s)
  | some _ =>
    let s := tagRead s a
    let w := regView s a
    let latched := s.rf.hi.find? fun x => x.1 == a
    let rest := s.rf.hi.filter fun x => x.1 != a
    if isLo a then (w, { s with rf := { s.rf with hi := s.rf.hi.filter (fun x => x.1 != a + 4) ++ [(a + 4, regView s (a + 4))] } })
    else match latched with
      | some x => (x.2, { s with rf := { s.rf with hi := rest } })
      | none => (w, s)

/-- READ_LO_LATCH: a read of a register: of a _LO register, of its _HI register, or of any other that is no FIFO data port.
Assumption log: 16 (DEDUCED). -/
def execReadLoLatch (a : Nat) (s : State) : Out :=
  if (portData a).isSome then .next s
  else
    let r := regRead s a
    .next (delivered r.2 r.1)

/-! ### Accesses by the fabric (R326 to R328, R459) -/

/-- The island of an agent (Table 12.8). -/
def agentIsl (g : Nat) : Nat :=
  if g < 8 then g else match g with
    | 8 => 8
    | 9 => 0xA
    | 10 => 0xA
    | 11 => 9
    | 12 => 0xB
    | 13 => 0xC
    | 14 => 0xD
    | _ => 0xE

/-- R17: a read of a data port over the fabric. An agent of this chip stalls on an empty FIFO, until FIFO_STALL_END or the block's
disable; the host port maps no data port, and the read of another chip, which no rule stalls, returns 0 as a counted empty read.
Assumption log: 21 (DESIGN CHOICE). -/
def portAccess (s : State) (g a : Nat) (p : Port) : State :=
  match fifoPop (portGet s p) with
  | some (w, f) => stallGive (portTrace (portPut s p f) p) true w
  | none =>
    if s.rf.fabStall.contains (g, a) then s
    else if g = 11 ∨ g = 12 then
      stallGive (portPut s p { portGet s p with dry := ((portGet s p).dry + 1) % 2 ^ 32 }) true 0
    else { s with rf := { s.rf with fabStall := s.rf.fabStall ++ [(g, a)] } }

/-- A register access over the fabric: naturally aligned and 32 bits wide, or bad (R8).
Assumption log: 17 (DEDUCED). -/
def regAccess (s : State) (g : Nat) (wr : Bool) (a n : Nat) (bs : List Byte) : State :=
  if n ≠ 4 ∨ a % 4 ≠ 0 then badAccess (if wr then s else deliver s (List.replicate n 0) (List.replicate n false))
  else if wr then regWrite s g a (BitVec.ofNat 32 (leNat bs))
  else match portData a with
    | none => stallGive (regRead s a).2 true (regRead s a).1
    | some p => portAccess s g a p

/-- FABRIC_ACCESS by an agent (Table 12.8) with a job, of n bytes at a global address: a read, or a write of bytes with their
poison. A read of a memory under kill scrub is held, and so delivers nothing yet. An access of another chip is one operation within a 64-byte block (R183).
Assumption log: 18 (DEDUCED), 19 (DEDUCED). -/
def execFabricAccess (g job : Nat) (write : Bool) (ga n : Nat) (bs : List Byte) (ps : List Bool) (s : State) : Out :=
  let g := g % 16
  let w : Who := ⟨agentIsl g, g, job, none, none⟩
  let bs := (bs ++ List.replicate n 0).take n
  let ps := (ps ++ List.replicate n false).take n
  match localOf s ga with
  | some a =>
    if regionOf a = some .regs then .next (regAccess s g write a n bs)
    else if write then .next (fabStore s w a bs ps)
    else if scrubbing s a then .next s
    else
      let r := fabReads s w a n
      .next (deliver r.2 r.1.data r.1.pois)
  | none =>
    let n := min n (64 - ga % 64)
    let y : XOp := { xid := 0, ix := n, src := ga, dst := ga, len := n, core := 0, ring := false, cls := .link, epoch := 0, job := job,
                     data := none }
    if write then .next (writeRemote s w .none y (bs.take n) (ps.take n)).2.2
    else
      let r := readRemote s w .none y
      .next (match r.1.data with
        | some d => deliver r.2.2 d.1 d.2
        | none => r.2.2)

/-! ### Crossings between islands (R36) -/

/-- What arrives in the receiving island.
Assumption log: 66 (DEDUCED). -/
def crossIn (s : State) : Cross → State
  | .arrival k t => { s with eng := { s.eng with arrived := s.eng.arrived ++ [(k, t)] } }
  | .commit owner epoch slots => commitSlots s owner epoch slots
  | .release epoch slots => releaseSlots s epoch slots

/-- ISLAND_CROSSING_DELIVER from one island to another: the oldest value between the two becomes visible.
Assumption log: 66 (DEDUCED). -/
def execIslandCrossingDeliver (src dst : Nat) (s : State) : Out :=
  let here (c : Crossing) : Bool := c.src == src && c.dst == dst
  match s.cross.find? here with
  | none => .next s
  | some c => .next (crossIn { s with cross := s.cross.eraseP here } c.what)

end Sys2Proof.Machine
end

