-- ==== Sys2Proof/Machine/Activation.lean ====
section
/-! DEFINITION. Firmware activation (14 R411, 18 R500): FW_ACTIVATE by the class of its object, and the effect of a CP_FW_ACT
action. -/

namespace Sys2Proof.Machine
open Sys2Proof

/-- R411, R500: a CP_FW_ACT action applies: service firmware runs from the bank it was loaded into, and the Shallows program ends at
its first pass boundary. An image whose block fails the verifier is not started.
Assumption log: 26 (DEDUCED). -/
def fwApply (s : State) (h : Nat) : State :=
  match objOf s h with
  | none => s
  | some o =>
    let (c, s) := bankLoad s o
    if c ≠ 0 then logMsg s 0xC c (leBytes 2 h)
    else
      let s := svcRuns s o
      match s.fw.prog with
      | some p => if p.handle = 0 then stopDone { s with fw := { s.fw with stopping := true } } else s
      | none => s

/-- An idle group of firmware's own (R405).
Assumption log: 22 (DEDUCED). -/
def fwGroup (s : State) : Option Nat := ((upto 16).drop 8).find? fun g => !cgLive s g && !(cgOf s g).isOpen

/-- Whether the release of a tie-point of the running program, at bar b, is still to come in the pass of its lowest cluster k: the
cluster stands before it or waits at it, and its release has not been sent. A body's next turn is not looked at. -/
def tieAhead (s : State) (k b : Nat) : Bool :=
  let c := clu s k
  (barOf s k < b || (barOf s k == b && (c.waiting || !c.tied))) && !(s.eng.released.any fun x => x.2.tie.bar == b)

/-- R411: the bar of the next portable tie-point with CG = 1 of the running program: the first of its table that is ahead of its
lowest cluster, or else the first of the next pass.
Assumption log: 26 (DEDUCED). -/
def nextTie (s : State) : Nat :=
  match s.fw.prog with
  | some p =>
    let k := (lowBit p.place 8 0).getD 0
    let ts := p.ties.filter fun t => match segAt s k t.bar with
      | some g => g.hdr.cg
      | none => false
    match (ts.find? fun t => tieAhead s k t.bar) <|> ts.head? with
    | some t => t.bar
    | none => p.barCount - 1
  | none => 0

/-- FW_ACTIVATE of an object of class 1: a one-action group, prepared at once; its outcome follows as an event.
Assumption log: 26 (DEDUCED). -/
def activateFw (s : State) (q : Rq) (o : Obj) : State :=
  match fwGroup s with
  | none => respond s q 0xA1 []
  | some g =>
    let s := cgFill s g 0 [(rCpFwAct, o.handle, 0xFFFF)]
    let point := if running s then 2 ^ 30 + (nextTie s + 1) % 2 ^ 20 else 0
    let s := wr (wr s (rCpCgPoint g) (BitVec.ofNat 32 point)) (rCpCgTimeout g) 0
    let s := cgUpd s g fun c => { c with isOpen := true, owner := some q, answer := false }
    cgPrepare (respond s q 0 (leBytes 2 g)) g

/-- FW_ACTIVATE of an object of class 0: the image is written to the copy that this boot did not use.
Assumption log: 26 (DEDUCED). -/
def activateBoot (s : State) (q : Rq) (o : Obj) : State :=
  let (img, s) := objAll s o
  let dst : Option (Bool × Nat) := match s.root.flash with
    | some (d, c) => some (d, 1 - c)
    | none => ((bootOrder s).find? fun x => x < 2).map fun x => (x == 1, 0)
  match dst with
  | none => respond s q 0xA1 []
  | some (d, c) => match copyWrite s d c img with
    | some s => respond s q 0 []
    | none => respond s q 0x89 []

/-- FW_ACTIVATE (Table 14.3). -/
def fwActivate (s : State) (q : Rq) (e : List Byte) : State :=
  match objOf s (arg e 0 2) with
  | none => respond s q 0xAF []
  | some o =>
    if !o.closed ∨ o.kind ≠ 0 ∨ 3 ≤ o.cls then respond s q 0xAF []
    else if o.cls = 1 then activateFw s q o
    else if useCheck s o ≠ 0 then respond s q (useCheck s o) []
    else if o.cls = 0 then activateBoot s q o
    else updIo (hartsHold s) fun i => { i with svc := some (q, o.handle) }

/-- FW_ACTIVATE on pair r, by the firmware that runs; the monitors have rows of their own. -/
def execFwActivate (r : Nat) (s : State) : Out :=
  if fwState s = 5 ∨ (fwState s = 3 ∧ s.root.held) then .next s else .next (onReq s r 0x18 fwActivate)

end Sys2Proof.Machine
end

