-- ==== Sys2Proof/Machine/Commit.lean ====
section
/-! DEFINITION. Commit groups (14 section 9): the four commands, the prepare phase, the arbiter, and the effect of the actions. -/

namespace Sys2Proof.Machine
open Sys2Proof

/-! ### The effect of actions (R407) -/

/-- The word that an action writes: its masked bits, and the register's own bits elsewhere; W1C and W1S fields get no other bits. -/
def actWord (s : State) (r : RegRow) (x : Nat × Nat × Nat) : Word :=
  let v : Word := BitVec.ofNat 32 x.2.1
  let m : Word := BitVec.ofNat 32 x.2.2
  let once : Word := BitVec.ofNat 32 (r.w1c ||| r.w1s ||| r.wo)
  ((rd s x.1 &&& ~~~ m) &&& ~~~ once) ||| (v &&& m)

/-- R205: of the staged registers a group writes CLUk_SHAPE_ARGj alone; its write of another is one as any other. -/
def actStaged (s : State) (r : RegRow) (a : Nat) : Bool :=
  r.staged != 0 && !((upto 8).any fun k => rCluShapeArg k 0 ≤ a && a ≤ rCluShapeArg k 13) && !stagedOk s (regBlk a - 0x10)

/-- One action. -/
def actApply (s : State) (x : Nat × Nat × Nat) : State :=
  if x.1 = rCpFwAct then fwApply s (x.2.1 &&& x.2.2 &&& 0xFFFF)
  else match regRow x.1 with
    | none => s
    | some r => if actStaged s r x.1 then cfgDrop s (regBlk x.1) else regLand true s x.1 (actWord s r x)

/-- An action without the enable bit that it sets.
Assumption log: 23 (DEDUCED). -/
def actPlain (x : Nat × Nat × Nat) : Nat × Nat × Nat :=
  match enOf x.1 with
  | some (_, b) => if actSets x b then (x.1, x.2.1, x.2.2 - 2 ^ b) else x
  | none => x

/-- Whether an action writes 0 to a bit of a register. -/
def actClears (x : Nat × Nat × Nat) (a b : Nat) : Bool := x.1 == a && bitN x.2.2 b && !bitN x.2.1 b

/-- The enable bits that actions set, and that no later action of theirs clears (R407).
Assumption log: 23 (DEDUCED). -/
def actEnables0 : List (Nat × Nat × Nat) → List (Nat × Nat × Nat)
  | [] => []
  | x :: xs => (match enOf x.1 with
      | some (_, b) => if actSets x b && !(xs.any fun y => actClears y x.1 b) then [(x.1, 2 ^ b, 2 ^ b)] else []
      | none => []) ++ actEnables0 xs

/-- The actions for island i apply in the same cycle of it: the fields in index order, and then the enables, on the configuration that
the group leaves (R408, check 6).
Assumption log: 23 (DEDUCED). -/
def actsApply (s : State) (i : Nat) (acts : List (Nat × Nat × Nat)) : State :=
  let here := acts.filter fun x => blkIsl (regBlk x.1) == i
  if here.isEmpty then s
  else traceRec (foldS actApply (actEnables0 here) (foldS (fun s x => actApply s (actPlain x)) here s)) 2 0

/-- R410: group g has applied: CP_CGg_CTL, its timestamp, the counter and the COMMIT event.
Assumption log: 23 (DEDUCED). -/
def cgFinish (s : State) (g : Nat) : State :=
  if cgState s g ≠ 2 then s
  else
    let s := wrF (wrF (cgSetState s g 3) (rCpCgCtl g) 23 16 0) (rCpCgCtl g) 11 8 0xF
    let s := incr (wr64 s (rCpCgTsLo g) (rCpCgTsHi g) (now s)) rCpCgApplyCnt
    let ref := (cgOf s g).ref
    let s := { s with fw := { s.fw with armed := s.fw.armed.filter (· != g) } }
    cgOutcome (cgUpd s g fun c => { c with isOpen := false, answer := false, tagged := false, wait := [] }) g 1 0 0xF ref

/-- Group g applies in every island at once.
Assumption log: 23 (DEDUCED). -/
def cgApply (s : State) (g : Nat) : State :=
  let acts := cgActs s g
  cgFinish (foldS (fun s i => actsApply s i acts) (upto 15) s) g

/-- R410: whether a group armed before g for the same set point has still to apply. -/
def cgBehind (s : State) (g : Nat) : Bool :=
  (s.fw.armed.takeWhile (· != g)).any fun h =>
    cgKind s h == 2 && (cgOf s h).tagged && rdF s (rCpCgPoint h) 19 0 == rdF s (rCpCgPoint g) 19 0

/-- CG_APPLY of an armed group whose SET point has been reached, behind those armed before it for that point. A TIE group applies in
each island as it sees the release. -/
def execCgApply (g : Nat) (s : State) : Out :=
  if 16 ≤ g ∨ cgState s g ≠ 2 ∨ cgKind s g ≠ 2 ∨ !(cgOf s g).tagged ∨ cgBehind s g then .next s else .next (cgApply s g)

/-! ### The prepare phase (R408) -/

/-- The bits of a register that a write may change. -/
def writable (r : RegRow) : Nat := r.live ||| r.stat ||| r.staged ||| r.w1c ||| r.w1s ||| r.wo

/-- Check 2: an action names no register, or a field that is RO or reserved. -/
def actInvalid (x : Nat × Nat × Nat) : Bool :=
  match regRow x.1 with
  | none => true
  | some r => x.2.2 &&& (0xFFFFFFFF - writable r) != 0

/-- Check 3: an action writes a static field whose enable reads 1 and which no earlier action writes to 0. -/
def actStatic (s : State) (before : List (Nat × Nat × Nat)) (x : Nat × Nat × Nat) : Bool :=
  match regRow x.1 with
  | none => false
  | some r =>
    let (ga, gb) := guardOf x.1 r
    (x.2.2 &&& r.stat) != 0 && rdB s ga gb && !(before.any fun y => actClears y ga gb)

/-- Check 4: another prepared or armed group holds the register. -/
def actBusy (s : State) (g : Nat) (x : Nat × Nat × Nat) : Bool :=
  (upto 16).any fun h => h != g && cgLive s h && (cgActs s h).any fun y => y.1 == x.1

/-- Check 5: whether the point of group g names a portable tie-point of the program in the banks of cluster k.
Assumption log: 25 (DEDUCED). -/
def pointPortable (s : State) (g k : Nat) : Bool :=
  let a := rdF s (rCpCgPoint g) 19 0
  a != 0 && match segAt s k (a - 1) with
    | some b => portable (place s) b.hdr && b.hdr.cg
    | none => false

/-- Check 5 for an action: 0, CG_POINT_INVALID or STAGE_NOT_PORTABLE.
Assumption log: 25 (DEDUCED). -/
def actPoint (s : State) (g : Nat) (x : Nat × Nat × Nat) : Nat :=
  let kind := cgKind s g
  let a := rdF s (rCpCgPoint g) 19 0
  let i := blkIsl (regBlk x.1)
  let staged := match regRow x.1 with
    | some r => r.staged != 0
    | none => false
  if kind = 3 ∨ (kind = 0 ∧ a ≠ 0) ∨ (kind = 2 ∧ 16 < a) ∨ (i < 8 ∧ kind ≠ 1) then 0xAC
  else if staged && !pointPortable s g i then 0x36 else 0

/-- The configuration that group g will leave, with no effect of its writes beyond the registers.
Assumption log: 23 (DEDUCED). -/
def cgLeaves (s : State) (g : Nat) : State :=
  foldS (fun s x => wr s x.1 ((rd s x.1 &&& ~~~ BitVec.ofNat 32 x.2.2) ||| BitVec.ofNat 32 (x.2.1 &&& x.2.2))) (cgActs s g) s

/-- Check 6 for an action: an enable, an arm bit, a window or a mode that it sets is checked on that configuration. -/
def actEnables (s : State) (g : Nat) (before : List (Nat × Nat × Nat)) (x : Nat × Nat × Nat) : Nat :=
  let t := cgLeaves s g
  let en := match enOf x.1 with
    | some (e, b) => if actSets x b && (!rdB s x.1 b || before.any fun y => actClears y x.1 b) then enCheck t (regBlk x.1) e else 0
    | none => 0
  let arm (base n : Nat) := ((bitList n (x.2.1 &&& x.2.2)).map fun i => paramCheck t (base + i)).find? (· != 0)
  let mode := fld (actWord s ((regRow x.1).getD (idRow 0)) x) 5 4
  if en ≠ 0 then en
  else if x.1 = rIspArmLo then (arm 0 32).getD 0
  else if x.1 = rIspArmHi then (arm 32 16).getD 0
  else if x.1 = rPwrCtl ∧ mode ≠ modeNow s then modeCheck s mode else 0

/-- Check 7, and R498: a firmware activation while an emergency is latched, or of an object that may no longer be used. -/
def actFirmware (s : State) (x : Nat × Nat × Nat) : Nat :=
  if x.1 ≠ rCpFwAct then 0
  else if emergency s then 0x84
  else match objOf s (x.2.1 &&& x.2.2 &&& 0xFFFF) with
    | some o => if o.closed && o.kind == 0 && o.cls == 1 then useCheck s o else 0xAF
    | none => 0xAF

/-- R466: whether island i is powered down: that of the links in Lowwater.
Assumption log: 23 (DEDUCED). -/
def islOff (s : State) (i : Nat) : Bool := i == 0xB && rdF s rPwrStatus 1 0 == 3

/-- The first check that fails of any of island i's actions, or 0 (R408). -/
def islandCheck (s : State) (g i : Nat) : Nat :=
  let acts := cgActs s g
  let here := acts.zipIdx.filter fun x => blkIsl (regBlk x.1.1) == i
  let first (f : (Nat × Nat × Nat) × Nat → Nat) : Nat := ((here.map f).find? (· != 0)).getD 0
  let c1 := if rdB s rRasQuar i || rdB s rTopIslRst i || islOff s i then 0xAB else 0
  let c2 := first fun x => if actInvalid x.1 then 0xA8 else 0
  let c3 := first fun x => if actStatic s (acts.take x.2) x.1 then 0xA9 else 0
  let c4 := first fun x => if actBusy s g x.1 then 0xAA else 0
  let c5 := first fun x => actPoint s g x.1
  let c6 := first fun x => actEnables s g (acts.take x.2) x.1
  let c7 := first fun x => actFirmware s x.1
  ([c1, c2, c3, c4, c5, c6, c7].find? (· != 0)).getD 0

/-- R410, R411: every island has acknowledged: the group is armed and its CG_COMMIT answered; IMMEDIATE applies in this cycle. -/
def cgArm (s : State) (g : Nat) : State :=
  let c := cgOf s g
  let s := cgSetState s g 2
  let s := match c.owner, c.answer with
    | some q, true => respond s q 0 []
    | _, _ => s
  let s := cgUpd s g fun c => { c with answer := false, at0 := now s }
  let s := { s with fw := { s.fw with armed := s.fw.armed ++ [g] } }
  if cgKind s g = 0 then cgApply s g else s

/-- CG_PREPARE: a write of CP_CGg_CTL.PREPARE := 1. -/
def execCgPrepare (g : Nat) (s : State) : Out :=
  if 16 ≤ g then .next s
  else if chkBusy s 1 then .next (holdWrite s (rCpCgCtl g) (setBit (rd s (rCpCgCtl g)) 31 true))
  else .next (cgPrepare s g)

/-- CG_ISLAND_ANSWER of island i for group g. -/
def execCgIslandAnswer (g i : Nat) (s : State) : Out :=
  if 16 ≤ g ∨ cgState s g ≠ 1 ∨ !(cgOf s g).wait.contains i then .next s
  else
    let code := islandCheck s g i
    let s := traceRec s 2 0
    if code ≠ 0 then .next (cgAbort s g code i)
    else
      let s := cgUpd s g fun c => { c with wait := c.wait.filter (· != i) }
      .next (if (cgOf s g).wait.isEmpty then cgArm s g else s)

/-- CG_PREPARE_TIMEOUT: 100 µs after PREPARE an island has not answered.
Assumption log: 8 (DESIGN CHOICE). -/
def execCgPrepareTimeout (g : Nat) (s : State) : Out :=
  if 16 ≤ g ∨ cgState s g ≠ 1 then .next s else .next (cgAbort s g 0xAD 0xF)

/-- CG_POINT_TIMEOUT: TIMEOUT_US of an armed group elapses before its point.
Assumption log: 8 (DESIGN CHOICE). -/
def execCgPointTimeout (g : Nat) (s : State) : Out :=
  if 16 ≤ g ∨ cgState s g ≠ 2 ∨ rdF s (rCpCgTimeout g) 23 0 = 0 ∨ (cgOf s g).tagged then .next s
  else .next (cgAbort s g 0xAE 0xF)

/-- CG_CANCEL_WRITE: a write of CP_CGg_CTL.CANCEL := 1.
Assumption log: 24 (DESIGN CHOICE). -/
def execCgCancelWrite (g : Nat) (s : State) : Out :=
  if 16 ≤ g then .next s
  else if chkBusy s 1 then .next (holdWrite s (rCpCgCtl g) (setBit (rd s (rCpCgCtl g)) 30 true))
  else .next (cgCancel s g)

/-! ### The commands (R405, R410, R411) -/

/-- CG_OPEN: the lowest idle group of 0 to 7 takes the point and the timeout; its first action is cleared.
Assumption log: 22 (DEDUCED). -/
def cgOpen (s : State) (q : Rq) (e : List Byte) : State :=
  match (upto 8).find? fun g => !cgLive s g && !(cgOf s g).isOpen with
  | none => respond s q 0xA1 []
  | some g =>
    let s := wr s (rCpCgPoint g) (BitVec.ofNat 32 (arg e 0 4) &&& 0xC00FFFFF)
    let s := wr s (rCpCgTimeout g) (BitVec.ofNat 32 (arg e 4 4 % 2 ^ 24))
    let s := cgFill s g 0 [(0, 0, 0)]
    let s := wrF s (rCpCgCtl g) 5 0 0
    let s := cgUpd s g fun _ => { isOpen := true, owner := some q }
    respond s q 0 (leBytes 2 g)

/-- CG_OPEN on pair r. -/
def execCgOpen (r : Nat) (s : State) : Out := .next (onReq s r 0x40 cgOpen)

/-- The group that a command names, if it is open and not yet committed.
Assumption log: 22 (DEDUCED). -/
def openGroup (s : State) (e : List Byte) : Option Nat :=
  let g := arg e 0 2
  if g < 16 ∧ (cgOf s g).isOpen ∧ !cgLive s g then some g else none

/-- CG_STAGE: one to three actions join group g. A COUNT outside that range adds none and is refused as a malformed request.
Assumption log: 22 (DEDUCED). -/
def cgStage (s : State) (q : Rq) (e : List Byte) : State :=
  match openGroup s e with
  | none => respond s q 0xA3 []
  | some g =>
    let n := arg e 2 1
    let had := (cgOf s g).staged
    if n = 0 ∨ 3 < n then respond s q 0x05 []
    else if 64 < had + n then respond s q 0xA1 []
    else
      let acts := (upto n).map fun i => (arg e (4 + 12 * i) 4, arg e (8 + 12 * i) 4, arg e (12 + 12 * i) 4)
      respond (cgUpd (cgFill s g had acts) g fun c => { c with staged := had + n }) q 0 []

/-- CG_STAGE on pair r. -/
def execCgStage (r : Nat) (s : State) : Out := .next (onReq s r 0x41 cgStage)

/-- CG_COMMIT: the group is prepared, and answered when it is armed or aborted.
Assumption log: 22 (DEDUCED). -/
def cgCommit (s : State) (q : Rq) (e : List Byte) : State :=
  match openGroup s e with
  | none => respond s q 0xA3 []
  | some g => cgPrepare (cgUpd s g fun c => { c with owner := some q, answer := true }) g

/-- CG_COMMIT on pair r. -/
def execCgCommit (r : Nat) (s : State) : Out := .next (onReq s r 0x42 cgCommit)

/-- CG_CANCEL: a prepared or armed group aborts; one that is only open is closed.
Assumption log: 24 (DESIGN CHOICE). -/
def cgCancelCmd (s : State) (q : Rq) (e : List Byte) : State :=
  let g := arg e 0 2
  if 16 ≤ g ∨ !(cgOf s g).isOpen then respond s q 0xA3 []
  else if cgLive s g then respond (cgCancel s g) q 0 []
  else respond (cgUpd s g fun _ => {}) q 0 []

/-- CG_CANCEL on pair r. -/
def execCgCancel (r : Nat) (s : State) : Out := .next (onReq s r 0x43 cgCancelCmd)

/-! ### Releases (R104 to R106, R410) -/

/-- RELEASE_SEEN by island i: the armed groups of the release apply in it, and a participant starts, goes on or parks.
Assumption log: 23 (DEDUCED), 66 (DEDUCED). -/
def execReleaseSeen (i : Nat) (s : State) : Out :=
  match s.eng.released.find? fun x => x.1 == i with
  | none => .next s
  | some x =>
    let r := x.2
    let s := { s with eng := { s.eng with released := s.eng.released.erase x } }
    let s := foldS cgFinish r.groups (actsApply s i r.acts)
    if 8 ≤ i ∨ !bitN r.tie.part i then .next s
    else .next (if r.start then cluStart s i else cluGo s i r)

end Sys2Proof.Machine
end

