-- ==== Sys2Proof/Machine/Vector.lean ====
section
/-! DEFINITION. The memory operations of the vector unit (04 sections 5 and 6.4, 07 sections 6 and 7): loads and stores by
lane, gather and scatter, and the loads of PB, the function tables and the drain record. -/

namespace Sys2Proof.Machine
open Sys2Proof

/-- The stream that ARG[11:10] names (R149). -/
def vxStrm (x : VxArgs) : Nat := x.arg / 1024

/-! ### Loads -/

/-- R244: element i of an FRC unit, decoded and widened to INT32. -/
def frcElem (four3 signed : Bool) (i : Nat) (bs : List Byte) : Word :=
  let u := leNat bs
  let rb := if four3 then 5 else 3
  let base : Int := if signed then sextN 8 (u % 256) else ((u % 256 : Nat) : Int)
  let sh := bitsN u 8 3
  let r := bitsN u (11 + rb * i) rb
  let v := base + ((r * 2 ^ sh : Nat) : Int) + (if 0 < sh then ((2 ^ (sh - 1) : Nat) : Int) else 0)
  BitVec.ofInt 32 (min v (if signed then 127 else 255))

/-- Bytes of an FRC unit (R242). -/
def frcUnit (fmt : Nat) : Nat := if fmt = 0xC then 12 else 8

/-- The position of the nest's T levels plus the beat (R241): the tap that a window VLD loads. -/
def vldTap (s : State) (k : Nat) (ns : NestSt) (w : Win) (j r : Nat) : Option Tap :=
  let t := posOf s k ns ns.idx 7 + j
  if t < w.kh * w.kw then some (tapAt s k ns w r t) else none

/-- The pad element of a window VLD (R241). -/
def vldPad (w : Win) : Nat := if w.mode = 0 then w.zpad else w.padVal

/-- The value of a window element: widened as VLD widens it; a compressed format has no single element, so that value is
free.
Assumption log: 2 (DESIGN CHOICE). -/
def winVal (fmt c code : Nat) : Word := if fmt = 0xB ∨ fmt = 0xC then Config.freeWord c else widen fmt code

/-- The number of rows, among those of the lanes `ls`, that hold at a test. -/
def rowCount (cpb : Nat) (ls : List Nat) (f : Nat → Bool) : Nat := (((ls.map fun l => l / cpb).eraseDups).filter f).length

/-- R241: VLD of a window. -/
def vldWin (s : State) (n : Nat) (x : VxArgs) (j : Nat) (ns : NestSt) (w : Win) : Out :=
  let k := n / 4
  let cpb := winCpb w
  let bits := fmtBits x.fmt
  let (live, masked) := liveLanes s n x j
  let tap (l : Nat) := vldTap s k ns w j (l / cpb)
  onOk (addrIf (!live.isEmpty) (coreAddr s n 0 0 0)) fun a =>
    let hit := live.filterMap fun l => match tap l with
      | some (.at off) => some (l, elemRun ((a : Int) + off).toNat bits (l % cpb))
      | _ => none
    if hit.any fun y => !inSpm n y.2.1 y.2.2 then .fault .outsideSpm
    else
      let (got, s) := barReadRuns s n (hit.map fun y => y.2)
      let c := s.free
      let ws := (List.zip hit got).map fun y =>
        (x.vd * 64 + y.1.1, winVal x.fmt (c + y.1.1) (elemCode bits (y.1.1 % cpb) y.2.1), y.2.2)
      let out := live.filter fun l => !(hit.any fun y => y.1 == l)
      let ps := out.map fun l => (x.vd * 64 + l, winVal x.fmt (c + l) (vldPad w % 2 ^ bits), false)
      let ms := masked.map fun l => (x.vd * 64 + l, winVal x.fmt (c + l) (padOf s k x.fmt), false)
      let s := padTaps s n (rowCount cpb live fun r => vldTap s k ns w j r == some .pad)
      let s := winMisses s n (rowCount cpb live fun r => vldTap s k ns w j r == some .miss)
      .next (pend (freeSkip s 64) n 3 (.lanes (ws ++ ps ++ ms)))

/-- VLD: 64 elements of FMT, a window tap (R241), or the elements of four FRC units (R244). -/
def execVld (a : At) (x : VxArgs) (s : State) : Out :=
  vxDo 0x01 a x s fun s =>
    let n := a.core
    match (if vxStrm x = 0 then vwinOn s (n / 4) else none) with
    | some (ns, w) => vldWin s n x a.j ns w
    | none =>
      let need := !(liveLanes s n x a.j).1.isEmpty
      if x.fmt = 0xB ∨ x.fmt = 0xC then
        let u := frcUnit x.fmt
        let sg := bitN x.arg 9
        onOk (addrIf need (coreAddr s n (vxStrm x) a.j (4 * u))) fun ad =>
          .next (loadLanes s n x 3 a.j (if sg then 1 else 2) (fun l => (ad + l / 16 * u, u))
            (fun l bs => frcElem (x.fmt == 0xC) sg (l % 16) bs) [])
      else
        let bits := fmtBits x.fmt
        onOk (addrIf need (coreAddr s n (vxStrm x) a.j (8 * bits))) fun ad =>
          .next (loadLanes s n x 3 a.j x.fmt (elemRun ad bits) (fun l bs => widen x.fmt (elemCode bits l bs)) [])

/-- VLDR: 256 raw bytes. -/
def execVldr (a : At) (x : VxArgs) (s : State) : Out :=
  vxDo 0x03 a x s fun s =>
    onOk (addrIf (!(liveLanes s a.core x a.j).1.isEmpty) (coreAddr s a.core (vxStrm x) a.j 256)) fun ad =>
      .next (loadLanes s a.core x 3 a.j 9 (elemRun ad 32) (fun _ bs => BitVec.ofNat 32 (leNat bs)) [])

/-- VBCAST: one word to every lane. -/
def execVbcast (a : At) (x : VxArgs) (s : State) : Out :=
  vxDo 0x07 a x s fun s =>
    onOk (addrIf (!(liveLanes s a.core x a.j).1.isEmpty) (coreAddr s a.core (vxStrm x) a.j 4)) fun ad =>
      .next (loadLanes s a.core x 3 a.j 9 (fun _ => (ad, 4)) (fun _ bs => BitVec.ofNat 32 (leNat bs)) [])

/-! ### Stores -/

/-- R147: the bytes of a lane's element, with the lane's poison bit. -/
def laneBytes (addr bytes v : Nat) (p : Bool) : List (Nat × Byte × Bool) :=
  (leBytes bytes v).zipIdx.map fun y => (addr + y.2, y.1, p)

/-- R194: an injected parity mismatch at the encoder: the bytes are stored poisoned, and every word is reported.
Assumption log: 5 (DESIGN CHOICE). -/
def parityCheck (s : State) (par : Bool) (ws : List (Nat × Byte × Bool)) : List (Nat × Byte × Bool) × State :=
  if par then (ws.map fun y => (y.1, y.2.1, true),
    foldS (fun s w => sramEvent (cluIncr s w rCluParCnt) 6 0x94 (32 * w)) (wordsOf ws) s)
  else (ws, s)

/-- A store of byte writes with the latency of a vector store (rank 1 of R163). -/
def storeBytes (s : State) (n : Nat) (par : Bool) (ws : List (Nat × Byte × Bool)) : State :=
  let (ws, s) := parityCheck s par ws
  pend s n 2 (.mem 1 ws)

/-- VST: 64 elements of VA converted to FMT (R54 to R57, R536). `par` is a parity mismatch at the encoder (R194). -/
def execVst (a : At) (x : VxArgs) (par : Bool) (s : State) : Out :=
  vxDo 0x02 a x s fun s =>
    let n := a.core
    let live := (liveLanes s n x a.j).1
    let bits := fmtBits x.fmt
    onOk (addrIf (!live.isEmpty) (coreAddr s n (vxStrm x) a.j (8 * bits))) fun ad =>
      let c := coreOf s n
      let (vs, s) := convLanes s n x a.j live
      if bits = 4 then
        let ws := vs.map fun y => (ad + y.1 / 2, y.1 % 2 == 1, y.2, laneP c x.va y.1)
        if par then
          let (_, s) := parityCheck s true (ws.map fun y => (y.1, (0 : Byte), true))
          .next (pend s n 2 (.nib 1 (ws.map fun y => (y.1, y.2.1, y.2.2.1, true))))
        else .next (pend s n 2 (.nib 1 ws))
      else
        .next (storeBytes s n par (vs.flatMap fun y => laneBytes (ad + y.1 * (bits / 8)) (bits / 8) y.2 (laneP c x.va y.1)))

/-- VSTR: 256 raw bytes. -/
def execVstr (a : At) (x : VxArgs) (par : Bool) (s : State) : Out :=
  vxDo 0x04 a x s fun s =>
    let n := a.core
    let live := (liveLanes s n x a.j).1
    onOk (addrIf (!live.isEmpty) (coreAddr s n (vxStrm x) a.j 256)) fun ad =>
      let c := coreOf s n
      .next (storeBytes s n par (live.flatMap fun l =>
        laneBytes (ad + 4 * l) 4 (laneGet c x.va l).toNat (laneP c x.va l)))

/-! ### Gather and scatter (R156) -/

/-- R156: the element address of lane l. -/
def elemAddr (c : Core) (x : VxArgs) (ad l : Nat) : Int :=
  (ad : Int) + (laneGet c x.vb l).toInt * ((fmtBits x.fmt / 8 : Nat) : Int)

/-- Whether an element lies wholly inside the core's SPM. -/
def elemIn (n : Nat) (x : VxArgs) (e : Int) : Bool := 0 ≤ e && inSpm n e.toNat (fmtBits x.fmt / 8)

/-- VGATH. -/
def execVgath (a : At) (x : VxArgs) (s : State) : Out :=
  vxDo 0x05 a x s fun s =>
    let n := a.core
    let c := coreOf s n
    let (live, masked) := liveLanes s n x a.j
    onOk (addrIf (!live.isEmpty) (coreAddr s n (vxStrm x) a.j 1)) fun ad =>
      let ins := live.filter fun l => elemIn n x (elemAddr c x ad l)
      let outs := live.filter fun l => !elemIn n x (elemAddr c x ad l)
      let (got, s) := barReadRuns s n (ins.map fun l => ((elemAddr c x ad l).toNat, fmtBits x.fmt / 8))
      let ws := (List.zip ins got).map fun y =>
        (x.vd * 64 + y.1, widen x.fmt (leNat y.2.1), y.2.2 || laneP c x.vb y.1)
      let zs := outs.map fun l => (x.vd * 64 + l, (0 : Word), false)
      let ps := masked.map fun l => (x.vd * 64 + l, widen x.fmt (padOf s (n / 4) x.fmt), false)
      .next (pend (oobLanes s n 0 outs.length) n 4 (.lanes (ws ++ zs ++ ps)))

/-- R156: of bytes that several lanes name, the last lane's is stored. -/
def lastBytes : List (Nat × Byte × Bool) → List (Nat × Byte × Bool)
  | [] => []
  | y :: ys => if ys.any (fun z => z.1 == y.1) then lastBytes ys else y :: lastBytes ys

/-- VSCAT. A lane whose index is poisoned is not stored, and its poison is consumed (Table 12.7).
Assumption log: 90 (DESIGN CHOICE). -/
def execVscat (a : At) (x : VxArgs) (par : Bool) (s : State) : Out :=
  vxDo 0x06 a x s fun s =>
    let n := a.core
    let k := n / 4
    let c := coreOf s n
    let live := (liveLanes s n x a.j).1
    let size := fmtBits x.fmt / 8
    onOk (addrIf (!live.isEmpty) (coreAddr s n (vxStrm x) a.j 1)) fun ad =>
      let bad := live.filter fun l => laneP c x.vb l
      let good := live.filter fun l => !laneP c x.vb l
      let ins := good.filter fun l => elemIn n x (elemAddr c x ad l)
      let s := foldS (fun s l => consume s k k 3 (jobClu s k) (glob s (elemAddr c x ad l).toNat)) bad s
      let s := oobLanes s n 1 (good.length - ins.length)
      let at_ (l : Nat) := (elemAddr c x ad l).toNat
      let hit := ins.any fun l => ins.any fun l' => l < l' && at_ l < at_ l' + size && at_ l' < at_ l + size
      let s := if hit then wrB s (rNcVecStatus n) 2 true else s
      let (vs, s) := convLanes s n x a.j ins
      .next (storeBytes s n par (lastBytes (vs.flatMap fun y => laneBytes (at_ y.1) size y.2 (laneP c x.va y.1))))

/-! ### PB, function tables, drain record -/

/-- Words read from a stream for a table of the vector unit: 256 bytes. -/
def chunkLoad (s : State) (n st j : Nat) (f : List Byte → PendW) : Out :=
  onOk (coreAddr s n st j 256) fun ad =>
    let ((bs, _), s) := barRead s n ad 256
    .next (pend s n 3 (f bs))

/-- The words of a chunk, numbered from `k`. -/
def chunkWords (k : Nat) (bs : List Byte) : List (Nat × Word) :=
  (leWords bs).zipIdx.map fun y => (k + y.2, BitVec.ofNat 32 y.1)

/-- VPLD. -/
def execVpld (a : At) (x : VxArgs) (s : State) : Out :=
  vxDo 0x08 a x s fun s => chunkLoad s a.core (vxStrm x) a.j fun bs => .pb (chunkWords 0 bs)

/-- VLUTLD: chunk j of table ARG[2:0]. -/
def execVlutld (a : At) (x : VxArgs) (s : State) : Out :=
  vxDo 0x09 a x s fun s =>
    if 9 ≤ a.j then .next s
    else
      let t := x.arg % 8 * 1024
      chunkLoad s a.core (vxStrm x) a.j fun bs =>
        .tab (if a.j = 0 then (chunkWords t bs).take 2 else chunkWords (t + 2 + 64 * (a.j - 1)) bs)

/-- DRCFG: chunk j of the drain record. -/
def execDrcfg (a : At) (x : VxArgs) (s : State) : Out :=
  vxDo 0x0A a x s fun s =>
    if 3 ≤ a.j then .next s else chunkLoad s a.core (vxStrm x) a.j fun bs => .drec a.j bs

end Sys2Proof.Machine
end

