-- ==== Sys2Proof/Machine/VectorAlu.lean ====
section
/-! DEFINITION. The lane operations of the vector unit (04 section 6, 07 section 5): unpacking, arithmetic, logic,
conversion, comparison, the packed dot product and its window form, and the table functions. -/

namespace Sys2Proof.Machine
open Sys2Proof

/-! ### Shared forms -/

/-- The latency of an arithmetic operation (Table 4.8): 1 for INT32, 4 for FP32. -/
def arithLat (x : VxArgs) : Nat := if x.fmt = 9 then 1 else 4

/-- R150: an arithmetic operation of 0x10 to 0x17: its INT32 form is exact and then wraps or clamps, its FP32 form rounds
as `f` says. `srcs` are the registers it reads. -/
def arith (op : Nat) (a : At) (x : VxArgs) (s : State) (srcs : List Nat) (g : Core → Nat → Int)
    (f : Core → Nat → Num FVal) : Out :=
  vxDo op a x s fun s =>
    let c := coreOf s a.core
    .next (vxLanes s a.core x (arithLat x) srcs fun l =>
      if x.fmt = 9 then int32 x.sat (g c l) else do return fw (← f c l))

/-- A lane as a signed integer. -/
def laneI (c : Core) (r l : Nat) : Int := (laneGet c r l).toInt

/-- A bitwise or shift operation on two lanes (latency 1). -/
def bitwise (op : Nat) (a : At) (x : VxArgs) (s : State) (f : Word → Word → Word) : Out :=
  vxDo op a x s fun s =>
    let c := coreOf s a.core
    .next (vxLanes s a.core x 1 [x.va, x.vb] fun l => pure (f (laneGet c x.va l) (laneGet c x.vb l)))

/-- A function of one FP32 lane. -/
def func1 (op : Nat) (a : At) (x : VxArgs) (s : State) (lat : Nat) (f : Core → FVal → Num FVal) : Out :=
  vxDo op a x s fun s =>
    let c := coreOf s a.core
    .next (vxLanes s a.core x lat [x.va] fun l => do return fw (← f c (laneF c x.va l)))

/-! ### Unpacking and iota -/

/-- The lane and bit offset of a sub-element of VUNPK. -/
def unpkAt (arg l : Nat) : Nat × Nat :=
  let i := 64 * (arg / 4 % 4) + l
  if arg % 4 < 2 then (i / 4, 8 * (i % 4)) else (i / 2, 16 * (i % 2))

/-- VUNPK. -/
def execVunpk (a : At) (x : VxArgs) (s : State) : Out :=
  vxDo 0x0C a x s fun s =>
    let c := coreOf s a.core
    let ws := (govLanes c x.mask).map fun l =>
      let (q, sh) := unpkAt x.arg l
      let v := (laneGet c x.va q).toNat / 2 ^ sh
      let r : Int := match x.arg % 4 with
        | 0 => ((v % 256 : Nat) : Int)
        | 1 => sextN 8 v
        | 2 => ((v % 65536 : Nat) : Int)
        | _ => sextN 16 v
      (x.vd * 64 + l, BitVec.ofInt 32 r, laneP c x.va q)
    .next (pend s a.core 1 (.lanes ws))

/-- VIOTA. -/
def execViota (a : At) (x : VxArgs) (s : State) : Out :=
  vxDo 0x0D a x s fun s =>
    let c := coreOf s a.core
    let ws := (govLanes c x.mask).map fun l =>
      (x.vd * 64 + l, laneGet c x.va 0 + BitVec.ofNat 32 l, laneP c x.va 0)
    .next (pend s a.core 1 (.lanes ws))

/-! ### Arithmetic (R150) -/

/-- VADD. -/
def execVadd (a : At) (x : VxArgs) (s : State) : Out :=
  arith 0x10 a x s [x.va, x.vb] (fun c l => laneI c x.va l + laneI c x.vb l)
    (fun c l => add32 (laneF c x.va l) (laneF c x.vb l))

/-- VSUB. -/
def execVsub (a : At) (x : VxArgs) (s : State) : Out :=
  arith 0x11 a x s [x.va, x.vb] (fun c l => laneI c x.va l - laneI c x.vb l)
    (fun c l => sub32 (laneF c x.va l) (laneF c x.vb l))

/-- VMUL. -/
def execVmul (a : At) (x : VxArgs) (s : State) : Out :=
  arith 0x12 a x s [x.va, x.vb] (fun c l => laneI c x.va l * laneI c x.vb l)
    (fun c l => mul32 (laneF c x.va l) (laneF c x.vb l))

/-- VFMA. -/
def execVfma (a : At) (x : VxArgs) (s : State) : Out :=
  arith 0x13 a x s [x.va, x.vb, x.vc] (fun c l => laneI c x.va l * laneI c x.vb l + laneI c x.vc l)
    (fun c l => fma32 (laneF c x.va l) (laneF c x.vb l) (laneF c x.vc l))

/-- VMIN. -/
def execVmin (a : At) (x : VxArgs) (s : State) : Out :=
  arith 0x14 a x s [x.va, x.vb] (fun c l => min (laneI c x.va l) (laneI c x.vb l))
    (fun c l => pure (min32 (laneF c x.va l) (laneF c x.vb l)))

/-- VMAX. -/
def execVmax (a : At) (x : VxArgs) (s : State) : Out :=
  arith 0x15 a x s [x.va, x.vb] (fun c l => max (laneI c x.va l) (laneI c x.vb l))
    (fun c l => pure (max32 (laneF c x.va l) (laneF c x.vb l)))

/-- VABS. -/
def execVabs (a : At) (x : VxArgs) (s : State) : Out :=
  arith 0x16 a x s [x.va] (fun c l => ((laneI c x.va l).natAbs : Int)) (fun c l => pure (fAbs (laneF c x.va l)))

/-- VNEG. -/
def execVneg (a : At) (x : VxArgs) (s : State) : Out :=
  arith 0x17 a x s [x.va] (fun c l => -laneI c x.va l) (fun c l => pure (fNegate (laneF c x.va l)))

/-- VAND. -/
def execVand (a : At) (x : VxArgs) (s : State) : Out := bitwise 0x18 a x s fun p q => p &&& q

/-- VOR. -/
def execVor (a : At) (x : VxArgs) (s : State) : Out := bitwise 0x19 a x s fun p q => p ||| q

/-- VXOR. -/
def execVxor (a : At) (x : VxArgs) (s : State) : Out := bitwise 0x1A a x s fun p q => p ^^^ q

/-- VSHL. -/
def execVshl (a : At) (x : VxArgs) (s : State) : Out := bitwise 0x1B a x s fun p q => p <<< (q.toNat % 32)

/-- VSHR: logical for FMT 0x0, arithmetic for INT32. -/
def execVshr (a : At) (x : VxArgs) (s : State) : Out :=
  bitwise 0x1C a x s fun p q => if x.fmt = 9 then p.sshiftRight (q.toNat % 32) else p >>> (q.toNat % 32)

/-- VCVT: FMT names the source. -/
def execVcvt (a : At) (x : VxArgs) (s : State) : Out :=
  vxDo 0x1D a x s fun s =>
    let c := coreOf s a.core
    .next (vxLanes s a.core x 4 [x.va] fun l =>
      if x.fmt = 9 then pure (fw (rne32 (fOfInt (laneI c x.va l))))
      else do return BitVec.ofNat 32 (← convert 9 (mdOf c x.mode l a.j) true (laneF c x.va l)))

/-- The predicates of VCMP, from the order of the operands; `none` where they are unordered. -/
def predOk (p : Nat) (o : Option Ordering) : Bool :=
  match o with
  | none => p == 1
  | some .lt => p == 1 || p == 2 || p == 3
  | some .eq => p == 0 || p == 3 || p == 5
  | some .gt => p == 1 || p == 4 || p == 5

/-- R150: the order of two lanes; −0 equals +0, and a NaN is unordered. -/
def laneCmp (fp : Bool) (p q : Word) : Option Ordering :=
  if fp then
    let x := dec32 p
    let y := dec32 q
    if fIsNan x || fIsNan y then none
    else if fIsZero x && fIsZero y then some .eq else some (fCmp x y)
  else some (compare p.toInt q.toInt)

/-- A mask register with the lanes `ls` replaced. -/
def maskSet (old : BitVec 64) (ls : List Nat) (f : Nat → Bool) : BitVec 64 :=
  ls.foldl (fun v l => if f l then v ||| ((1 : BitVec 64) <<< l) else v &&& ~~~((1 : BitVec 64) <<< l)) old

/-- VCMP: lanes of M[ARG[5:3]]. -/
def execVcmp (a : At) (x : VxArgs) (s : State) : Out :=
  vxDo 0x1E a x s fun s =>
    let c := coreOf s a.core
    let m := x.arg / 8 % 8
    .next (pend s a.core 1 (.mask m (maskSet (maskGet c m) (govLanes c x.mask) fun l =>
      predOk (x.arg % 8) (laneCmp (x.fmt == 8) (laneGet c x.va l) (laneGet c x.vb l)))))

/-- VSEL. -/
def execVsel (a : At) (x : VxArgs) (s : State) : Out :=
  vxDo 0x1F a x s fun s =>
    let c := coreOf s a.core
    let m := maskGet c (x.arg / 8 % 8)
    let ws := (govLanes c x.mask).map fun l =>
      let r := if m.getLsbD l then x.va else x.vb
      (x.vd * 64 + l, laneGet c r l, laneP c r l)
    .next (pend s a.core 1 (.lanes ws))

/-! ### The packed dot product (R158, R238, R239) -/

/-- R158: four byte products of an A word of type FMT and an INT8 B word, summed exactly. -/
def dot4 (fmt : Nat) (p q : Word) : Int :=
  (upto 4).foldl (fun (t : Int) b =>
    let ab := p.toNat / 256 ^ b
    let av : Int := if fmt = 1 then sextN 8 ab else ((ab % 256 : Nat) : Int)
    t + av * sextN 8 (q.toNat / 256 ^ b)) 0

/-- One byte of a lane's window operand: the byte itself, or where it lies. -/
def dwByte (s : State) (n : Nat) (ns : NestSt) (w : Win) (ad : Nat) (row ch tap : Nat) : Byte ⊕ (Nat × Nat) :=
  if w.kh * w.kw ≤ tap then .inl (BitVec.ofNat 8 w.zpad)
  else match tapAt s (n / 4) ns w row tap with
    | .at off => .inr (((ad : Int) + off).toNat + ch, 1)
    | _ => .inl (BitVec.ofNat 8 (padElem w))

/-- The bytes of a list of window bytes, with the poison of the words read. -/
def dwBytes (s : State) (n : Nat) (bs : List (Byte ⊕ (Nat × Nat))) : List (Byte × Bool) × State :=
  let (got, s) := barReadRuns s n (bs.filterMap fun b => match b with
    | .inr r => some r
    | .inl _ => none)
  let out := bs.foldl (fun (acc : List (Byte × Bool) × List (List Byte × Bool)) b => match b with
    | .inl v => (acc.1 ++ [(v, false)], acc.2)
    | .inr _ => match acc.2 with
      | [] => (acc.1 ++ [(0, false)], [])
      | g :: gs => (acc.1 ++ [(byteAt g.1 0, g.2)], gs)) ([], got)
  (out.1, s)

/-- R238, R239: one quad of the depthwise window form. -/
def dwQuad (s : State) (n : Nat) (x : VxArgs) (j : Nat) (ns : NestSt) (w : Win) : Out :=
  let taps := w.kh * w.kw
  let nq := cdiv taps 4
  if nq = 0 then .next s
  else
    let c := coreOf s n
    let p := j / nq
    let q := j % nq
    let ls := govLanes c x.mask
    let rows := (ls.map fun l => 2 * p + l / 32).eraseDups
    let tapsOf := (upto 4).filterMap fun b => if 4 * q + b < taps then some (4 * q + b) else none
    let cnt (t : Tap) := (rows.map fun r => (tapsOf.filter fun i => tapAt s (n / 4) ns w r i == t).length).sum
    let pads := if w.mode < 2 then cnt .pad else 0
    let misses := cnt .miss
    onOk (addrIf (!ls.isEmpty) (coreAddr s n 0 0 0)) fun ad =>
    onOk (addrIf (!ls.isEmpty) (coreAddr s n 1 q 256)) fun bd =>
      let bytes := ls.flatMap fun l => (upto 4).map fun b => dwByte s n ns w ad (2 * p + l / 32) (l % 32) (4 * q + b)
      if bytes.any fun b => match b with
        | .inr r => !inSpm n r.1 r.2
        | .inl _ => false
      then .fault .outsideSpm
      else
        let (av, s) := dwBytes s n bytes
        let (bv, s) := barReadRuns s n (ls.map fun l => (bd + 4 * l, 4))
        let s := winMisses (padTaps s n pads) n misses
        let run : DwRun := match (if q = 0 then none else c.dw) with
          | some r => r
          | none => ⟨(upto 64).map fun l => laneGet c x.vc l, (upto 64).map fun l => laneP c x.vc l⟩
        let (r, fl) := numRun (ls.zipIdx.mapM fun y => do
          let ab := slice av (4 * y.2) 4
          let b := bv.getD y.2 ([], false)
          let word := BitVec.ofNat 32 (leNat (ab.map fun z => z.1))
          let v ← int32 x.sat ((run.sum.getD y.1 0).toInt + dot4 x.fmt word (BitVec.ofNat 32 (leNat b.1)))
          return (y.1, v, run.pois.getD y.1 false || b.2 || ab.any fun z => z.2))
        let s := applyFl s n fl
        let next : DwRun := r.foldl (fun (d : DwRun) y => ⟨d.sum.set y.1 y.2.1, d.pois.set y.1 y.2.2⟩) run
        let s := updCore s n fun c => { c with dw := if q + 1 = nq then none else some next }
        if q + 1 < nq then .next s
        else if 30 < x.vd + p then .next (winMisses s n 1)
        else .next (pend s n 2 (.lanes (r.map fun y => ((x.vd + p) * 64 + y.1, y.2.1, y.2.2))))

/-- VDOT4. -/
def execVdot4 (a : At) (x : VxArgs) (s : State) : Out :=
  vxDo 0x20 a x s fun s =>
    let n := a.core
    match (if x.va = 31 then vwinOn s (n / 4) else none) with
    | some (ns, w) => dwQuad s n x a.j ns w
    | none =>
      let c := coreOf s n
      .next (vxLanes s n x 2 [x.va, x.vb, x.vc] fun l =>
        int32 x.sat (laneI c x.vc l + dot4 x.fmt (laneGet c x.va l) (laneGet c x.vb l)))

/-! ### Functions (R151) -/

/-- VLUT. -/
def execVlut (a : At) (x : VxArgs) (s : State) : Out := func1 0x21 a x s 5 fun c v => vlut c (x.arg % 8) v

/-- VRCP. -/
def execVrcp (a : At) (x : VxArgs) (s : State) : Out := func1 0x22 a x s 8 fun _ v => rcp32 v

/-- VRSQRT. -/
def execVrsqrt (a : At) (x : VxArgs) (s : State) : Out := func1 0x23 a x s 8 fun _ v => rsqrt32 v

/-- VEXP2. -/
def execVexp2 (a : At) (x : VxArgs) (s : State) : Out := func1 0x24 a x s 6 fun c v => vexp2 c (x.arg % 8) v

end Sys2Proof.Machine
end

