-- ==== Sys2Proof/Machine/VectorRed.lean ====
section
/-! DEFINITION. Operations of the vector unit across lanes and registers: reductions, sort and merge, and points (04
sections 6.2, 6.3 and 6.6). -/

namespace Sys2Proof.Machine
open Sys2Proof

/-- R152: the rank of a key. Every NaN ranks below −∞, and −0 below +0. -/
def keyRank (fp : Bool) (w : Word) : Int :=
  if !fp then w.toInt
  else if fIsNan (dec32 w) then -(2 ^ 40)
  else
    let m : Int := ((w.toNat % 2 ^ 31 : Nat) : Int)
    if w.toNat < 2 ^ 31 then m else -m - 1

/-- A key as it is written: a NaN is canonical. -/
def keyOut (fp : Bool) (w : Word) : Word := if fp && fIsNan (dec32 w) then fw .nan else w

/-- The whole of a destination register: lane 0, lane 1, and zeros. -/
def redOut (vd : Nat) (v0 v1 : Word) (p0 p1 : Bool) : List (Nat × Word × Bool) :=
  (upto 64).map fun l => (vd * 64 + l, if l = 0 then v0 else if l = 1 then v1 else 0, if l = 0 then p0 else l == 1 && p1)

/-- R153: a reduction into lane 0. -/
def reduce (op : Nat) (a : At) (x : VxArgs) (s : State) (f : Core → List Nat → Num Word) : Out :=
  vxDo op a x s fun s =>
    let c := coreOf s a.core
    let ls := govLanes c x.mask
    let (v, fl) := numRun (f c ls)
    let s := applyFl s a.core fl
    .next (pend s a.core 6 (.lanes (redOut x.vd v 0 (ls.any fun l => laneP c x.va l) false)))

/-- VRSUM. -/
def execVrsum (a : At) (x : VxArgs) (s : State) : Out :=
  reduce 0x28 a x s fun c ls =>
    if x.fmt = 9 then int32 x.sat ((ls.map fun l => laneI c x.va l).sum)
    else do return fw (← treeSum 6 ((upto 64).map fun l => if ls.contains l then laneF c x.va l else fZero))

/-- The lane that a reduction picks: the first among those whose rank is best. -/
def pickLane (rank : Nat → Int) (low : Bool) : List Nat → Option Nat
  | [] => none
  | l :: ls =>
    match pickLane rank low ls with
    | none => some l
    | some b => if (if low then rank b < rank l else rank l < rank b) then some b else some l

/-- R153: VRMAX and VRMIN of the active lanes. -/
def redPick (c : Core) (x : VxArgs) (low : Bool) (ls : List Nat) : Word :=
  let fp := x.fmt == 8
  if fp && ls.any fun l => fIsNan (laneF c x.va l) then fw .nan
  else match pickLane (fun l => keyRank fp (laneGet c x.va l)) low ls with
    | some l => laneGet c x.va l
    | none => if fp then fw (.inf (!low)) else if low then 0x7FFFFFFF else 0x80000000

/-- VRMAX. -/
def execVrmax (a : At) (x : VxArgs) (s : State) : Out := reduce 0x29 a x s fun c ls => pure (redPick c x false ls)

/-- VRMIN. -/
def execVrmin (a : At) (x : VxArgs) (s : State) : Out := reduce 0x2A a x s fun c ls => pure (redPick c x true ls)

/-- VRARGMAX: a NaN counts as the maximum when present. -/
def execVrargmax (a : At) (x : VxArgs) (s : State) : Out :=
  vxDo 0x2B a x s fun s =>
    let c := coreOf s a.core
    let fp := x.fmt == 8
    let ls := govLanes c x.mask
    let rank (l : Nat) : Int :=
      if fp && fIsNan (laneF c x.va l) then 2 ^ 40 else keyRank fp (laneGet c x.va l)
    let p := ls.any fun l => laneP c x.va l
    let (v, i) : Word × Word := match pickLane rank false ls with
      | some l => (keyOut fp (laneGet c x.va l), BitVec.ofNat 32 l)
      | none => (if fp then fw (.inf true) else 0x80000000, 0xFFFFFFFF)
    .next (pend s a.core 6 (.lanes (redOut x.vd v i p p)))

/-! ### Sort and merge (R154, R155) -/

/-- R152: whether pair p ranks above pair q; equal keys are ordered by payload, the lower signed payload higher. -/
def pairAbove (fp : Bool) (p q : Word × Word) : Bool :=
  let a := keyRank fp p.1
  let b := keyRank fp q.1
  if a = b then p.2.toInt < q.2.toInt else b < a

/-- Inserting a pair into a sorted list. -/
def pairInsert (fp : Bool) (p : Word × Word) : List (Word × Word) → List (Word × Word)
  | [] => [p]
  | q :: qs => if pairAbove fp q p then q :: pairInsert fp p qs else p :: q :: qs

/-- Pairs from highest to lowest. -/
def pairSort (fp : Bool) : List (Word × Word) → List (Word × Word)
  | [] => []
  | p :: ps => pairInsert fp p (pairSort fp ps)

/-- The pairs of two registers at given lanes. -/
def pairsAt (c : Core) (r : Nat) (ls : List Nat) : List (Word × Word) := ls.map fun l => (laneGet c r l, laneGet c (r + 1) l)

/-- The 64 output pairs: sorted, then the sentinel of R154. -/
def pairOut (vd : Nat) (fp : Bool) (ps : List (Word × Word)) (p : Bool) : List (Nat × Word × Bool) :=
  let sorted := pairSort fp ps
  let sent : Word × Word := (if fp then fw (.inf true) else 0x80000000, 0xFFFFFFFF)
  (upto 64).flatMap fun l =>
    let q := sorted.getD l sent
    [(vd * 64 + l, keyOut fp q.1, p), ((vd + 1) * 64 + l, q.2, p)]

/-- Whether one of the pairs at some lanes is poisoned. -/
def pairPois (c : Core) (r : Nat) (ls : List Nat) : Bool := ls.any fun l => laneP c r l || laneP c (r + 1) l

/-- VSORT. -/
def execVsort (a : At) (x : VxArgs) (s : State) : Out :=
  vxDo 0x2C a x s fun s =>
    let c := coreOf s a.core
    let ls := govLanes c x.mask
    .next (pend s a.core 12 (.lanes (pairOut x.vd (x.fmt == 8) (pairsAt c x.va ls) (pairPois c x.va ls))))

/-- VMERGE. -/
def execVmerge (a : At) (x : VxArgs) (s : State) : Out :=
  vxDo 0x2D a x s fun s =>
    let c := coreOf s a.core
    let ls := govLanes c x.mask
    let all := upto 64
    .next (pend s a.core 12 (.lanes (pairOut x.vd (x.fmt == 8) (pairsAt c x.vd all ++ pairsAt c x.va ls)
      (pairPois c x.vd all || pairPois c x.va ls))))

/-! ### Points (R159) -/

/-- An operation on groups of registers: each active lane gives the values of registers VD, VD + 1, …; `srcs i` are the
registers that the formula of VD + i reads, whose poison it takes (R147). -/
def vxGroup (s : State) (n : Nat) (x : VxArgs) (lat : Nat) (srcs : Nat → List Nat) (f : Nat → Num (List Word)) : State :=
  let c := coreOf s n
  let (ws, fl) := numRun ((govLanes c x.mask).mapM fun l => do
    let vs ← f l
    return vs.zipIdx.map fun y => ((x.vd + y.2) * 64 + l, y.1, (srcs y.2).any fun r => laneP c r l))
  applyFl (pend s n lat (.lanes (ws.flatMap id))) n fl

/-- VXFORM. -/
def execVxform (a : At) (x : VxArgs) (s : State) : Out :=
  vxDo 0x30 a x s fun s =>
    let c := coreOf s a.core
    let p := x.arg % 64
    .next (vxGroup s a.core x 12 (fun _ => [x.va, x.va + 1, x.va + 2]) fun l =>
      (upto 3).mapM fun i => do
        let m (j : Nat) := pbF c (p + 4 * i + j)
        let t ← fma32 (m 0) (laneF c x.va l) (m 3)
        let t ← fma32 (m 1) (laneF c (x.va + 1) l) t
        return fw (← fma32 (m 2) (laneF c (x.va + 2) l) t))

/-- VPROJ. -/
def execVproj (a : At) (x : VxArgs) (s : State) : Out :=
  vxDo 0x31 a x s fun s =>
    let c := coreOf s a.core
    let k (i : Nat) := pbF c (x.arg % 64 + i)
    .next (vxGroup s a.core x 14 (fun i => [x.va + i, x.va + 2]) fun l => do
      let z := laneF c (x.va + 2) l
      if fIsNan z || fLe z fZero then return [fw .nan, fw .nan]
      else
        let w ← rcp32 z
        let u ← fma32 (k 0) (← mul32 (laneF c x.va l) w) (k 2)
        let v ← fma32 (k 1) (← mul32 (laneF c (x.va + 1) l) w) (k 3)
        return [fw u, fw v])

/-- VDEPTH. -/
def execVdepth (a : At) (x : VxArgs) (s : State) : Out :=
  vxDo 0x32 a x s fun s =>
    let c := coreOf s a.core
    let k (i : Nat) := pbF c (x.arg % 64 + i)
    .next (vxGroup s a.core x 12 (fun i => if i < 2 then [x.va + i, x.vb] else [x.vb]) fun l => do
      let d := laneI c x.vb l
      if d ≤ 0 then return [fw .nan, fw .nan, fw .nan]
      else
        let z ← mul32 (fOfInt d) (k 4)
        let px ← mul32 (← mul32 (← sub32 (laneF c x.va l) (k 2)) (k 0)) z
        let py ← mul32 (← mul32 (← sub32 (laneF c (x.va + 1) l) (k 3)) (k 1)) z
        return [fw px, fw py, fw z])

/-- R159: a voxel count: an integer from 1 to 1,024 held as FP32. -/
def voxCount (v : FVal) : Option Nat :=
  let n := (fFloor v).toNat
  if fIsFin v && fEq v (fOfInt n) && 1 ≤ n && n ≤ 1024 then some n else none

/-- One voxel index: none where the value is NaN or the index lies outside. -/
def voxIdx (v : FVal) (n : Nat) : Option Nat :=
  if fIsFin v && 0 ≤ fFloor v && fFloor v < (n : Int) then some (fFloor v).toNat else none

/-- VVOX. With counts that are not integers from 1 to 1,024 the rule states no result: those lanes are free values
(assumption 2).
Assumption log: 2 (DESIGN CHOICE). -/
def execVvox (a : At) (x : VxArgs) (s : State) : Out :=
  vxDo 0x33 a x s fun s =>
    let c := coreOf s a.core
    let f0 := s.free
    let k (i : Nat) := pbF c (x.arg % 64 + i)
    let s := vxGroup s a.core x 10 (fun _ => [x.va, x.va + 1, x.va + 2]) fun l => do
      let q (i : Nat) : Num FVal := do return ← mul32 (← sub32 (laneF c (x.va + i) l) (k i)) (k 3)
      let vx ← q 0
      let vy ← q 1
      let vz ← q 2
      match voxCount (k 4), voxCount (k 5), voxCount (k 6) with
      | some nx, some ny, some nz =>
        match voxIdx vx nx, voxIdx vy ny, voxIdx vz nz with
        | some ix, some iy, some iz => return [BitVec.ofNat 32 (ix + nx * (iy + ny * iz))]
        | _, _, _ => return [0xFFFFFFFF]
      | _, _, _ => return [Config.freeWord (f0 + l)]
    .next (freeSkip s 64)

end Sys2Proof.Machine
end

