-- ==== Sys2Proof/Machine/Drain.lean ====
section
/-! DEFINITION. The drain (02 section 8, 04 section 4): one plane row per beat, converted and written to the SPM or to a
vector register. -/

namespace Sys2Proof.Machine
open Sys2Proof

/-- A field of the drain record (Table 4.6), `n` bytes at an offset. -/
def drecN (c : Core) (off n : Nat) : Nat := leNat (mgetRun byte0 c.drec off n)

/-- An INT32 of the drain record. -/
def drecI (c : Core) (off : Nat) : Int := sextN 32 (drecN c off 4)

/-- An FP32 value of the drain record. -/
def drecF (c : Core) (off : Nat) : FVal := dec32 (BitVec.ofNat 32 (drecN c off 4))

/-- FLAGS of the drain record. -/
def drecFlags (c : Core) : Nat := drecN c 0 4

/-- R69: the corrected integer sum of element (q, col) of a plane. -/
def drainT (c : Core) (plane q col : Nat) : Int :=
  let acc := (accGet c plane q col).toInt
  if bitN (drecFlags c) 2 then
    let zw := drecI c 0x0C
    let za := drecI c 0x08
    acc - zw * (rsGet c plane q).toInt - za * drecI c (0x100 + 4 * col) + ((drecN c 4 4 : Nat) : Int) * za * zw
  else acc

/-- R142: the activation. -/
def drainAct (c : Core) (y : FVal) : Num FVal :=
  match bitsN (drecFlags c) 11 3 with
  | 0 => return y
  | 1 => return if fIsNan y then .nan else if fLe y fZero then fZero else y
  | 2 => return min32 (max32 y (drecF c 0x20)) (drecF c 0x24)
  | _ => vlut c (bitsN (drecFlags c) 14 3) y

/-- R72 and the activation: element (q, col) as FP32; `srow` is s_row[q]. -/
def drainY (c : Core) (plane q col : Nat) (srow : FVal) : Num FVal := do
  let f := drecFlags c
  let y ← if bitsN f 0 2 = 0 then do
      let k ← mul32 (ue5m3 (drecN c (0x40 + col) 1)) (drecF c 0x14)
      let m ← mul32 srow k
      mul32 (fOfInt (drainT c plane q col)) m
    else do
      let m ← mul32 (drecF c 0x18) (drecF c 0x14)
      mul32 (dec32 (accGet c plane q col)) m
  let y ← if bitN f 3 then add32 y (drecF c (0x200 + 4 * col)) else pure y
  drainAct c y

/-- The range of an integer output format of R73. -/
def intRange : Nat → Option (Int × Int)
  | 1 => some (-128, 127)
  | 2 => some (0, 255)
  | 3 => some (-8, 7)
  | _ => none

/-- R73: the output code of y.
Assumption log: 89 (DEDUCED). -/
def drainOut (c : Core) (md : Rnd) (y : FVal) : Num Nat := do
  let f := drecFlags c
  let fmt := bitsN f 4 4
  let u ← mul32 y (drecF c 0x1C)
  match intRange fmt with
  | some (lo, hi) =>
    let z := drecI c 0x10
    match u with
    | .nan => do
      modify fun fl => { fl with cvtNan := true }
      return truncI (fmtBits fmt) (← clampI lo hi z)
    | .inf n => do
      clampEvent
      return truncI (fmtBits fmt) (if n then lo else hi)
    | v => return truncI (fmtBits fmt) (← clampI lo hi (roundInt md v + z))
  | none => convert fmt md (bitN f 10) u

/-- R138: the comparison of a row with its residue shadows; every mismatch is reported, and the row is poisoned.
Assumption log: 5 (DESIGN CHOICE). -/
def drainCheck (s : State) (n plane q : Nat) : State :=
  let c := coreOf s n
  let bad := (upto 64).filter fun col => mod7 (accGet c plane q col).toInt != shGet c plane q col
  let s := if bad.isEmpty then s else setCore s n (rowPut c plane q { rowGet c plane q with pois := true })
  foldS (fun s col => resMismatch s n true plane q col) bad s

/-- The output bytes of a row, from the codes of its columns; a nibble outside is 0 in a byte that is written. -/
def drainBytes (ad bits : Nat) (vs : List (Nat × Nat)) (p : Bool) : List (Nat × Byte × Bool) :=
  if bits = 4 then
    ((vs.map fun y => y.1 / 2).eraseDups).map fun b =>
      let nib (c : Nat) := ((vs.find? fun y => y.1 == c).map fun y => y.2 % 16).getD 0
      (ad + b, BitVec.ofNat 8 (nib (2 * b) + 16 * nib (2 * b + 1)), p)
  else vs.flatMap fun y => laneBytes (ad + y.1 * (bits / 8)) (bits / 8) y.2 p

/-- R144: the output of a beat while the parameter buffer holds no valid record. -/
def drainNone (s : State) (n : Nat) (x : VxArgs) (jj : Nat) (cols : List Nat) : Out :=
  if bitN x.arg 4 then .next (pend s n 6 (.lanes (cols.map fun c => (x.vd * 64 + c, 0, true))))
  else onOk (addrIf (!cols.isEmpty) (coreAddr s n 2 jj 256)) fun ad =>
    .next (pend s n 6 (.mem 0 (cols.flatMap fun c => laneBytes (ad + 4 * c) 4 0 true)))

/-- R142, R73: the row is converted and written. -/
def drainRow (s : State) (n : Nat) (x : VxArgs) (plane q jj : Nat) (cols : List Nat) (srow : FVal) (p : Bool) : Out :=
  let c := coreOf s n
  let f := drecFlags c
  let p := p || (rowGet c plane q).pois
  if bitN x.arg 4 then
    let (vs, fl) := numRun (cols.mapM fun col => do return (x.vd * 64 + col, fw (← drainY c plane q col srow), p))
    .next (applyFl (pend s n 6 (.lanes vs)) n fl)
  else
    let bits := fmtBits (bitsN f 4 4)
    onOk (addrIf (!cols.isEmpty) (coreAddr s n 2 jj (8 * bits))) fun ad =>
      let (vs, fl) := numRun (cols.mapM fun col => do
        let y ← drainY c plane q col srow
        return (col, ← drainOut c (mdOf c (bitsN f 8 2) col jj) y))
      .next (applyFl (pend s n 6 (.mem 0 (drainBytes ad bits vs p))) n fl)

/-- DRAIN: row (ROW0 + j) mod 64 of a plane. `flt` are upsets of the plane's elements: column and change (assumption 5).
Assumption log: 5 (DESIGN CHOICE). -/
def execDrain (a : At) (x : VxArgs) (flt : List (Nat × Int)) (s : State) : Out :=
  vxDo 0x0B a x s fun s =>
    let n := a.core
    let plane := x.arg % 16
    let jj := x.arg / 32 % 64 + a.j
    let q := jj % 64
    let s := foldS (fun s y => updCore s n fun c =>
      accPut c plane q (y.1 % 64) (accGet c plane q (y.1 % 64) + BitVec.ofInt 32 y.2)) flt s
    let c := coreOf s n
    let mk := rowGet c plane q
    let cols := (govLanes c x.mask).filter (· < mk.nc)
    if !mk.valid then .next s
    else if !c.drecOk then drainNone s n x jj cols
    else if bitsN (drecFlags c) 0 2 = 0 then
      onOk (coreAddr s n 3 jj 4) fun ad =>
        let ((bs, ps), s) := barRead s n ad 4
        let s := if mk.shValid && !mk.sat then drainCheck s n plane q else s
        drainRow s n x plane q jj cols (dec32 (BitVec.ofNat 32 (leNat bs))) (ps.any id)
    else drainRow s n x plane q jj cols fZero false

end Sys2Proof.Machine
end

