-- ==== Sys2Proof/Machine/LinkReceive.lean ====
section
/-! DEFINITION. What a link receives (15 sections 1 and 2): flits, and the segments they carry. -/

namespace Sys2Proof.Machine
open Sys2Proof

/-! ### Reception (R420 to R426) -/

/-- A response to a segment. -/
def reply (s : State) (g : Seg) (kind status code pois : Nat) (d : List Byte) : State :=
  (segSend s { seg0 s kind g.src g.addr 1 g.tag g.epoch g.job with
    len := g.len, status := status, code := code, pois := pois, data := d }).2

/-- The poison flag of each byte of a segment. -/
def segPois (g : Seg) : List Bool :=
  (upto (g.len + 1)).map fun i => bitN g.pois ((g.addr % 64 + i) % 64 / 32)

/-- The bytes of a segment's data that it carries. -/
def segBytes (g : Seg) : List Byte := slice g.data (g.addr % 64) (g.len + 1)

/-- A remote write arrives: whether it is taken (a full hold store keeps it waiting).
Assumption log: 49 (DESIGN CHOICE). -/
def recvWr (s : State) (g : Seg) : Bool × State :=
  let a := g.addr % 2 ^ 40
  let w : Who := ⟨0xB, 12, g.job, none, none⟩
  let code := accessCode s w true a
  if code ≠ 0 then (true, reply (refuse s w code (glob s a)) g 4 1 code 0 [])
  else match memAt a with
    | some m =>
      match arrive s m g.epoch ⟨m, a, .remote g.src (Config.tagIssuer g.tag), .link, g.tag, 0, g.job, segBytes g,
          segPois g⟩ with
      | (.full, s) => (false, s)
      | (.held, s) => (true, s)
      | (.landed, s) => (true, reply s g 4 0 0 0 [])
      | (.stale, s) => (true, reply s g 4 3 0 0 [])
    | none =>
      if regionOf a = some .regs then (true, reply (regAccess s 12 true a (g.len + 1) (segBytes g)) g 4 0 0 0 [])
      else (true, reply (fabWrite s w a (segBytes g) (segPois g)).2 g 4 0 0 0 [])

/-- A remote read arrives. -/
def recvRd (s : State) (g : Seg) : State :=
  let a := g.addr % 2 ^ 40
  let w : Who := ⟨0xB, 12, g.job, none, none⟩
  let stale := match memAt a with
    | some m => isStale s m g.epoch
    | none => false
  if stale then reply (staleHit s ((memAt a).getD 0)) g 3 3 0 0 []
  else if regionOf a = some .regs then
    let s := regAccess s 12 false a (g.len + 1) []
    reply s g 3 0 0 0 (blockOf a (s.mem.out.map fun x => x.1))
  else
    let (r, s) := fabReads s w a (g.len + 1)
    if r.code ≠ 0 then reply s g 3 1 r.code 0 []
    else if r.pois.any id then reply (consume s 0xB 12 2 g.job (glob s a)) g 3 2 0 0 []
    else reply s g 3 0 0 0 (blockOf a r.data)

/-- A response arrives: it ends its operation, or is discarded as late. -/
def recvRsp (s : State) (g : Seg) : State :=
  match s.lk.ops.find? fun o => o.tag == g.tag with
  | some o => ropEnd s o g.status g.code (segBytes { g with addr := o.addr }) (segPois { g with addr := o.addr })
  | none => if s.lk.dead.any fun d => d.1 == g.tag then incr s rDdlOptoCnt else s

/-- R515: TIM's own messages: a parent answers a request with T2, and a response is kept with t4. Any other MGMT message joins the
inbox.
Assumption log: 55 (DEDUCED). -/
def mgmtIn (s : State) (l : Nat) (g : Seg) : State :=
  match leAt g.data 0 1 with
  | 9 => mgmtSeg s (some l) g.src (mgmtMsg 10 (leBytes 4 (leAt g.data 8 4) ++ leBytes 8 (now s)))
  | 10 => { s with io := { s.io with
      rsp := some ⟨leAt g.data 8 4, leAt g.data 12 8, leAt g.data 20 8, now s, (rd s (rLinkRetryCnt l)).toNat⟩ } }
  | _ => { s with lk := { s.lk with inbox := s.lk.inbox ++ [(l, g.src, g.data)] } }

/-- A segment for this chip: whether it is taken. -/
def segSink (s : State) (l : Nat) (g : Seg) : Bool × State :=
  let m := (memAt (g.addr % 2 ^ 40)).getD 0
  match g.kind with
  | 1 => recvWr s g
  | 2 => if scrubbing s (g.addr % 2 ^ 40) then (false, s) else (true, recvRd s g)
  | 3 => (true, recvRsp s g)
  | 4 => (true, recvRsp s g)
  | 5 => (true, if (memAt (g.addr % 2 ^ 40)).isSome then
      commitSlots s (.remote g.src (Config.tagIssuer g.tag)) g.epoch (mapSlots m g.data) else s)
  | 6 => (true, if (memAt (g.addr % 2 ^ 40)).isSome then releaseSlots s g.epoch (mapSlots m g.data) else s)
  | 7 => (true, mgmtIn s l g)
  | 8 => (true, { s with fw := { s.fw with in8 := s.fw.in8 ++ [(g.src, g.data)] } })
  | _ => (true, s)

/-- One received segment: it waits behind a segment of its VC that waits, is forwarded, or acts; its slots are freed.
Assumption log: 62 (DEDUCED). -/
def segIn (s : State) (l : Nat) (g : Seg) : State :=
  let v := segVc g.kind
  if (lnk s l).rxHold.any fun h => segVc h.kind == v then updLnk s l fun k => { k with rxHold := k.rxHold ++ [g] }
  else
    let (ok, s) := if g.dst = ownChip s then segSink s l g else (true, segForward s g)
    if ok then updLnk s l fun k => { k with freed := k.freed.modify v fun x => x + segSlots g }
    else updLnk s l fun k => { k with rxHold := k.rxHold ++ [g] }

/-- The waiting segments of link l are tried again.
Assumption log: 62 (DEDUCED). -/
def heldIn (s : State) (l : Nat) : State :=
  let gs := (lnk s l).rxHold
  foldS (fun s g => segIn s l g) gs (updLnk s l fun k => { k with rxHold := [] })

/-- R423: a flit is discarded: NAK at the first discard of a loss. -/
def flitBad (s : State) (l : Nat) : State :=
  updLnk s l fun k => if k.naked then k else { k with nak := true, naked := true }

/-- A flit whose CRC is counted bad. -/
def flitCrc (s : State) (l : Nat) : State := flitBad (wrB (incr s (rLinkCrcCnt l)) (rLinkFlags l) 0 true) l

/-- The header of a good flit: ACK, CREDIT and NAK. -/
def flitHdr (s : State) (l : Nat) (f : Flit) : State :=
  updLnk s l fun k =>
    let n := (k.replay.takeWhile fun r => r.seq != f.ack).length
    { k with replay := if n < k.replay.length then k.replay.drop (n + 1) else k.replay,
             credit := List.zipWith (· + ·) k.credit f.credit, nakIn := k.nakIn || f.nak }

/-- A CTRL flit: the peer's membership, and the lanes that its receiver has retired. -/
def flitCtrl (s : State) (l : Nat) (c : Ctrl) : State :=
  let s := wrF (wrF s (rLinkStatus l) 13 8 c.chip) (rLinkStatus l) 6 4 c.link
  let s := updLnk s l fun k => { k with peer := some c }
  let numbered := roleOf s == 1 || (roleOf s == 2 && ownChip s != 0)
  let s := if linkState s l = 3 && numbered && c.role == 2 && c.chip != 0 && c.hlSerial == hlSerialOf s then setLink s l 4
    else s
  if c.retire ≠ 0 && linkState s l == 4 then setLink s l 5 else s

/-- R425: whether an encrypted flit authenticates.
Assumption log: 47 (DESIGN CHOICE). -/
def flitAuth (s : State) (l : Nat) (f : Flit) : Bool := f.authOk && rdB s (rKeyCtl l (f.kid % 2)) 0

/-- A DATA flit with a good CRC. -/
def flitData (s : State) (l : Nat) (f : Flit) : State :=
  if f.enc && !flitAuth s l f then
    let s := flitCrc (wrB (incr s (rLinkAuthCnt l)) (rLinkFlags l) 4 true) l
    let n := (lnk s l).authBad + 1
    if n = 4 then linkDown s l 0x74 else updLnk s l fun k => { k with authBad := n }
  else
    let s := if f.enc then updLnk s l fun k => { k with authBad := 0 } else s
    if f.segs.any fun g => 9 ≤ g.kind then flitCrc s l
    else if f.seq ≠ ((lnk s l).rxSeq + 1) % 4096 then flitBad s l
    else
      let s := flitHdr s l f
      let s := updLnk (incr s (rLinkRxCnt l)) l fun k => { k with rxSeq := f.seq, naked := false }
      foldS (fun s g => segIn s l g) ((f.segs.takeWhile fun g => g.kind != 0).filter fun g =>
        linkState s l == 4 || linkState s l == 5 || (linkState s l == 3 && segVc g.kind == 3)) s

/-- FLIT_RECEIVE of a flit on link l.
Assumption log: 13 (DESIGN CHOICE), 71 (DESIGN CHOICE). -/
def execFlitReceive (l : Nat) (f : Flit) (s : State) : Out :=
  if linkState s l < 2 then .next s
  else
    let s := heldIn s l
    if !f.crcOk then .next (flitCrc s l)
    else match f.typ, f.ctrl with
      | 1, _ => .next (flitData s l f)
      | 2, some c => .next (flitCtrl (flitHdr s l f) l c)
      | _, _ => .next s

end Sys2Proof.Machine
end

