-- ==== Sys2Proof/Machine/Matrix.lean ====
section
/-! DEFINITION. Issuing a matrix instruction (04 section 1, 07 section 3, 17 R471): the start rule, the valid rows and
columns, its operand addresses, and the power bucket. What it does in later beats is in Mx and Beat. -/

namespace Sys2Proof.Machine
open Sys2Proof

/-- R129: whether an MMUL with AUTO = 1 starts a chain at the current step. -/
def autoStarts (s : State) (k : Nat) : Bool :=
  match (clu s k).nest with
  | none => true
  | some ns => !ns.inBody ||
      (upto ns.desc.levels).all fun i => (lvlAt ns.desc i).dim != 3 || ns.idx.getD i 0 == 0

/-- Table 17.6: the activity event of a pair, and its units per valid row. -/
def mxEvent : Pair → Nat × Nat
  | .i4 => (0, 2)
  | .bf => (2, 1)
  | .hf => (2, 1)
  | _ => (1, 1)

/-- R471: whether a matrix instruction has already issued in cluster k's current beat: its units are spent. -/
def mxSpent (s : State) (k : Nat) : Bool :=
  (upto 4).any fun p => (coreOf s (4 * k + p)).mx.any fun f => f.issue == (clu s k).beat

/-- A list of addresses that must all exist.
Assumption log: 59 (DESIGN CHOICE). -/
def allOk {α : Type} : List (Except Fault α) → Except Fault (List α)
  | [] => .ok []
  | x :: xs =>
    match x with
    | .error e => .error e
    | .ok a =>
      match allOk xs with
      | .error e => .error e
      | .ok as => .ok (a :: as)

/-- The source of an activation row lies in the core's own SPM (R542). -/
def rowIn (n : Nat) : RowSrc → Except Fault RowSrc
  | .pad bs m t z => .ok (.pad bs m t z)
  | .mem runs => if runs.all fun r => inSpm n r.1 r.2 then .ok (.mem runs) else .error .outsideSpm

/-- R131, R233: the sources of the `nr` valid activation rows. -/
def mxRows (s : State) (n : Nat) (p : Pair) (nr : Nat) : Except Fault (List RowSrc) :=
  match winOn s (n / 4) with
  | some (ns, w) =>
    match coreAddr s n 0 0 0 with
    | .error e => .error e
    | .ok a => allOk ((upto nr).map fun r => rowIn n (winRow s (n / 4) ns w p a r))
  | none => allOk ((upto nr).map fun r => (coreAddr s n 0 r (aBytes p)).map fun a => .mem [(a, aBytes p)])

/-- R233: an AFMT that does not match BLK raises WIN_MISS once per instruction. -/
def mxMiss (s : State) (n : Nat) (p : Pair) : State :=
  match winOn s (n / 4) with
  | some (_, w) => if winMatch p w then s else winMisses s n 1
  | none => s

/-- A matrix instruction enters the array (R131, R132, R134). `flt` are injected errors of column sums (assumption 5).
Assumption log: 5 (DESIGN CHOICE). -/
def mxEnter (s : State) (n : Nat) (m : MxArgs) (p : Pair) (start : Bool) (flt : List (Nat × Int)) : Out :=
  let k := n / 4
  let nr := cutBy (m.rows + 1) (coreValid s k 0)
  let nc := cutBy (m.cols + 1) (coreValid s k 4)
  let need := 0 < nr && 0 < nc
  let blk := if p = .f8 then 4096 + (if m.sub32 then 128 else 64) else 64 * bPitch p
  onOk (if need then mxRows s n p nr else .ok []) fun rows =>
  onOk (addrIf need (coreAddr s n 1 0 blk)) fun b =>
  onOk (addrIf (need && p == .f8) (coreAddr s n 3 0 (if m.sub32 then 128 else 64))) fun x =>
    let f : MxFlight := { issue := (clu s k).beat, plane := m.plane, wfmt := m.wfmt, afmt := m.afmt, nr := nr, nc := nc,
                          rq := m.rq, sub32 := m.sub32, start := start, src := rows, bAddr := b, auxAddr := x, a := [], aZero := [],
                          aPois := [], b := [], bPois := false, rowSc := [], colSc := [], flt := flt }
    let spent := mxSpent s k
    let s := freeSkip s 2048
    let s := if spent then s else updClu s k fun c => { c with bucket := c.bucket - 16384 }
    let s := if need then act (mxMiss s n p) k (mxEvent p).1 ((mxEvent p).2 * nr) else s
    .next (updCore s n fun c => { c with mx := c.mx ++ [f] })

/-- MMUL and MMUL_START: a reserved encoding is refused; the field acts only in beat 0 (R83), where the GUARD holds, behind its
core's wait (R88), and in a beat that nothing else blocks (R37); the
beat blocks with PWR_THROTTLE where the power bucket refuses it (R471).
Assumption log: 9 (DESIGN CHOICE), 58 (DESIGN CHOICE). -/
def mxIssue (a : At) (m : MxArgs) (forced : Bool) (flt : List (Nat × Int)) (s : State) : Out :=
  if !mxOk forced m then .refused .reservedEncoding
  else
    let k := a.core / 4
    let s := adv s k a.dt
    if a.j ≠ 0 || !guardOk s a.core || !fieldTurn s a 1 then .next s
    else if !mxSpent s k && (clu s k).bucket < 16384 then .next (blockBeat s k (a.core % 4) 4)
    else
      let s := passed s k (blocker (a.core % 4) 4) (actKey a.core 1)
      if heldAny s k then .next s
      else match pairOf m.wfmt m.afmt with
        | none => .refused .reservedEncoding
        | some p => mxEnter s a.core m p (forced || (m.auto && autoStarts s k)) flt

/-- MMUL. -/
def execMmul (a : At) (m : MxArgs) (flt : List (Nat × Int)) (s : State) : Out := mxIssue a m false flt s

/-- MMUL_START. -/
def execMmulStart (a : At) (m : MxArgs) (flt : List (Nat × Int)) (s : State) : Out := mxIssue a m true flt s

end Sys2Proof.Machine
end

