-- ==== Sys2Proof/Machine/Random.lean ====
section
/-! DEFINITION. The generator operations (08 section 4) and the learning operations (09 sections 3 and 4). -/

namespace Sys2Proof.Machine
open Sys2Proof

/-- VRSET: the generator state from PB[p] to PB[p + 5] and VA, in force 6 beats later. -/
def execVrset (a : At) (x : VxArgs) (s : State) : Out :=
  vxDo 0x38 a x s fun s =>
    let c := coreOf s a.core
    let p := x.arg % 64
    let g : Gen := { keyLo := pbGet c p, keyHi := pbGet c (p + 1), stream := pbGet c (p + 2),
                     round := (pbGet c (p + 3)).toNat % 2 ^ 24, idxHi := pbGet c (p + 4), rinc := pbGet c (p + 5),
                     ri := mputRun word0 0 ((upto 64).map fun l => laneGet c x.va l) [] }
    .next (pend s a.core 6 (.gen g))

/-- R256: the lane value of a VRAND. -/
def randVal (g : Gen) (kind cls e : Nat) : Word :=
  match kind with
  | 0 => BitVec.ofNat 32 (genWord g cls e)
  | 1 => fw (.fin false (genWord g cls e / 256) (-24))
  | _ => BitVec.ofNat 32 (genSlice g cls e)

/-- VRAND. -/
def execVrand (a : At) (x : VxArgs) (s : State) : Out :=
  vxDo 0x39 a x s fun s =>
    let c := coreOf s a.core
    .next (vxLanes s a.core x 6 [] fun l =>
      pure (randVal c.gen (x.arg / 256 % 4) (x.arg % 256) (genIndex c.gen l a.j)))

/-- R258: whether lane l is kept. -/
def dropKept (c : Core) (x : VxArgs) (j l : Nat) : Bool := x.arg % 256 ≤ genSlice c.gen 2 (genIndex c.gen l j)

/-- VDROP. -/
def execVdrop (a : At) (x : VxArgs) (s : State) : Out :=
  vxDo 0x3A a x s fun s =>
    let c := coreOf s a.core
    let k := x.arg / 256 % 8
    let s := vxLanes s a.core x 6 [x.va, x.vb] fun l =>
      if dropKept c x a.j l then do return fw (← mul32 (laneF c x.va l) (laneF c x.vb l)) else pure 0
    .next (if k = 0 then s
      else pend s a.core 6 (.mask k (maskSet 0 (govLanes c x.mask) fun l => dropKept c x a.j l)))

/-- VGUMB. -/
def execVgumb (a : At) (x : VxArgs) (s : State) : Out :=
  vxDo 0x3B a x s fun s =>
    let c := coreOf s a.core
    .next (vxLanes s a.core x 6 [x.va, x.vb] fun l => do
      let y ← mul32 (laneF c x.va l) (laneF c x.vb l)
      if bitN x.arg 3 then return fw y
      else
        let g ← gumbel c (x.arg % 8) (genWord c.gen 3 (genIndex c.gen l a.j))
        return fw (← add32 y g))

/-! ### Block quantisation (R268) and the fused update (R271) -/

/-- R268: the quantisation of one half: per lane, the scaled value and the block scale. -/
def optq (invS kk : FVal) (vs : List (Nat × FVal)) : Num (List (Nat × FVal × FVal)) := do
  let a := vs.foldl (fun m v => if fIsFin v.2 && fBelow m (fAbs v.2) then fAbs v.2 else m) fZero
  let sig ← if fIsZero a then pure 0 else cvtUe .rup (← mul32 a kk)
  let sv := ue5m3 sig
  let f ← if fIsZero sv then pure fZero else mul32 invS (← rcp32 sv)
  vs.mapM fun v => do
    let q ← if fIsFin v.2 then mul32 v.2 f else pure v.2
    return (v.1, q, sv)

/-- The lanes of the two halves. -/
def halves (ls : List Nat) : List (List Nat) := [ls.filter (· < 32), ls.filter (32 ≤ ·)]

/-- The two halves quantised, one after the other. -/
def optqAll (invS kk : FVal) (vs : List (Nat × FVal)) : Num (List (Nat × FVal × FVal)) := do
  let lo ← optq invS kk (vs.filter fun v => v.1 < 32)
  let hi ← optq invS kk (vs.filter fun v => 32 ≤ v.1)
  return lo ++ hi

/-- R147: the poison of a lane whose result its whole half produced. -/
def halfPois (c : Core) (srcs ls : List Nat) (l : Nat) : Bool :=
  ls.any fun l' => l' / 32 == l / 32 && srcs.any fun r => laneP c r l'

/-- VOPTQ. -/
def execVoptq (a : At) (x : VxArgs) (s : State) : Out :=
  vxDo 0x3C a x s fun s =>
    let c := coreOf s a.core
    let ls := govLanes c x.mask
    let p := x.arg % 64
    let k := x.arg / 64 % 8
    let (r, fl) := numRun (optqAll (pbF c p) (pbF c (p + 1)) (ls.map fun l => (l, laneF c x.va l)))
    let ws := r.flatMap fun y =>
      [(x.vd * 64 + y.1, fw y.2.1, halfPois c [x.va] ls y.1), ((x.vd + 1) * 64 + y.1, fw y.2.2, halfPois c [x.va] ls y.1)]
    let s := applyFl (pend s a.core 8 (.lanes ws)) a.core fl
    .next (if k = 0 then s
      else pend s a.core 8 (.maskOr k (maskSet 0 ls fun l => !fIsFin (laneF c x.va l))))

/-- R271: the update of one lane: the new weight, the first moment and the second-moment root. -/
def optu (c : Core) (va p l : Nat) : Num (FVal × FVal × FVal) := do
  let k (i : Nat) := pbF c (p + i)
  let v (i : Nat) := laneF c (va + i) l
  let g ← mul32 (v 1) (← mul32 (← mul32 (v 2) (k 0)) (k 1))
  let m ← mul32 (v 3) (← mul32 (v 4) (k 6))
  let u ← mul32 (v 5) (← mul32 (v 6) (k 7))
  let m2 ← fma32 (k 2) m (← mul32 (k 3) g)
  let v2 ← fma32 (k 4) (← mul32 u u) (← mul32 (← mul32 g g) (k 5))
  let u2 ← sqrt32 v2
  let st ← mul32 (← mul32 m2 (← rcp32 (← add32 u2 (k 13)))) (k 12)
  let w2 ← sub32 (← fma32 (fNegate (k 14)) (v 0) (v 0)) st
  return (w2, m2, u2)

/-- VOPTU. -/
def execVoptu (a : At) (x : VxArgs) (s : State) : Out :=
  vxDo 0x3D a x s fun s =>
    let c := coreOf s a.core
    let ls := govLanes c x.mask
    let p := x.arg % 64
    let srcs := (upto 7).map fun i => x.va + i
    let (ws, fl) := numRun do
      let rs ← ls.mapM fun l => do return (l, ← optu c x.va p l)
      let qm ← optqAll (pbF c (p + 8)) (pbF c (p + 9)) (rs.map fun y => (y.1, y.2.2.1))
      let qu ← optqAll (pbF c (p + 10)) (pbF c (p + 11)) (rs.map fun y => (y.1, y.2.2.2))
      let w := rs.map fun y => (x.vd * 64 + y.1, fw y.2.1, srcs.any fun r => laneP c r y.1)
      let grp (o : Nat) (q : List (Nat × FVal × FVal)) := q.flatMap fun y =>
        [((x.vd + o) * 64 + y.1, fw y.2.1, halfPois c srcs ls y.1),
         ((x.vd + o + 1) * 64 + y.1, fw y.2.2, halfPois c srcs ls y.1)]
      return w ++ grp 1 qm ++ grp 3 qu
    .next (applyFl (pend s a.core 8 (.lanes ws)) a.core fl)

end Sys2Proof.Machine
end

