-- ==== Sys2Proof/Machine/Rings.lean ====
section
/-! DEFINITION. Polling of the ring pairs (13 R371 to R374, 14 R385, 15 R434 to R437). -/

namespace Sys2Proof.Machine
open Sys2Proof

/-! ### A multi-chip start at the Headland (R434) -/

/-- The ordered pairs of a placement's chips. -/
def chipPairs (chips : List Nat) : List (Nat × Nat) :=
  chips.flatMap fun a => (chips.filter (· != a)).map fun b => (a, b)

/-- The window of an ordered pair: a write window onto the target's engine SRAM, in 64 KiB units. -/
def pairWin (x : Nat × Nat) : SysWin := ⟨x.1, x.2, false, true, 0x200000, 0x500, .grant⟩

/-- A request of the Headland's own to a Skerry over pair 8. -/
def skerrySend (s : State) (c cmd : Nat) : State :=
  let i := ((s.fw.prod8.find? fun x => x.1 == c).map fun x => x.2).getD 0
  let s := { s with fw := { s.fw with prod8 := s.fw.prod8.filter (fun x => x.1 != c) ++ [(c, i + 1)] } }
  mboxSend s c (leBytes 4 i ++ leBytes 2 cmd ++ List.replicate 58 0)

/-- A chip refuses: every chip already started stops, the windows close, and the request is answered with PEER_REFUSED.
Assumption log: 27 (DEDUCED). -/
def multiFail (s : State) (m : Multi) (chip code : Nat) : State :=
  let s := foldS (fun s c => skerrySend s c 0x21) m.started s
  let chips := (s.fw.prog.map fun p => p.chips).getD []
  let mine := s.lk.wins.filter fun w => (chipPairs chips).any fun x => sameWin w (pairWin x)
  let s := if m.opened then foldS (fun s w => winGo s w .closing 4) mine s else s
  let s := { s with fw := { s.fw with multi := none } }
  respond (progEnd s 0xA5) m.rq 0x7C (List.replicate 8 0 ++ leBytes 1 chip ++ leBytes 1 code)

/-- A start whose Skerries have all answered: the windows are opened, and once all are open the engine is enabled and the request
answered. A window that was refused is gone from the list, and the start fails with the refusing check's code; for one that left the
list in another way (its close, or the departure of its chip) the spec names no code: it is a free one.
Assumption log: 27 (DEDUCED). -/
def multiGo (s : State) : State :=
  match s.fw.multi, s.fw.prog with
  | some m, some p =>
    let prs := chipPairs p.chips
    if m.waitFor ≠ [] then s
    else if !m.opened then
      foldS (fun s x => winGo s (pairWin x) .grant 4) prs { s with fw := { s.fw with multi := some { m with opened := true } } }
    else
      let st (x : Nat × Nat) := (s.lk.wins.find? fun w => sameWin w (pairWin x)).map fun w => w.stage
      match prs.find? fun x => (st x).isNone with
      | some x =>
        match m.refused.find? fun r => sameWin r.1 (pairWin x) with
        | some r => multiFail s m x.2 r.2
        | none =>
          let (c, s) := freeCode s
          multiFail s m x.2 c
      | none =>
        if !(prs.all fun x => st x == some .isOpen) then s
        else
          let s := { s with fw := { s.fw with multi := none } }
          let (code, s) := if p.cg then startEmpty s p else (0, s)
          if code ≠ 0 then respond (progEnd s code) m.rq code [] else respond s m.rq 0 (startBody p)
  | _, _ => s

/-- The answer of a Skerry to its start. -/
def multiAnswer (s : State) (c code : Nat) : State :=
  match s.fw.multi with
  | none => s
  | some m =>
    if !m.waitFor.contains c then s
    else if code ≠ 0 then multiFail s m c code
    else { s with fw := { s.fw with multi := some { m with waitFor := m.waitFor.filter (· != c), started := m.started ++ [c] } } }

/-- R437: what a Skerry sends over pair 8: the answer to its start, a pass it has completed, or the end of a job that it had to
kill, which kills the job on every chip.
Assumption log: 27 (DEDUCED). -/
def fromSkerry (s : State) (c : Nat) (e : List Byte) : State :=
  let id := leAt e 0x12 2
  if leAt e 5 1 = 0 then multiAnswer s c (leAt e 4 1)
  else if leAt e 0x10 2 = 3 then
    { s with fw := { s.fw with reports := s.fw.reports.filter (fun x => !(x.1 == c && x.2.1 == id)) ++ [(c, id, leAt e 0x14 4)] } }
  else if leAt e 0x10 2 = 1 ∧ bitN (leAt e 0x14 4) 4 then jobKill s id (leAt e 4 1)
  else s

/-- The entries that the links have brought to the Headland. -/
def headlandPoll (s : State) : Nat → State
  | 0 => s
  | n + 1 =>
    match s.fw.in8 with
    | [] => s
    | (c, e) :: es => headlandPoll (fromSkerry { s with fw := { s.fw with in8 := es } } c e) n

/-! ### RING_POLL -/

/-- RING_POLL of pair r. -/
def execRingPoll (r : Nat) (s : State) : Out :=
  if 9 ≤ r ∨ !pairServed s r then .next s
  else if r < 8 then .next (pollPair s r)
  else if roleOf s = 1 then .next (multiGo (headlandPoll s s.fw.in8.length))
  else .next (pollLinks s s.fw.in8.length)

end Sys2Proof.Machine
end

