-- ==== Sys2Proof/Machine/Dispatch.lean ====
section
/-! DEFINITION. The dispatcher: one arm per command, each one direct call of its meaning. -/

namespace Sys2Proof.Machine
open Sys2Proof

/-- The effect of a command on everything but the queue. -/
def exec (i : Instr) (s : State) : Host.Outcome State Fault Refusal :=
  match i with
  | .registerWrite g a v => Sys2Proof.Machine.execRegisterWrite g a v s
  | .badAccess read => Sys2Proof.Machine.execBadAccess read s
  | .readLoLatch a => Sys2Proof.Machine.execReadLoLatch a s
  | .enableWrite g a v => Sys2Proof.Machine.execEnableWrite g a v s
  | .consistencyCheckEnd k => Sys2Proof.Machine.execConsistencyCheckEnd k s
  | .disableWrite g a v => Sys2Proof.Machine.execDisableWrite g a v s
  | .fifoWrite a w last bad => Sys2Proof.Machine.execFifoWrite a w last bad s
  | .fifoDataRead a => Sys2Proof.Machine.execFifoDataRead a s
  | .fifoStallEnd a => Sys2Proof.Machine.execFifoStallEnd a s
  | .islandCrossingDeliver src dst => Sys2Proof.Machine.execIslandCrossingDeliver src dst s
  | .blockedBeat c cs acc => Sys2Proof.Machine.execBlockedBeat c cs acc s
  | .barFetch c ups take => Sys2Proof.Machine.execBarFetch c ups take s
  | .barStoreWrite a bs pois => Sys2Proof.Machine.execBarStoreWrite a bs pois s
  | .tieArrival c => Sys2Proof.Machine.execTieArrival c s
  | .tieRelease b => Sys2Proof.Machine.execTieRelease b s
  | .releaseSeen ix => Sys2Proof.Machine.execReleaseSeen ix s
  | .programStall late => Sys2Proof.Machine.execProgramStall late s
  | .programScanStart => Sys2Proof.Machine.execProgramScanStart s
  | .programScanDone recs => Sys2Proof.Machine.execProgramScanDone recs s
  | .engineEnable pl stop => Sys2Proof.Machine.execEngineEnable pl stop s
  | .engineDisable wins => Sys2Proof.Machine.execEngineDisable wins s
  | .engStopSet => Sys2Proof.Machine.execEngStopSet s
  | .engStopClear => Sys2Proof.Machine.execEngStopClear s
  | .nestStep c => Sys2Proof.Machine.execNestStep c s
  | .slotWait a slot par => Sys2Proof.Machine.execSlotWait a slot par s
  | .slotRelease a slot => Sys2Proof.Machine.execSlotRelease a slot s
  | .boundLd a slot => Sys2Proof.Machine.execBoundLd a slot s
  | .guard a lvl mode v => Sys2Proof.Machine.execGuard a lvl mode v s
  | .event a num => Sys2Proof.Machine.execEvent a num s
  | .nest c n => Sys2Proof.Machine.execNest c n s
  | .mmul a m flt => Sys2Proof.Machine.execMmul a m flt s
  | .mmulStart a m flt => Sys2Proof.Machine.execMmulStart a m flt s
  | .vld a x => Sys2Proof.Machine.execVld a x s
  | .vst a x par => Sys2Proof.Machine.execVst a x par s
  | .vldr a x => Sys2Proof.Machine.execVldr a x s
  | .vstr a x par => Sys2Proof.Machine.execVstr a x par s
  | .vgath a x => Sys2Proof.Machine.execVgath a x s
  | .vscat a x par => Sys2Proof.Machine.execVscat a x par s
  | .vbcast a x => Sys2Proof.Machine.execVbcast a x s
  | .vpld a x => Sys2Proof.Machine.execVpld a x s
  | .vlutld a x => Sys2Proof.Machine.execVlutld a x s
  | .drcfg a x => Sys2Proof.Machine.execDrcfg a x s
  | .drain a x flt => Sys2Proof.Machine.execDrain a x flt s
  | .vunpk a x => Sys2Proof.Machine.execVunpk a x s
  | .viota a x => Sys2Proof.Machine.execViota a x s
  | .vadd a x => Sys2Proof.Machine.execVadd a x s
  | .vsub a x => Sys2Proof.Machine.execVsub a x s
  | .vmul a x => Sys2Proof.Machine.execVmul a x s
  | .vfma a x => Sys2Proof.Machine.execVfma a x s
  | .vmin a x => Sys2Proof.Machine.execVmin a x s
  | .vmax a x => Sys2Proof.Machine.execVmax a x s
  | .vabs a x => Sys2Proof.Machine.execVabs a x s
  | .vneg a x => Sys2Proof.Machine.execVneg a x s
  | .vand a x => Sys2Proof.Machine.execVand a x s
  | .vor a x => Sys2Proof.Machine.execVor a x s
  | .vxor a x => Sys2Proof.Machine.execVxor a x s
  | .vshl a x => Sys2Proof.Machine.execVshl a x s
  | .vshr a x => Sys2Proof.Machine.execVshr a x s
  | .vcvt a x => Sys2Proof.Machine.execVcvt a x s
  | .vcmp a x => Sys2Proof.Machine.execVcmp a x s
  | .vsel a x => Sys2Proof.Machine.execVsel a x s
  | .vdot4 a x => Sys2Proof.Machine.execVdot4 a x s
  | .vlut a x => Sys2Proof.Machine.execVlut a x s
  | .vrcp a x => Sys2Proof.Machine.execVrcp a x s
  | .vrsqrt a x => Sys2Proof.Machine.execVrsqrt a x s
  | .vexp2 a x => Sys2Proof.Machine.execVexp2 a x s
  | .vrsum a x => Sys2Proof.Machine.execVrsum a x s
  | .vrmax a x => Sys2Proof.Machine.execVrmax a x s
  | .vrmin a x => Sys2Proof.Machine.execVrmin a x s
  | .vrargmax a x => Sys2Proof.Machine.execVrargmax a x s
  | .vsort a x => Sys2Proof.Machine.execVsort a x s
  | .vmerge a x => Sys2Proof.Machine.execVmerge a x s
  | .vxform a x => Sys2Proof.Machine.execVxform a x s
  | .vproj a x => Sys2Proof.Machine.execVproj a x s
  | .vdepth a x => Sys2Proof.Machine.execVdepth a x s
  | .vvox a x => Sys2Proof.Machine.execVvox a x s
  | .vrset a x => Sys2Proof.Machine.execVrset a x s
  | .vrand a x => Sys2Proof.Machine.execVrand a x s
  | .vdrop a x => Sys2Proof.Machine.execVdrop a x s
  | .vgumb a x => Sys2Proof.Machine.execVgumb a x s
  | .voptq a x => Sys2Proof.Machine.execVoptq a x s
  | .voptu a x => Sys2Proof.Machine.execVoptu a x s
  | .sclaim a slot => Sys2Proof.Machine.execSclaim a slot s
  | .scommit a slot => Sys2Proof.Machine.execScommit a slot s
  | .mcopy a src dst len => Sys2Proof.Machine.execMcopy a src dst len s
  | .mtrans a src dst e pitch cnt => Sys2Proof.Machine.execMtrans a src dst e pitch cnt s
  | .xfer c x => Sys2Proof.Machine.execXfer c x s
  | .xpre c x => Sys2Proof.Machine.execXpre c x s
  | .ring c r => Sys2Proof.Machine.execRing c r s
  | .halo c r => Sys2Proof.Machine.execHalo c r s
  | .qpopRead c q dst len commit => Sys2Proof.Machine.execQpopRead c q dst len commit s
  | .qpopMark c q => Sys2Proof.Machine.execQpopMark c q s
  | .qpopRewind c q => Sys2Proof.Machine.execQpopRewind c q s
  | .qpopRelease c q => Sys2Proof.Machine.execQpopRelease c q s
  | .fence c => Sys2Proof.Machine.execFence c s
  | .transferOperationIssue k x => Sys2Proof.Machine.execTransferOperationIssue k x s
  | .transferWriteArrive k x ix par => Sys2Proof.Machine.execTransferWriteArrive k x ix par s
  | .transferReadReturn k x ix => Sys2Proof.Machine.execTransferReadReturn k x ix s
  | .transferCommit k x => Sys2Proof.Machine.execTransferCommit k x s
  | .holdStoreLand m slot => Sys2Proof.Machine.execHoldStoreLand m slot s
  | .spmScrubRead c ups => Sys2Proof.Machine.execSpmScrubRead c ups s
  | .eccWriteBack w => Sys2Proof.Machine.execEccWriteBack w s
  | .tagCmd g k v par => Sys2Proof.Machine.execTagCmd g k v par s
  | .dmaDescriptor n => Sys2Proof.Machine.execDmaDescriptor n s
  | .dmaWriteback n => Sys2Proof.Machine.execDmaWriteback n s
  | .stagedRegisterWrite g a v => Sys2Proof.Machine.execStagedRegisterWrite g a v s
  | .csiPacketReceive p k => Sys2Proof.Machine.execCsiPacketReceive p k s
  | .portFlush p => Sys2Proof.Machine.execPortFlush p s
  | .flushBoundary p => Sys2Proof.Machine.execFlushBoundary p s
  | .portDisable p => Sys2Proof.Machine.execPortDisable p s
  | .frameStart p => Sys2Proof.Machine.execFrameStart p s
  | .frameEnd p chk => Sys2Proof.Machine.execFrameEnd p chk s
  | .lineStart p => Sys2Proof.Machine.execLineStart p s
  | .linePacket p => Sys2Proof.Machine.execLinePacket p s
  | .embeddedDataPacket p => Sys2Proof.Machine.execEmbeddedDataPacket p s
  | .pipeLine q bad => Sys2Proof.Machine.execPipeLine q bad s
  | .frameDone m => Sys2Proof.Machine.execFrameDone m s
  | .setTimeout g => Sys2Proof.Machine.execSetTimeout g s
  | .bufferRelease m v => Sys2Proof.Machine.execBufferRelease m v s
  | .ispArm m => Sys2Proof.Machine.execIspArm m s
  | .decodeUnit n o => Sys2Proof.Machine.execDecodeUnit n o s
  | .budgetExceeded n skip cycles => Sys2Proof.Machine.execBudgetExceeded n skip cycles s
  | .encodeUnit n w h bytes cycles => Sys2Proof.Machine.execEncodeUnit n w h bytes cycles s
  | .shapeSample n ix => Sys2Proof.Machine.execShapeSample n ix s
  | .sessionDisable n => Sys2Proof.Machine.execSessionDisable n s
  | .queueFlush q => Sys2Proof.Machine.execQueueFlush q s
  | .queueCopyComplete q => Sys2Proof.Machine.execQueueCopyComplete q s
  | .fabricAccess g job write ga n bs ps => Sys2Proof.Machine.execFabricAccess g job write ga n bs ps s
  | .dramRead l ups => Sys2Proof.Machine.execDramRead l ups s
  | .dramWrite a bs ps agent job fmt => Sys2Proof.Machine.execDramWrite a bs ps agent job fmt s
  | .fallbackTraining => Sys2Proof.Machine.execFallbackTraining s
  | .fallbackTrainingDone fail => Sys2Proof.Machine.execFallbackTrainingDone fail s
  | .fullTraining => Sys2Proof.Machine.execFullTraining s
  | .fullTrainingDone fail => Sys2Proof.Machine.execFullTrainingDone fail s
  | .memDisable => Sys2Proof.Machine.execMemDisable s
  | .dramRefresh sub bank => Sys2Proof.Machine.execDramRefresh sub bank s
  | .dqsOscillatorRun sub => Sys2Proof.Machine.execDqsOscillatorRun sub s
  | .ddrRateSwitch rate => Sys2Proof.Machine.execDdrRateSwitch rate s
  | .patrolScrub sub upsA upsB => Sys2Proof.Machine.execPatrolScrub sub upsA upsB s
  | .pscanStart => Sys2Proof.Machine.execPscanStart s
  | .pscanDone => Sys2Proof.Machine.execPscanDone s
  | .fwEnforce => Sys2Proof.Machine.execFwEnforce s
  | .regionLock r => Sys2Proof.Machine.execRegionLock r s
  | .windowClose w => Sys2Proof.Machine.execWindowClose w s
  | .lpddrRead c row bank col burst early => Sys2Proof.Machine.execLpddrRead c row bank col burst early s
  | .lpddrWrite c row bank col bs mask early => Sys2Proof.Machine.execLpddrWrite c row bank col bs mask early s
  | .lpddrRefresh c early => Sys2Proof.Machine.execLpddrRefresh c early s
  | .lpddrModeRegisterWrite c ma v early => Sys2Proof.Machine.execLpddrModeRegisterWrite c ma v early s
  | .lpddrModeRegisterRead c ma early => Sys2Proof.Machine.execLpddrModeRegisterRead c ma early s
  | .lpddrPowerDown c cmd => Sys2Proof.Machine.execLpddrPowerDown c cmd s
  | .hostResetN asserted => Sys2Proof.Machine.execHostResetN asserted s
  | .hostCkSwitch c on => Sys2Proof.Machine.execHostCkSwitch c on s
  | .attnSet v => Sys2Proof.Machine.execAttnSet v s
  | .attnPinUpdate => Sys2Proof.Machine.execAttnPinUpdate s
  | .ringPoll r => Sys2Proof.Machine.execRingPoll r s
  | .resultPublish k => Sys2Proof.Machine.execResultPublish k s
  | .resultRelease k => Sys2Proof.Machine.execResultRelease k s
  | .negotiate r => Sys2Proof.Machine.execNegotiate r s
  | .getInfo r => Sys2Proof.Machine.execGetInfo r s
  | .setLog r => Sys2Proof.Machine.execSetLog r s
  | .objOpen r base => Sys2Proof.Machine.execObjOpen r base s
  | .objWrite r => Sys2Proof.Machine.execObjWrite r s
  | .objClose r => Sys2Proof.Machine.execObjClose r s
  | .objFree r => Sys2Proof.Machine.execObjFree r s
  | .fwActivate r => Sys2Proof.Machine.execFwActivate r s
  | .programStart r srcs => Sys2Proof.Machine.execProgramStart r srcs s
  | .programStop r => Sys2Proof.Machine.execProgramStop r s
  | .jobSubmit r => Sys2Proof.Machine.execJobSubmit r s
  | .jobAbort r => Sys2Proof.Machine.execJobAbort r s
  | .jobQuery r => Sys2Proof.Machine.execJobQuery r s
  | .jobBind r => Sys2Proof.Machine.execJobBind r s
  | .cgOpen r => Sys2Proof.Machine.execCgOpen r s
  | .cgStage r => Sys2Proof.Machine.execCgStage r s
  | .cgCommit r => Sys2Proof.Machine.execCgCommit r s
  | .cgCancel r => Sys2Proof.Machine.execCgCancel r s
  | .debugSnapshot r => Sys2Proof.Machine.execDebugSnapshot r s
  | .flashRead r => Sys2Proof.Machine.execFlashRead r s
  | .rollbackAdvance r => Sys2Proof.Machine.execRollbackAdvance r s
  | .keyRevoke r => Sys2Proof.Machine.execKeyRevoke r s
  | .attest r => Sys2Proof.Machine.execAttest r s
  | .debugGrant r => Sys2Proof.Machine.execDebugGrant r s
  | .passBoundary => Sys2Proof.Machine.execPassBoundary s
  | .jobSwitchIdle => Sys2Proof.Machine.execJobSwitchIdle s
  | .deadlineTimer id => Sys2Proof.Machine.execDeadlineTimer id s
  | .jobKill id code => Sys2Proof.Machine.execJobKill id code s
  | .cgPrepare g => Sys2Proof.Machine.execCgPrepare g s
  | .cgIslandAnswer g ix => Sys2Proof.Machine.execCgIslandAnswer g ix s
  | .cgPrepareTimeout g => Sys2Proof.Machine.execCgPrepareTimeout g s
  | .cgApply g => Sys2Proof.Machine.execCgApply g s
  | .cgPointTimeout g => Sys2Proof.Machine.execCgPointTimeout g s
  | .cgCancelWrite g => Sys2Proof.Machine.execCgCancelWrite g s
  | .flitReceive l f => Sys2Proof.Machine.execFlitReceive l f s
  | .linkReplay l => Sys2Proof.Machine.execLinkReplay l s
  | .linkDown l code => Sys2Proof.Machine.execLinkDown l code s
  | .laneRetire l lane => Sys2Proof.Machine.execLaneRetire l lane s
  | .linkTrained l lanes peer => Sys2Proof.Machine.execLinkTrained l lanes peer s
  | .probe via c => Sys2Proof.Machine.execProbe via c s
  | .ident via ver base mib => Sys2Proof.Machine.execIdent via ver base mib s
  | .assign ix => Sys2Proof.Machine.execAssign ix s
  | .routes c tbl => Sys2Proof.Machine.execRoutes c tbl s
  | .winOpen src dst rd' wr' base size => Sys2Proof.Machine.execWinOpen src dst rd' wr' base size s
  | .winClose src dst base size => Sys2Proof.Machine.execWinClose src dst base size s
  | .mgmtAck => Sys2Proof.Machine.execMgmtAck s
  | .leave => Sys2Proof.Machine.execLeave s
  | .mgmtResend ix => Sys2Proof.Machine.execMgmtResend ix s
  | .chipDepart c => Sys2Proof.Machine.execChipDepart c s
  | .headlandElection cands => Sys2Proof.Machine.execHeadlandElection cands s
  | .loneTimeout => Sys2Proof.Machine.execLoneTimeout s
  | .opTimeout tag => Sys2Proof.Machine.execOpTimeout tag s
  | .keySlotLoad l k => Sys2Proof.Machine.execKeySlotLoad l k s
  | .canaryTile n c col second left => Sys2Proof.Machine.execCanaryTile n c col second left s
  | .dualRunCompare id => Sys2Proof.Machine.execDualRunCompare id s
  | .eventClassify => Sys2Proof.Machine.execEventClassify s
  | .journalWrite => Sys2Proof.Machine.execJournalWrite s
  | .journalSeal => Sys2Proof.Machine.execJournalSeal s
  | .rasRetire kind mask => Sys2Proof.Machine.execRasRetire kind mask s
  | .variantSwitch srcs => Sys2Proof.Machine.execVariantSwitch srcs s
  | .islandRejoin ix lost => Sys2Proof.Machine.execIslandRejoin ix lost s
  | .quarantineRelease mask => Sys2Proof.Machine.execQuarantineRelease mask s
  | .killScrub m => Sys2Proof.Machine.execKillScrub m s
  | .killScrubDone m => Sys2Proof.Machine.execKillScrubDone m s
  | .snapHeldClear => Sys2Proof.Machine.execSnapHeldClear s
  | .canaryEnable interval => Sys2Proof.Machine.execCanaryEnable interval s
  | .cmpStart => Sys2Proof.Machine.execCmpStart s
  | .cmpDone far => Sys2Proof.Machine.execCmpDone far s
  | .lockstepMismatch => Sys2Proof.Machine.execLockstepMismatch s
  | .modeWrite m => Sys2Proof.Machine.execModeWrite m s
  | .telemetrySample rails => Sys2Proof.Machine.execTelemetrySample rails s
  | .telemetryLost r => Sys2Proof.Machine.execTelemetryLost r s
  | .cappingLoopUpdate obs => Sys2Proof.Machine.execCappingLoopUpdate obs s
  | .droopTrip k => Sys2Proof.Machine.execDroopTrip k s
  | .droopRiseStep k => Sys2Proof.Machine.execDroopRiseStep k s
  | .temperatureSample temps => Sys2Proof.Machine.execTemperatureSample temps s
  | .thermalTrip => Sys2Proof.Machine.execThermalTrip s
  | .emergencyLatch ix => Sys2Proof.Machine.execEmergencyLatch ix s
  | .emergencyClearable ix => Sys2Proof.Machine.execEmergencyClearable ix s
  | .emergencyClear m => Sys2Proof.Machine.execEmergencyClear m s
  | .energyReconcile => Sys2Proof.Machine.execEnergyReconcile s
  | .romBoot => Sys2Proof.Machine.execRomBoot s
  | .bootReq tftp => Sys2Proof.Machine.execBootReq tftp s
  | .bootSourceTimeout => Sys2Proof.Machine.execBootSourceTimeout s
  | .recoveryActivate r => Sys2Proof.Machine.execRecoveryActivate r s
  | .restartActivate r => Sys2Proof.Machine.execRestartActivate r s
  | .serviceCoreStart => Sys2Proof.Machine.execServiceCoreStart s
  | .svcIrqSet => Sys2Proof.Machine.execSvcIrqSet s
  | .timStep hi => Sys2Proof.Machine.execTimStep hi s
  | .tsyncReq => Sys2Proof.Machine.execTsyncReq s
  | .tsyncRsp => Sys2Proof.Machine.execTsyncRsp s
  | .ethTxDescriptor p => Sys2Proof.Machine.execEthTxDescriptor p s
  | .ethRxFrame p f badFcs ago => Sys2Proof.Machine.execEthRxFrame p f badFcs ago s
  | .triggerInputEdge ix rising ago => Sys2Proof.Machine.execTriggerInputEdge ix rising ago s
  | .triggerPulse o => Sys2Proof.Machine.execTriggerPulse o s
  | .triggerOutputEnable o on => Sys2Proof.Machine.execTriggerOutputEnable o on s
  | .sioStart ch err => Sys2Proof.Machine.execSioStart ch err s
  | .sioWrite ch err => Sys2Proof.Machine.execSioWrite ch err s
  | .sioRead ch b err => Sys2Proof.Machine.execSioRead ch b err s
  | .sioStop ch => Sys2Proof.Machine.execSioStop ch s
  | .i2cTimeout ch => Sys2Proof.Machine.execI2cTimeout ch s
  | .powerOnReset aon => Sys2Proof.Machine.execPowerOnReset aon s
  | .chipReset pin => Sys2Proof.Machine.execChipReset pin s
  | .clkLost => Sys2Proof.Machine.execClkLost s
  | .pllLockLoss ix => Sys2Proof.Machine.execPllLockLoss ix s
  | .islandReset mask => Sys2Proof.Machine.execIslandReset mask s
  | .islandResetRelease ix => Sys2Proof.Machine.execIslandResetRelease ix s
  | .flitTransmit l => Sys2Proof.Machine.execFlitTransmit l s
  | .linkTrainFailed l => Sys2Proof.Machine.execLinkTrainFailed l s
  | .linkRetrainDone l => Sys2Proof.Machine.execLinkRetrainDone l s
  | .assignRetry ix => Sys2Proof.Machine.execAssignRetry ix s
  | .ethLinkChange p up => Sys2Proof.Machine.execEthLinkChange p up s
  | .lpddrTrainingCommand c kind bs early => Sys2Proof.Machine.execLpddrTrainingCommand c kind bs early s
  | .pllRelock ix n => Sys2Proof.Machine.execPllRelock ix n s
  | .refclkReturn => Sys2Proof.Machine.execRefclkReturn s
  | .resetDeassert straps testen => Sys2Proof.Machine.execResetDeassert straps testen s
  | .shallowsStart srcs rsrc rlen => Sys2Proof.Machine.execShallowsStart srcs rsrc rlen s
  | .memCePoll => Sys2Proof.Machine.execMemCePoll s

end Sys2Proof.Machine
end

