-- ==== Sys2Proof/Safety.lean ====
section
/-! DEFINITION. What counts as safe: the invariant of the machine, and what every command owes to the queue. -/

namespace Sys2Proof.Machine
open Sys2Proof

/-- The units that the spec gives the chip (R1): none is added or lost. -/
structure Units (s : State) : Prop where
  cores : s.cores.length = 32
  clus : s.clus.length = 8
  dma : s.dma.length = 8
  links : s.lk.l.length = 6
  ports : s.csi.ports.length = 12
  strs : s.csi.strs.length = 48
  fgs : s.csi.fgs.length = 17
  ses : s.vid.ses.length = 32
  qs : s.vid.qs.length = 64
  ser : s.io.ser.length = 10
  outs : s.io.outs.length = 24

/-- The invariant of the machine: memories and register file in their canonical form, every unit in its place, and the system
time within its 64 bits and its 2^-32 ns fraction (R513). -/
structure Inv (s : State) : Prop where
  mem : Memory.wf s.mem = true
  regs : mwf regReset s.rf.val = true
  units : Units s
  ns : s.ns < 2 ^ 64
  frac : s.frac < 2 ^ 32

/-- A property that every step keeps. -/
def Kept (P : State → Prop) : Prop := ∀ s t : State, P s → step s = .next t → P t

/-- A command completes: it answers a next state, of which a property holds. -/
def Gives (c : Instr) (s : State) (P : State → Prop) : Prop := ∃ t, exec c s = .next t ∧ P t

/-- Nothing outside the register file changes, and in it only the named registers. -/
def OnlyRegs (s t : State) (as : List Nat) : Prop := t = { s with rf := t.rf } ∧ ∀ a, a ∉ as → rd t a = rd s a

/-- R19, R409, R530: whether a write of register a reaches it: its island is not in reset, no check of its block is in progress, and
no prepared or armed commit group keeps it. -/
def Reaches (s : State) (a : Nat) : Prop :=
  rdB s rTopIslRst (blkIsl (regBlk a)) = false ∧ chkBusy s (regBlk a) = false ∧ cgDrops s a = false

/-- R368, R412: the firmware log takes a record without a refusal of its own: no ring is set up, or firmware may write all of it. -/
def LogSafe (s : State) : Prop :=
  ramNat s (hpAddr 0x804) 4 < 64 ∨ ∀ w ∈ [whoCp, whoRoot], ∀ b : Nat, (b = 0x808 ∨ (ramNat s (hpAddr 0x800) 4 ≤ b ∧
    b < ramNat s (hpAddr 0x800) 4 + ramNat s (hpAddr 0x804) 4)) → accessCode s w true (hpAddr b) = 0

/-- R350, R368: the firewall lets firmware write n bytes of host-port SRAM from offset o on. -/
def PageSafe (s : State) (o n : Nat) : Prop :=
  ∀ w ∈ [whoCp, whoRoot], ∀ a, o ≤ a → a < o + n → accessCode s w true (hpAddr a) = 0

/-- R83, R148: field f of core n (2 VX, 3 MV) has acted and put its results `ws` on their way, due at the end of beat t + lat - 1, and
changed nothing else of the machine but the words of its core's memory in use (R162), flags and counters of the core, activity
counters of its cluster and the free-value count. -/
def VecDone (u t : State) (n f lat : Nat) (ws : List PendW) : Prop :=
  coreOf t n = { coreOf u n with
    pend := (coreOf u n).pend ++ ws.map fun w => ⟨(clu u (n / 4)).beat + lat - 1, (clu u (n / 4)).beat, w⟩
    used := (coreOf t n).used } ∧
  (∀ m, m ≠ n → coreOf t m = coreOf u m) ∧
  t = { acted u (n / 4) (actKey n f) with cores := t.cores, rf := { u.rf with val := t.rf.val }, free := t.free } ∧
  ∀ a, a ∉ [rNcArithStatus n, rNcAccSatCnt n, rNcCvtSatCnt n, rNcVecStatus n, rNcVecOobCnt n, rNcWinStatus n, rNcPadTapCnt n,
    rNcWinMissCnt n, rPwrAct (n / 4) 3, rPwrAct (n / 4) 4] → rd t a = rd u a

/-- R372, R374: `e` is the oldest request of pair r, of command `cmd`, and every earlier one is answered; `u` is the machine
that has taken it to carry it out. -/
def Asked (s : State) (r cmd : Nat) (e : List Byte) (u : State) : Prop :=
  (s.fw.taken.find? fun x => x.1 == r) = some (r, e) ∧ reqCmd e = cmd ∧ pairWaits s r = false ∧
  u = { s with fw := { s.fw with taken := s.fw.taken.erase (r, e) } }

/-- R429: `m` (its link, its sender, its data) is the oldest received management message of a kind; `u` is the machine that has
taken it from the inbox. -/
def Heard (s : State) (kind : Nat) (m : Nat × Nat × List Byte) (u : State) : Prop :=
  (s.lk.inbox.find? fun x => leAt x.2.2 0 1 == kind) = some m ∧
  u = { s with lk := { s.lk with inbox := s.lk.inbox.erase m } }

end Sys2Proof.Machine
end

