-- ==== Sys2Proof/Certificates/Slice0/Obligations.lean ====
section
/-! DEFINITION. The statements about the machine that are to be proved. -/

open Sys2Proof Sys2Proof.Machine

/-- For every command c, every rest of the queue and every state, a step of the state with c at the front of its queue
is exec of c on the state with the rest of the queue. That the waiting commands form a queue, first in, first out, is
the model's choice (assumption 1). -/
def Obligations.StepRunsFront : Prop :=
  ∀ (c : Instr) (cs : List Instr) (s : State), step { s with pending := c :: cs } = exec c { s with pending := cs }

/-- For every state, if a step answers a next state, the queue of that state is the old queue without its first command
(empty if it was empty): no command adds, removes or reorders a command that waits. The queue is the model's choice
(assumption 1). -/
def Obligations.StepTakesOneCommand : Prop :=
  ∀ s t : State, step s = .next t → t.pending = s.pending.tail

/-- For every state in which the memories and the register file are in their canonical form, every unit of the chip is
in its place (32 cores, 8 clusters, 8 DMA channels, 6 links, 12 ports, 48 streams, 17 fusion groups, 32 sessions, 64
sample queues, 10 serial controllers, 24 trigger outputs), the system time is below 2^64 ns and its fraction below 2^32,
a step that answers a next state answers one in which all of this holds again. -/
def Obligations.StepKeepsInvariant : Prop :=
  Kept Inv

/-- The invariant of the machine holds in the state right after reset. The model's choices in it, by entry of the
assumption log: 1 (the queue); 4 (implied state starts empty). -/
def Obligations.ResetHasInvariant : Prop :=
  Machine.Inv State.reset

/-- For every state, if a step answers a next state, the count of the free values drawn so far does not fall, so two
draws of different steps never name the same free value. The count is the model's own field (assumption 2). -/
def Obligations.FreeValuesAreFresh : Prop :=
  ∀ s t : State, step s = .next t → s.free ≤ t.free

/-- After a chip reset every byte of every on-die SRAM reads zero and no word is poisoned, every slot is EMPTY with SRC
LOCAL and no owner, every register reads its reset value, every core and cluster is in its reset state, every FIFO is
empty, no DRAM line has defined contents, and the queue is empty. The model's choices in it, by entry of the assumption
log: 1 (the queue); 4 (implied state starts empty). -/
def Obligations.ResetValues : Prop :=
  (∀ a, mget byte0 State.reset.mem.sram a = 0) ∧ (∀ w, poisGet State.reset w = false) ∧
  (∀ k, slotGet State.reset k = ⟨.empty, .loc, .none⟩) ∧ (∀ a, rd State.reset a = regReset a) ∧
  (∀ n, coreOf State.reset n = {}) ∧ (∀ k, clu State.reset k = {}) ∧ (∀ p : Port, (portGet State.reset p).ents = []) ∧
  (∀ l, mget dram0 State.reset.mem.dram l = none) ∧ State.reset.pending = []

/-- With no command waiting, a step answers the same state in which one control-island cycle has passed: while the chip
is out of reset and no thermal trip stands, the system time and its fraction advance by the increment of R513, modulo
2^64 ns, and the powered time advances with it; otherwise nothing changes. That the empty queue lets a cycle pass is the
model's choice (assumption 6). The model's choices in it, by entry of the assumption log: 56 (the powered time). -/
def Obligations.IdleCycleAdvancesTime : Prop :=
  ∀ s : State, s.pending = [] →
    (s.io.released = true ∧ s.pwr.tripped = false → step s = .next { s with
        ns := (s.ns + (s.frac + timeInc s) / 2 ^ 32) % 2 ^ 64, frac := (s.frac + timeInc s) % 2 ^ 32,
        root := { s.root with powered := s.root.powered + (s.frac + timeInc s) / 2 ^ 32 } }) ∧
    (s.io.released = false ∨ s.pwr.tripped = true → step s = .next s)

/-- In a state with the invariant, a write by any agent to a register that no rule of its own covers, whose island is
not in reset, that is not dropped for its agent or by an owning chapter and not held for a check, completes. Bit by bit
the register then holds: 0 where a W1C flag was written 1; 1 where a W1S bit was written 1; the old bit in a static
field while the enable that guards it reads 1 (or in a field that its chapter holds for a time); the written bit in
every other writable field; the old bit elsewhere. If a held field would have changed, CFG_WR_DROP of the block is 1,
else the block's status register is unchanged. Every other register and everything beside the register file is
unchanged. -/
def Obligations.RegisterWriteLandsFieldByField : Prop :=
  ∀ (s : State) (g a : Nat) (v : Word) (r : RegRow), Machine.Inv s → regRow a = some r → rdB s rTopIslRst (blkIsl (regBlk a)) = false →
    agentDropped s g a = false → chkBusy s (regBlk a) = false → wrDropped s a r = false → regOwn s a v = none → enOf a = none →
    a ≠ blkBase (regBlk a) + 8 →
    let m (n : Nat) : Word := BitVec.ofNat 32 n
    let held (i : Nat) : Bool := ((m r.stat).getLsbD i && staticHeld s a r) || ((m r.live).getLsbD i && liveHeld s a)
    let free (i : Nat) : Bool := (m r.staged).getLsbD i || (m r.wo).getLsbD i || ((m r.live).getLsbD i && !liveHeld s a) ||
      ((m r.stat).getLsbD i && !staticHeld s a r)
    ∃ t, exec (.registerWrite g a v) s = .next t ∧
      (∀ i, i < 32 → (rd t a).getLsbD i =
        ((v.getLsbD i && (m r.w1s).getLsbD i) || (!(v.getLsbD i && (m r.w1c).getLsbD i) &&
          (if free i then v.getLsbD i else (rd s a).getLsbD i)))) ∧
      ((∃ i, held i = true ∧ (rd s a).getLsbD i ≠ v.getLsbD i) →
        rd t (blkBase (regBlk a) + 8) = setBit (rd s (blkBase (regBlk a) + 8)) 31 true) ∧
      ((∀ i, held i = true → (rd s a).getLsbD i = v.getLsbD i) →
        rd t (blkBase (regBlk a) + 8) = rd s (blkBase (regBlk a) + 8)) ∧
      (∀ b, b ≠ a → b ≠ blkBase (regBlk a) + 8 → rd t b = rd s b) ∧ t = { s with rf := t.rf }

/-- In a state with the invariant, BAD_ACCESS completes: TOP_BADACC_CNT advances by 1 modulo 2^32, no other register and
nothing outside the register file changes, and a read delivers 0. A REGISTER_WRITE to an address that holds no register
(an unassigned block, an undefined offset, a misaligned address) by any agent is the same bad access, and a read of such
an address delivers 0 and counts; an access of a register over the fabric that is not 4 bytes wide or not aligned is one
too. -/
def Obligations.BadAccessReadsZero : Prop :=
  (∀ s, Machine.Inv s → Gives (.badAccess true) s fun t =>
    rd t rTopBadaccCnt = rd s rTopBadaccCnt + 1 ∧ t.rf.rdata = 0 ∧ OnlyRegs s t [rTopBadaccCnt]) ∧
  (∀ s, Machine.Inv s → Gives (.badAccess false) s fun t =>
    rd t rTopBadaccCnt = rd s rTopBadaccCnt + 1 ∧ OnlyRegs s t [rTopBadaccCnt]) ∧
  (∀ s g a v, Machine.Inv s → regRow a = none → Gives (.registerWrite g a v) s fun t =>
    rd t rTopBadaccCnt = rd s rTopBadaccCnt + 1 ∧ OnlyRegs s t [rTopBadaccCnt]) ∧
  (∀ s a, Machine.Inv s → regRow a = none → portData a = none → Gives (.readLoLatch a) s fun t =>
    rd t rTopBadaccCnt = rd s rTopBadaccCnt + 1 ∧ t.rf.rdata = 0 ∧ OnlyRegs s t [rTopBadaccCnt]) ∧
  (∀ s g job ga n bs ps a, Machine.Inv s → localOf s ga = some a → regionOf a = some .regs → n ≠ 4 ∨ a % 4 ≠ 0 →
    Gives (.fabricAccess g job true ga n bs ps) s fun t =>
      rd t rTopBadaccCnt = rd s rTopBadaccCnt + 1 ∧ OnlyRegs s t [rTopBadaccCnt])

/-- For every _LO register and every state, READ_LO_LATCH completes: it delivers the live value of the register, and
nothing changes but the value delivered and the latched values. In every later state that still holds those latched
values, a read of the _HI register 4 bytes above delivers the _HI value of the moment of the _LO read. A _HI read that
finds nothing latched delivers the live value. -/
def Obligations.LoReadLatchesHi : Prop :=
  ∀ (s : State) (a : Nat), isLo a = true → regRow a ≠ none → portData a = none → regRow (a + 4) ≠ none → portData (a + 4) = none →
    isLo (a + 4) = false →
    (Gives (.readLoLatch a) s fun t =>
      t.rf.rdata = regView s a ∧ t.rf.val = s.rf.val ∧ OnlyRegs s t [] ∧
      ∀ u : State, u.rf.hi = t.rf.hi → Gives (.readLoLatch (a + 4)) u fun v =>
        v.rf.rdata = regView s (a + 4) ∧ v.rf.val = u.rf.val ∧ OnlyRegs u v []) ∧
    ((∀ x ∈ s.rf.hi, x.1 ≠ a + 4) → Gives (.readLoLatch (a + 4)) s fun t =>
      t.rf.rdata = regView s (a + 4) ∧ t = { s with rf := { s.rf with rdata := regView s (a + 4) } })

/-- In a state with the invariant and for an enable bit b of a register a that the write reaches: ENABLE_WRITE, with the
bit at 0, starts a check of the block (CHK_BUSY), and, for the enables whose register has no other bit with a rule of
its own, the bit still reads 0. CONSISTENCY_CHECK_END of a check c, with no write held, takes c out of the checks in
progress; if the check finds a code, REASON of the block is that code (modulo 256), the checks of other blocks stand,
and no other register changes, the enable included; if it finds none, REASON is 0 and, for a firewall region, a window,
a camera port, a fusion group, an enable without a rule of its own, or a block whose enabling only sets the bit, the bit
reads 1. DISABLE_WRITE with the bit at 1 leaves it reading 0 and starts no check. The model's choices in it, by entry of
the assumption log: 14 (which rows check within their step); 15 (the order of the codes of a check). -/
def Obligations.EnableCheckDecidesEnable : Prop :=
  (∀ s g a v e b r, Machine.Inv s → enOf a = some (e, b) → regRow a = some r → rdB s rTopIslRst (blkIsl (regBlk a)) = false →
    agentDropped s g a = false → chkBusy s (regBlk a) = false → wrDropped s a r = false → regOwn s a (setBit v b true) = none →
    a ≠ blkBase (regBlk a) + 8 → rdB s a b = false →
    Gives (.enableWrite g a v) s fun t => chkBusy t (regBlk a) = true ∧ (⟨regBlk a, a, b⟩ : Chk) ∈ t.rf.chk ∧
      (enKeep e b = 2 ^ b → (∀ l, e ≠ .link l) → rdB t a b = false)) ∧
  (∀ s k c e b, Machine.Inv s → (s.rf.chk.find? fun c => c.blk == k) = some c → enOf c.addr = some (e, b) → s.rf.held = [] →
    c.addr ≠ blkBase k + 8 → c.bitIx < 32 →
    (enCheck s k e ≠ 0 → Gives (.consistencyCheckEnd k) s fun t =>
      rdF t (blkBase k + 8) 15 8 = enCheck s k e % 256 ∧ c ∉ t.rf.chk ∧ (∀ c' ∈ s.rf.chk, c' ≠ c → c' ∈ t.rf.chk) ∧
      OnlyRegs s t [blkBase k + 8]) ∧
    (enCheck s k e = 0 → (e = .plain ∨ (∃ n, e = .region n ∨ e = .window n ∨ e = .port n ∨ e = .group n) ∨
        ∃ n, e = .blk n ∧ blkOf n ≠ some .eng ∧ blkOf n ≠ some .mem ∧ blkOf n ≠ some .hpt ∧ blkOf n ≠ some .trg) →
      Gives (.consistencyCheckEnd k) s fun t =>
        rdF t (blkBase k + 8) 15 8 = 0 ∧ rdB t c.addr c.bitIx = true ∧ c ∉ t.rf.chk ∧ OnlyRegs s t [blkBase k + 8, c.addr])) ∧
  (∀ s g a v e b r, Machine.Inv s → enOf a = some (e, b) → regRow a = some r → rdB s rTopIslRst (blkIsl (regBlk a)) = false →
    agentDropped s g a = false → chkBusy s (regBlk a) = false → wrDropped s a r = false → regOwn s a (setBit v b false) = none →
    rdB s a b = true → s.rf.stall = [] → s.rf.fabStall = [] →
    (e = .plain ∨ (∃ n, e = .region n ∨ e = .window n ∨ e = .stream n ∨ e = .group n) ∨
        ∃ n, e = .blk n ∧ blkOf n ≠ some .eng ∧ blkOf n ≠ some .mem) →
    Gives (.disableWrite g a v) s fun t => rdB t a b = false ∧ t.rf.chk = s.rf.chk)

/-- In a state with the invariant. FIFO_WRITE completes at every address. For the FIFO of a data port, or of a serial
controller's command register: the last word of a good packet commits the whole entry behind the older ones; a word that
is not the last commits nothing; a packet whose check fails is rewound; while the FIFO is full a new packet is refused,
sets OVR, advances the overrun counter, and its later words are dropped; nothing else changes. At another address
nothing changes. FIFO_DATA_READ completes at every address: it delivers the next word of the oldest entry, which leaves
with its last word; on an empty FIFO the reader stalls and nothing else changes. FIFO_STALL_END completes at every
address: it delivers the entry committed since, to the reader of FIFO_DATA_READ before one over the fabric, or, where
the block is disabled, delivers 0 and advances the empty-read counter; either way the stall is over. With no entry in an
enabled block, or no stalled reader, it changes nothing. The model's choices in it, by entry of the assumption log: 21
(counters without a register, and the order of stalled readers). -/
def Obligations.FifosKeepTheirEntries : Prop :=
  (∀ s a w p, portData a = some p ∨ (portData a = none ∧ ∃ ch, serIx a 4 = some ch ∧ p = .cmd ch) →
    let f := portGet s p
    (f.drop = false → f.ents.length < portCap p →
      exec (.fifoWrite a w true false) s = .next (portPut s p { f with ents := f.ents ++ [f.part ++ [w]], part := [] }) ∧
      exec (.fifoWrite a w true true) s = .next (portPut s p { f with part := [] }) ∧
      ∀ bad, exec (.fifoWrite a w false bad) s = .next (portPut s p { f with part := f.part ++ [w] })) ∧
    (f.drop = false → f.part = [] → portCap p ≤ f.ents.length → ∀ last bad,
      exec (.fifoWrite a w last bad) s =
        .next (portOver (portPut s p { f with ovr := true, lost := (f.lost + 1) % 2 ^ 32, drop := !last }) p)) ∧
    (f.drop = true → ∀ bad, exec (.fifoWrite a w true bad) s = .next (portPut s p { f with drop := false }) ∧
      exec (.fifoWrite a w false bad) s = .next (portPut s p { f with drop := true }))) ∧
  (∀ s a w last bad, portData a = none → serIx a 4 = none → exec (.fifoWrite a w last bad) s = .next s) ∧
  (∀ s a p, Machine.Inv s → portData a = some p →
    let f := portGet s p
    (∀ e es, f.ents = e :: es →
      let w := e.getD f.rd 0
      let g : Fifo := if e.length ≤ f.rd + 1 then { f with ents := es, rd := 0 } else { f with rd := f.rd + 1 }
      (Gives (.fifoDataRead a) s fun t => t.rf.rdata = w ∧ t = portTrace (delivered (portPut s p g) w) p) ∧
      (a ∈ s.rf.stall → Gives (.fifoStallEnd a) s fun t => t.rf.rdata = w ∧ a ∉ t.rf.stall ∧ t.rf.fabStall = s.rf.fabStall ∧
        portGet t p = g) ∧
      (a ∉ s.rf.stall → (∃ x ∈ s.rf.fabStall, x.2 = a) → Gives (.fifoStallEnd a) s fun t => t.rf.rdata = w ∧
        t.mem.out = (leBytes 4 w.toNat).map (fun b => (b, false)) ∧ t.rf.fabStall.length + 1 = s.rf.fabStall.length ∧
        portGet t p = g)) ∧
    (f.ents = [] →
      (a ∉ s.rf.stall → exec (.fifoDataRead a) s = .next { s with rf := { s.rf with stall := s.rf.stall ++ [a] } }) ∧
      (a ∈ s.rf.stall → exec (.fifoDataRead a) s = .next s) ∧
      (portOn s p = true → exec (.fifoStallEnd a) s = .next s) ∧
      (portOn s p = false → a ∈ s.rf.stall → (∀ x ∈ s.rf.fabStall, x.2 ≠ a) → Gives (.fifoStallEnd a) s fun t =>
        t.rf.rdata = 0 ∧ a ∉ t.rf.stall ∧ portGet t p = { f with dry := (f.dry + 1) % 2 ^ 32 } ∧ t.rf.val = s.rf.val)) ∧
    (a ∉ s.rf.stall → (∀ x ∈ s.rf.fabStall, x.2 ≠ a) → exec (.fifoStallEnd a) s = .next s)) ∧
  (∀ s a, portData a = none → exec (.fifoDataRead a) s = .next s ∧ exec (.fifoStallEnd a) s = .next s)

/-- For every state whose values between islands are listed in the order in which they were sent,
ISLAND_CROSSING_DELIVER from one island to another completes on the oldest value between the two: that value leaves the
list, every other value stays in its order, and it takes its effect in the receiving island: a tie arrival joins the
arrivals that the tie hub has seen (and nothing else changes), a commit commits its slots and a release releases its
slots. The model's choices in it, by entry of the assumption log: 66 (what crosses islands visibly). -/
def Obligations.CrossingsArriveInOrder : Prop :=
  ∀ (s : State) (src dst : Nat) (pre post : List Crossing) (c : Crossing), s.cross = pre ++ c :: post → c.src = src → c.dst = dst →
    (∀ x ∈ pre, x.src ≠ src ∨ x.dst ≠ dst) →
    (exec (.islandCrossingDeliver src dst) s = .next (crossIn { s with cross := pre ++ post } c.what)) ∧
    (∀ k t, c.what = .arrival k t → exec (.islandCrossingDeliver src dst) s = .next ({ s with cross := pre ++ post, eng := { s.eng with arrived := s.eng.arrived ++ [(k, t)] } }))

/-- For every cluster k and every state with the invariant, let u be the state after the advancing beats that precede.
BLOCKED_BEAT completes: no core, no memory and no other cluster differs from u, the beat count of k is that of u (k does
not advance), and of the registers only the stall, blocked-beat and conflict counters of k change. A beat blocked by one
cause (other than TIE_WAIT and FETCH) in one stall set advances that counter by 1, and the blocked-beat counter by 1 if
the cluster runs. Accesses of one core that need the same bank add as many conflict beats as R162 says. An action of k
that cannot act adds its cause to the stall set it names and marks the beat blocked; a second one of the same beat
counts no second blocked beat; in a cluster that runs a program no beat advances until it acts. The model's choices in
it, by entry of the assumption log: 7 (when a command of a bar acts); 9 (a command that blocks acts no further). -/
def Obligations.BlockedBeatOnlyWaits : Prop :=
  ∀ (s : State) (c : CAt), Machine.Inv s → c.cl < 8 →
    let k := c.cl
    let u := adv s k c.dt
    (∀ cs acc, (∀ x ∈ cs, x.1 ≤ 4 ∧ x.2 ≤ 8) → (∀ x ∈ acc, x.1 < 4) → Gives (.blockedBeat c cs acc) s fun t =>
      t.cores = u.cores ∧ t.mem = u.mem ∧ (∀ j, j ≠ k → clu t j = clu u j) ∧ (clu t k).beat = (clu u k).beat ∧
      (cs ≠ [] → (clu t k).blocked = true) ∧
      ∀ a, a ≠ rCluBlockedCnt k → a ≠ rCluConflictCnt k → (∀ i j, i ≤ 4 → j ≤ 8 → a ≠ rCluStall k i j) → rd t a = rd u a) ∧
    (∀ i j, i ≤ 4 → j ≤ 8 → j ≠ 2 → j ≠ 7 → Gives (.blockedBeat c [(i, j)] []) s fun t =>
      rd t (rCluStall k i j) = rd u (rCluStall k i j) + 1 ∧
      rd t (rCluBlockedCnt k) = rd u (rCluBlockedCnt k) + (if (clu u k).running then 1 else 0)) ∧
    (∀ p ws, p < 4 → Gives (.blockedBeat c [] [(p, ws)]) s fun t =>
      rd t (rCluConflictCnt k) = rd u (rCluConflictCnt k) + BitVec.ofNat 32 (extraBeats ws)) ∧
    (∀ i j, i ≤ 4 → j ≤ 8 →
      let t := blockBeat u k i j
      let again := (clu u k).blocked = true ∧ (clu u k).hit ≠ [] ∧ blocker i j ∉ (clu u k).hit
      rd t (rCluStall k i j) = rd u (rCluStall k i j) + 1 ∧ (clu t k).blocked = true ∧ t.cores = u.cores ∧ t.mem = u.mem ∧
      rd t (rCluBlockedCnt k) = rd u (rCluBlockedCnt k) + (if (clu u k).running = true ∧ ¬again then 1 else 0) ∧
      ((clu u k).running = true → ∀ n, adv t k n = t))

/-- In a state with the invariant, BAR_STORE_WRITE of bytes inside the bar store completes. While ENG_CTL.ENABLE = 1 and
the bank belongs to the placement, only ENG_STATUS changes, and its CFG_WR_DROP is 1. Otherwise the bytes are stored,
every other byte of SRAM is as before, ADMITTED is 0, a running scan is stale, and no other register and no core or
cluster changes. -/
def Obligations.BarStoreWritesDropWhileEnabled : Prop :=
  ∀ (s : State) (a : Nat) (bs : List Byte) (p : Bool), Machine.Inv s → 0x2400000000 ≤ a → a + bs.length ≤ 0x2400800000 → bs ≠ [] →
    (rdB s rEngCtl 0 = true → bitN (place s) (a % 0x400000000 / 0x100000) = true →
      Gives (.barStoreWrite a bs p) s fun t => rdB t rEngStatus 31 = true ∧ OnlyRegs s t [rEngStatus]) ∧
    (rdB s rEngCtl 0 = false ∨ bitN (place s) (a % 0x400000000 / 0x100000) = false →
      Gives (.barStoreWrite a bs p) s fun t =>
        ramGet t a bs.length = bs ∧ (∀ b, b < a ∨ a + bs.length ≤ b → mget byte0 t.mem.sram b = mget byte0 s.mem.sram b) ∧
        rdB t rEngAdmitStatus 30 = false ∧ (∀ b, b ≠ rEngAdmitStatus → rd t b = rd s b) ∧
        t.eng.scan = s.eng.scan.map (fun _ => ⟨true⟩) ∧ t.cores = s.cores ∧ t.clus = s.clus)

/-- For a cluster k and a state with the invariant, let u be the state after the advancing beats that precede. BAR_FETCH
without take appends the next bytes of the bank to the buffer if it has room for 64, and changes nothing else. With
take, in a cluster that may move on (its bar complete, a firing tie-point released, a body's step taken) and with no
upset word, the next segment, complete in the buffer and with undamaged words, becomes the running bar, in its beat 0,
and the nest its predecessor entered becomes active; while the segment is not complete the beat blocks with FETCH; a
cluster that may not move on keeps its bar. TIE_ARRIVAL after a complete bar whose tie-point fires and has not been
reported (and, at a portable one, with the island quiet) sends the arrival and the cluster waits; while a portable one
is not quiet the cluster spends a quiescing beat; before the bar is complete nothing happens. TIE_RELEASE, once every
participant has arrived, sends every participant a release that orders to park exactly if the tie-point is portable and
STOP = 1, forgets the arrivals and advances ENG_TIE_CNT; before that it changes nothing. RELEASE_SEEN by a participant
ends its wait, and it parks as the release orders; at the release of an enable it runs, with no bar and no nest. The
model's choices in it, by entry of the assumption log: 7 (when a command of a bar acts); 8 (an event asserts that its
time has come and does nothing where its condition fails); 9 (a command that blocks acts no further); 66 (what crosses
islands visibly); 78 (the beats of a quiescing wait). -/
def Obligations.ClustersMeetAtTiePoints : Prop :=
  (∀ (s : State) (c : CAt), Machine.Inv s → c.cl < 8 →
    let k := c.cl
    let u := adv s k c.dt
    ((clu u k).fbuf.length + 64 ≤ 1024 →
      let a := (clu u k).fetchOff + (clu u k).fbuf.length
      exec (.barFetch c [] false) s =
        .next (setClu u k { clu u k with fbuf := (clu u k).fbuf ++ ramGet u (bankBase k + a) (min 64 (0x100000 - a)) })) ∧
    (let v := fetchMore u k
     let len := segLen (hdrOf (leAt (clu v k).fbuf 0 8)) k
     let whole := 8 ≤ (clu v k).fbuf.length ∧ len ≤ (clu v k).fbuf.length
     (mayTake v k = false → exec (.barFetch c [] true) s = .next v) ∧
     (mayTake v k = true → ¬whole → exec (.barFetch c [] true) s = .next (blockedBeat v k [(4, 7)])) ∧
     (mayTake v k = true → whole → segBad v k (bankBase k + (clu v k).fetchOff) len = false → u.mem.barEcc = [] →
      Gives (.barFetch c [] true) s fun t =>
        (clu t k).bar = some (segOf k (clu v k).fetchBar ((clu v k).fbuf.take len)) ∧ (clu t k).pos = 0 ∧ (clu t k).acted = [] ∧
        (clu t k).held = [] ∧ (clu t k).tied = false ∧
        (clu t k).nest = (clu u k).nestNext.or (clu u k).nest ∧ (clu t k).nestNext = none ∧ t.mem = u.mem ∧ t.rf = u.rf)) ∧
    (∀ g, (clu u k).bar = some g → (clu u k).running = true → (clu u k).waiting = false → stepKey ∉ (clu u k).acted →
      (barDone u k = false → exec (.tieArrival c) s = .next u) ∧
      (barDone u k = true → tieDue u k = true →
        ((g.hdr.port = true → quiet u k = true) → Gives (.tieArrival c) s fun t =>
          t.cross = u.cross ++ [⟨k, 0xC, .arrival k ⟨g.bar, g.hdr.tpart, g.hdr.port, g.hdr.cg⟩⟩] ∧ (clu t k).waiting = true ∧
          (clu t k).tied = true ∧ t.rf = u.rf ∧ t.mem = u.mem ∧ t.cores = u.cores) ∧
        (g.hdr.port = true → quiet u k = false → exec (.tieArrival c) s = .next (quiesceBeat u k))))) ∧
  (∀ (s : State) (b k0 : Nat) (tie : Tie), Machine.Inv s → (s.eng.arrived.find? fun x => x.2.bar == b) = some (k0, tie) →
    ((∀ k ∈ bitList 8 tie.part, (k, tie) ∈ s.eng.arrived) → Gives (.tieRelease b) s fun t =>
      (∃ r : Release, r.tie = tie ∧ r.start = false ∧ r.park = (tie.port && rdB s rEngCtl 2) ∧
        ∀ k ∈ bitList 8 tie.part, (k, r) ∈ t.eng.released) ∧
      (∀ x ∈ t.eng.arrived, x.2 ≠ tie) ∧ rd t rEngTieCnt = rd s rEngTieCnt + 1 ∧ t.cores = s.cores ∧ t.clus = s.clus) ∧
    ((∃ k ∈ bitList 8 tie.part, (k, tie) ∉ s.eng.arrived) → exec (.tieRelease b) s = .next s)) ∧
  (∀ (s : State) (i : Nat) (r : Release), Machine.Inv s → i < 8 → bitN r.tie.part i = true →
    (s.eng.released.find? fun x => x.1 == i) = some (i, r) → Gives (.releaseSeen i) s fun t =>
      (clu t i).waiting = false ∧ (clu t i).winLeft = 64 ∧
      (r.start = false → (clu t i).parked = r.park) ∧
      (r.start = true → (clu t i).running = true ∧ (clu t i).parked = false ∧ (clu t i).bar = none ∧ (clu t i).nest = none))

/-- In a state with the invariant in which a write of the register reaches it. PROGRAM_SCAN_START starts a scan with
ADMITTED at 0 while ENABLE = 0 and no scan runs, and is ignored otherwise. PROGRAM_SCAN_DONE records the first failure,
or sets ADMITTED unless the scan is stale. ENGINE_ENABLE with ENABLE = 0 leaves the engine disabled with the code of its
check in REASON, or sets ENABLE and RUNNING, sends each cluster of the placement a starting release and zeroes every
generator; its check fails with NOT_ADMITTED while ADMITTED = 0. ENGINE_ENABLE without STOP of an enabled, parked engine
resumes every cluster. ENGINE_DISABLE of an enabled engine and PROGRAM_STALL of a running, unparked one with the
watchdog on leave ENABLE and RUNNING at 0, every cluster of the placement stopped with an empty transfer list, and no
slot of it FILLING; PROGRAM_STALL writes its code, the lowest late cluster and its bar to ENG_FAULT and sets FAULT.
ENG_STOP_SET sets STOP only; ENG_STOP_CLEAR clears STOP and, of a parked engine, resumes every cluster. The model's
choices in it, by entry of the assumption log: 8 (an event asserts that its time has come and does nothing where its
condition fails); 14 (which rows check within their step); 57 (corners of the scan); 80 (corners of the scan's order and
writes). -/
def Obligations.EngineStartsAdmittedProgramsOnly : Prop :=
  (∀ s, Machine.Inv s → Reaches s rEngAdmit →
    (rdB s rEngCtl 0 = false → rdB s rEngAdmitStatus 31 = false → Gives .programScanStart s fun t =>
      rdB t rEngAdmitStatus 31 = true ∧ rdB t rEngAdmitStatus 30 = false ∧ t.eng.scan = some ⟨false⟩ ∧
      (∀ a, a ≠ rEngAdmitStatus → rd t a = rd s a) ∧ t.mem = s.mem ∧ t.cores = s.cores ∧ t.clus = s.clus) ∧
    (rdB s rEngCtl 0 = true ∨ rdB s rEngAdmitStatus 31 = true → exec .programScanStart s = .next s)) ∧
  (∀ s recs sc, Machine.Inv s → s.eng.scan = some sc →
    (∀ code k b, scanResult s recs = some (code, k, b) → Gives (.programScanDone recs) s fun t =>
      (k < 8 → b < 2 ^ 20 → rdB t rEngAdmitStatus 31 = false ∧ rdB t rEngAdmitStatus 30 = false ∧ rdF t rEngAdmitStatus 19 0 = b) ∧
      rdF t rEngStatus 15 8 = code % 256 ∧ t.eng.scan = none ∧ rd t rEngProgClass = rd s rEngProgClass) ∧
    (scanResult s recs = none → Gives (.programScanDone recs) s fun t =>
      rdB t rEngAdmitStatus 31 = false ∧ rdB t rEngAdmitStatus 30 = !sc.stale ∧ rdF t rEngStatus 15 8 = 0 ∧ t.eng.scan = none)) ∧
  (∀ s pl, Machine.Inv s → Reaches s rEngCtl → rdB s rEngCtl 0 = true → parkedB s = true → Gives (.engineEnable pl false) s fun t =>
    parkedB t = false ∧ rdB t rEngCtl 2 = false ∧ place t = place s ∧ ∀ k, k < 8 → (clu t k).parked = false) ∧
  (∀ s pl stop, Machine.Inv s → Reaches s rEngCtl → rdB s rEngCtl 0 = false →
    let u := wrB (wrF s rEngCtl 15 8 pl) rEngCtl 2 stop
    (rdB s rEngAdmitStatus 30 = false → engineCheck u = 0x2F) ∧
    (engineCheck u ≠ 0 → Gives (.engineEnable pl stop) s fun t =>
      rdB t rEngCtl 0 = false ∧ rdF t rEngStatus 15 8 = engineCheck u % 256 ∧ OnlyRegs s t [rEngCtl, rEngStatus]) ∧
    (engineCheck u = 0 → Gives (.engineEnable pl stop) s fun t =>
      rdB t rEngCtl 0 = true ∧ rdB t rEngStatus 0 = true ∧ place t = pl % 256 ∧
      (∃ r : Release, r.start = true ∧ ∀ k ∈ bitList 8 (pl % 256), (k, r) ∈ t.eng.released) ∧
      (∀ n, n < 32 → (coreOf t n).gen = {}) ∧ t.mem = s.mem ∧ t.clus = s.clus)) ∧
  (∀ s, Machine.Inv s → Reaches s rEngCtl → rdB s rEngCtl 0 = true → ∀ wins, Gives (.engineDisable wins) s fun t =>
    rdB t rEngCtl 0 = false ∧ rdB t rEngStatus 0 = false ∧
    ∀ k ∈ bitList 8 (place s), (clu t k).running = false ∧ (clu t k).parked = false ∧ (clu t k).xfers = [] ∧
      ∀ i, memClu (i / 512) = k → (slotGet t i).tag ≠ .filling) ∧
  (∀ s late k, Machine.Inv s → running s = true → parkedB s = false → rdF s rEngTieTimeout 23 0 ≠ 0 →
    lowBit (late &&& place s) 8 0 = some k → Gives (.programStall late) s fun t =>
      rd t rEngFault = BitVec.ofNat 32 (0x31 * 2 ^ 24 + 2 ^ 20 * k + barOf s k % 2 ^ 20) ∧ rdB t rEngStatus 2 = true ∧
      rdB t rEngCtl 0 = false ∧ rdB t rEngStatus 0 = false ∧
      ∀ j ∈ bitList 8 (place s), (clu t j).running = false ∧ (clu t j).xfers = [] ∧
        ∀ i, memClu (i / 512) = j → (slotGet t i).tag ≠ .filling) ∧
  (∀ s, Machine.Inv s → Reaches s rEngCtl →
    exec .engStopSet s = .next (wrB s rEngCtl 2 true) ∧
    Gives .engStopClear s fun t => rdB t rEngCtl 2 = false ∧ parkedB t = false ∧
      (parkedB s = true → ∀ k, k < 8 → (clu t k).parked = false) ∧ (parkedB s = false → t = wrB s rEngCtl 2 false))

/-- For every nest of at most six levels whose resolved bounds are all above 0, with the product of the bounds as its
number of steps: the indices at entry are those of step 0; after step t they are, if it is not the last, those of step t
+ 1 in the mixed-radix order of R98 and the body runs again; after the last step every index is 0 and the body is left.
-/
def Obligations.NestRunsEveryStepOnce : Prop :=
  ∀ (ns : NestSt) (t : Nat), ns.desc.levels ≤ 6 → ns.bound.length = ns.desc.levels → (∀ b ∈ ns.bound, 0 < b) → t < steps ns →
    let cur : NestSt := { ns with idx := idxAfter ns t }
    idxAfter ns 0 = List.replicate ns.desc.levels 0 ∧
    (t + 1 < steps ns → (stepNest cur).idx = idxAfter ns (t + 1) ∧ (stepNest cur).inBody = true) ∧
    (t + 1 = steps ns → (stepNest cur).idx = List.replicate ns.desc.levels 0 ∧ (stepNest cur).inBody = false)

/-- For a core and a state with the invariant, let u be the state after the advancing beats that precede. An operation
of the control field whose turn it is not changes nothing. Where it is its turn and nothing else blocks the beat:
SLOT_WAIT passes while the slot is FULL, and changes only the marks of its cluster's bar; otherwise the beat blocks in
the set of the core, with the cause of the slot's SRC class; a parity error of the tag read makes the slot INVALID, and
the beat blocks. SLOT_RELEASE after the bar's last beat takes the slot from FULL to EMPTY and changes nothing else;
otherwise it sets RELEASE_BAD and counts. BOUND_LD of a FULL slot whose first word is undamaged loads that word (0 if it
is poisoned) as the bound for the next nest; of another slot it blocks. GUARD in a nest body, on a level of that nest,
makes the fields of the slot conditional; elsewhere it faults. EVENT appends its record, or, when the FIFO is full, only
sets OVR. NEST of a nest with no data-dependent level resolves its bounds and makes it the next nest. NEST_STEP after
the last bar of the body advances the indices as R98 says. The model's choices in it, by entry of the assumption log: 5
(faults come as operands); 7 (when a command of a bar acts); 9 (a command that blocks acts no further); 59 (faults of
actions that admission shuts out). -/
def Obligations.ControlFieldActsOnSlotsAndNests : Prop :=
  (∀ (s : State) (a : At) (slot : Nat), Machine.Inv s → a.core < 32 →
    let k := a.core / 4
    let u := adv s k a.dt
    let key := a.core * 512 + slot % 512
    let mine := ∀ x ∈ (clu u k).held, x = blocker (a.core % 4) 0
    let marks (t : State) : Prop := heldAny t k = false ∧ (∀ j, j ≠ k → clu t j = clu u j) ∧
      ((clu u k).running = true → actKey a.core 0 ∈ (clu t k).acted)
    (ctlTurn u a 1 = false → ∀ par, exec (.slotWait a slot par) s = .next u) ∧
    (ctlTurn u a 3 = false → exec (.boundLd a slot) s = .next u) ∧
    (releaseTurn u a.core = false → exec (.slotRelease a slot) s = .next u) ∧
    (u.mem.tagUps = [] → (slotGet u key).tag = .full →
      (ctlTurn u a 1 = true → mine → Gives (.slotWait a slot false) s fun t => marks t ∧ t = { u with clus := t.clus }) ∧
      (releaseTurn u a.core = true → exec (.slotRelease a slot) s =
        .next (slotPut (acted u k (actKey a.core 5)) key { slotGet u key with tag := .empty })) ∧
      (let ad := memBase a.core + 4096 * (slot % 512)
       ctlTurn u a 3 = true → mine → eccGet u (ad / 32) = 0 → Gives (.boundLd a slot) s fun t => marks t ∧
        (clu t k).ddNext = some (if poisGet u (ad / 32) then 0 else ramNat u ad 4) ∧
        (∀ n, coreOf t n = { coreOf u n with used := (coreOf t n).used }) ∧ (poisGet u (ad / 32) = false → t.mem = u.mem))) ∧
    (u.mem.tagUps = [] → (slotGet u key).tag ≠ .full →
      (ctlTurn u a 1 = true → exec (.slotWait a slot false) s = .next (blockBeat u k (a.core % 4) (waitCause (slotGet u key)))) ∧
      (ctlTurn u a 3 = true → exec (.boundLd a slot) s = .next (blockBeat u k (a.core % 4) (waitCause (slotGet u key)))) ∧
      (releaseTurn u a.core = true → Gives (.slotRelease a slot) s fun t => rdB t (rCluTagStatus k) 0 = true ∧
        rd t (rCluTagErrCnt k) = rd u (rCluTagErrCnt k) + 1 ∧
        OnlyRegs (acted u k (actKey a.core 5)) t [rCluTagStatus k, rCluTagErrCnt k])) ∧
    (ctlTurn u a 1 = true → ∀ par, par = true ∨ key ∈ u.mem.tagUps → Gives (.slotWait a slot par) s fun t =>
      (slotGet t key).tag = .invalid ∧ rdB t (rCluTagStatus k) 2 = true ∧ (clu t k).blocked = true ∧ t.cores = u.cores)) ∧
  (∀ (s : State) (a : At) (lvl mode v : Nat), Machine.Inv s → a.core < 32 →
    let k := a.core / 4
    let u := adv s k a.dt
    ((clu u k).nest = none → exec (.guard a lvl mode v) s = .fault .guardOutside) ∧
    ∀ ns, (clu u k).nest = some ns →
      (ns.inBody = true → lvl < ns.desc.levels → ctlTurn u a 4 = true → heldAny u k = false →
        Gives (.guard a lvl mode v) s fun t =>
          (coreOf t a.core).guard = some ⟨lvl, mode % 4, v % 64⟩ ∧ (∀ n, n ≠ a.core → coreOf t n = coreOf u n) ∧
          t = { acted u k (actKey a.core 0) with cores := t.cores }) ∧
      (ns.inBody = true → lvl < ns.desc.levels → ctlTurn u a 4 = false ∨ heldAny u k = true →
        exec (.guard a lvl mode v) s = .next u) ∧
      (ns.inBody = false ∨ ns.desc.levels ≤ lvl → exec (.guard a lvl mode v) s = .fault .guardOutside)) ∧
  (∀ (s : State) (a : At) (num : Nat), Machine.Inv s → a.core < 32 →
    let k := a.core / 4
    let u := adv s k a.dt
    let w : Word := BitVec.ofNat 32 (num % 2048 * 2 ^ 21 + (4 * k + recOf u a.core) * 2 ^ 16 + barOf u k % 2 ^ 16)
    let f := u.eng.events
    (ctlTurn u a 5 = false ∨ heldAny u k = true → exec (.event a num) s = .next u) ∧
    (ctlTurn u a 5 = true → heldAny u k = false → Gives (.event a num) s fun t =>
      t = { acted u k (actKey a.core 4) with eng := { u.eng with events := t.eng.events } } ∧
      (fifoFull 256 f = false → t.eng.events = { f with ents := f.ents ++ [[w]] }) ∧
      (fifoFull 256 f = true → t.eng.events.ents = f.ents ∧ t.eng.events.ovr = true))) ∧
  (∀ (s : State) (c : CAt) (n : Nat), Machine.Inv s → c.cl < 8 → n < 256 →
    let k := c.cl
    let u := adv s k c.dt
    let d := descAt u k n
    (kslotTurn u k = false ∨ heldAny u k = true → exec (.nest c n) s = .next u) ∧
    (kslotTurn u k = true → heldAny u k = false → (∀ x ∈ d.src, x ≠ 0xF) → Gives (.nest c n) s fun t =>
      (clu t k).nestNext = some (enterNest u k n 0) ∧ (clu t k).nest = (clu u k).nest ∧ t.cores = u.cores ∧ t.mem = u.mem ∧
      ((clu u k).running = true → kslotKey ∈ (clu t k).acted) ∧
      ((enterNest u k n 0).inBody = true → cutsOf u k n d 0 = [] → t.rf = u.rf))) ∧
  (∀ (s : State) (c : CAt) (ns : NestSt), Machine.Inv s → c.cl < 8 →
    let k := c.cl
    let u := adv s k c.dt
    (clu u k).nest = some ns → ns.inBody = true → barOf u k = ns.desc.bodyLast →
    (stepTurn u k = false → exec (.nestStep c) s = .next u) ∧
    (stepTurn u k = true → Gives (.nestStep c) s fun t =>
      (clu t k).nest = some (stepNest ns) ∧ t.cores = u.cores ∧ t.mem = u.mem ∧ t.rf = u.rf ∧
      ((stepNest ns).inBody = true → (clu t k).fetchBar = ns.desc.bodyFirst) ∧
      ((stepNest ns).inBody = false → (clu t k).fbuf = (clu u k).fbuf ∧ (clu t k).fetchBar = (clu u k).fetchBar)))

/-- For a core whose VX field acts now (its turn, its GUARD holding, nothing blocking the beat), every mask and every
operand: VADD, VSUB, VMUL, VFMA, VMIN, VMAX, VABS and VNEG of INT32 complete, and give each governed lane the exact
result of its source lanes, modulo 2^32, or clamped to the INT32 range with SAT; VAND, VOR, VXOR, VSHL and VSHR (by the
shift modulo 32; arithmetic for INT32) the bitwise result; VDOT4, where no window is in force, the dot product added to
VC; VUNPK and VIOTA the extracted and the numbered elements; VSEL the lane that the mask chooses; VCMP sets the governed
bits of its mask register by its predicate and keeps the others. A result lane is poisoned exactly if a source lane is.
The results are due after the latency of Table 4.8, and nothing else changes but flags and counters. The model's choices
in it, by entry of the assumption log: 7 (when a command of a bar acts). -/
def Obligations.VectorIntegerResults : Prop :=
  ∀ (s : State) (a : At) (x : VxArgs), Machine.Inv s → a.core < 32 →
    let n := a.core
    let u := adv s (n / 4) a.dt
    let c := coreOf u n
    let gov := govLanes c x.mask
    vxTurn u a = true →
    let A := laneGet c x.va
    let B := laneGet c x.vb
    let C := laneGet c x.vc
    (x.fmt = 9 → ∀ e ∈ ([(0x10, Instr.vadd, [x.va, x.vb], fun l => A l + B l, fun l => (A l).toInt + (B l).toInt),
        (0x11, Instr.vsub, [x.va, x.vb], fun l => A l - B l, fun l => (A l).toInt - (B l).toInt),
        (0x12, Instr.vmul, [x.va, x.vb], fun l => A l * B l, fun l => (A l).toInt * (B l).toInt),
        (0x13, Instr.vfma, [x.va, x.vb, x.vc], fun l => A l * B l + C l, fun l => (A l).toInt * (B l).toInt + (C l).toInt),
        (0x14, Instr.vmin, [x.va, x.vb], fun l => if (B l).slt (A l) then B l else A l, fun l => min (A l).toInt (B l).toInt),
        (0x15, Instr.vmax, [x.va, x.vb], fun l => if (A l).slt (B l) then B l else A l, fun l => max (A l).toInt (B l).toInt),
        (0x16, Instr.vabs, [x.va], fun l => if (A l).slt 0 then -A l else A l, fun l => ((A l).toInt.natAbs : Int)),
        (0x17, Instr.vneg, [x.va], fun l => -A l, fun l => -(A l).toInt)] :
        List (Nat × (At → VxArgs → Instr) × List Nat × (Nat → Word) × (Nat → Int))), vxOk e.1 x = true →
      Gives (e.2.1 a x) s fun t => VecDone u t n 2 1 [.lanes (gov.map fun l => (x.vd * 64 + l,
        (if x.sat then BitVec.ofInt 32 (max (-2147483648) (min 2147483647 (e.2.2.2.2 l))) else e.2.2.2.1 l),
        e.2.2.1.any fun r => laneP c r l))]) ∧
    (∀ e ∈ ([(0x18, Instr.vand, fun l => A l &&& B l), (0x19, Instr.vor, fun l => A l ||| B l), (0x1A, Instr.vxor, fun l => A l ^^^ B l),
        (0x1B, Instr.vshl, fun l => A l <<< ((B l).toNat % 32)),
        (0x1C, Instr.vshr, fun l => if x.fmt = 9 then (A l).sshiftRight ((B l).toNat % 32) else A l >>> ((B l).toNat % 32))] :
        List (Nat × (At → VxArgs → Instr) × (Nat → Word))), vxOk e.1 x = true →
      Gives (e.2.1 a x) s fun t => VecDone u t n 2 1 [.lanes (gov.map fun l => (x.vd * 64 + l, e.2.2 l, laneP c x.va l || laneP c x.vb l))]) ∧
    (vxOk 0x20 x = true → (x.va = 31 → vwinOn u (n / 4) = none) → Gives (.vdot4 a x) s fun t =>
      VecDone u t n 2 2 [.lanes (gov.map fun l => (x.vd * 64 + l,
        (let v := (C l).toInt + dot4 x.fmt (A l) (B l)
         if x.sat then BitVec.ofInt 32 (max (-2147483648) (min 2147483647 v)) else BitVec.ofInt 32 v),
        laneP c x.va l || laneP c x.vb l || laneP c x.vc l))]) ∧
    (vxOk 0x0C x = true → Gives (.vunpk a x) s fun t => VecDone u t n 2 1 [.lanes (gov.map fun l =>
      let i := 64 * (x.arg / 4 % 4) + l
      (x.vd * 64 + l,
        (match x.arg % 4 with
          | 0 => (A (i / 4) >>> (8 * (i % 4))) &&& 0xFF
          | 1 => ((A (i / 4) >>> (8 * (i % 4))).setWidth 8).signExtend 32
          | 2 => (A (i / 2) >>> (16 * (i % 2))) &&& 0xFFFF
          | _ => ((A (i / 2) >>> (16 * (i % 2))).setWidth 16).signExtend 32),
        laneP c x.va (if x.arg % 4 < 2 then i / 4 else i / 2)))]) ∧
    (vxOk 0x0D x = true → Gives (.viota a x) s fun t =>
      VecDone u t n 2 1 [.lanes (gov.map fun l => (x.vd * 64 + l, A 0 + BitVec.ofNat 32 l, laneP c x.va 0))]) ∧
    (vxOk 0x1F x = true → Gives (.vsel a x) s fun t => VecDone u t n 2 1 [.lanes (gov.map fun l =>
      let r := if (maskGet c (x.arg / 8 % 8)).getLsbD l then x.va else x.vb
      (x.vd * 64 + l, laneGet c r l, laneP c r l))]) ∧
    (vxOk 0x1E x = true → ∃ v : BitVec 64,
      (∀ l, l < 64 → v.getLsbD l = if l ∈ gov then predOk (x.arg % 8) (laneCmp (x.fmt == 8) (A l) (B l))
        else (maskGet c (x.arg / 8 % 8)).getLsbD l) ∧
      Gives (.vcmp a x) s fun t => VecDone u t n 2 1 [.mask (x.arg / 8 % 8) v])

/-- For a core whose VX field acts now (its turn, its GUARD holding, nothing blocking the beat), every mask and every
operand: VADD, VSUB, VMUL, VFMA, VRCP and VRSQRT of FP32 complete, and give each governed lane the exact sum,
difference, product, fused product-sum, reciprocal or reciprocal root of its source lanes rounded once to nearest even;
VMIN, VMAX, VABS and VNEG the exact value; VLUT and VEXP2 the value of the table function; VCVT of INT32 the nearest
FP32 value, and of FP32 the conversion to INT32 in the rounding of MODE, saturated. A result lane is poisoned exactly if
a source lane is. The results are due after the latency of Table 4.8, and nothing else changes but flags and counters.
The model's choices in it, by entry of the assumption log: 7 (when a command of a bar acts). -/
def Obligations.VectorFloatResults : Prop :=
  ∀ (s : State) (a : At) (x : VxArgs), Machine.Inv s → a.core < 32 →
    let n := a.core
    let u := adv s (n / 4) a.dt
    let c := coreOf u n
    let gov := govLanes c x.mask
    vxTurn u a = true →
    let A := laneF c x.va
    let B := laneF c x.vb
    let C := laneF c x.vc
    (x.fmt = 8 → ∀ e ∈ ([(0x10, Instr.vadd, [x.va, x.vb], 4, fun l => rne32 (fAddX (A l) (B l))),
        (0x11, Instr.vsub, [x.va, x.vb], 4, fun l => rne32 (fAddX (A l) (fNegate (B l)))),
        (0x12, Instr.vmul, [x.va, x.vb], 4, fun l => rne32 (fMulX (A l) (B l))),
        (0x13, Instr.vfma, [x.va, x.vb, x.vc], 4, fun l => rne32 (fAddX (fMulX (A l) (B l)) (C l))),
        (0x14, Instr.vmin, [x.va, x.vb], 4, fun l => min32 (A l) (B l)),
        (0x15, Instr.vmax, [x.va, x.vb], 4, fun l => max32 (A l) (B l)),
        (0x16, Instr.vabs, [x.va], 4, fun l => fAbs (A l)),
        (0x17, Instr.vneg, [x.va], 4, fun l => fNegate (A l)),
        (0x22, Instr.vrcp, [x.va], 8, fun l => rne32 (fRcpX (A l))),
        (0x23, Instr.vrsqrt, [x.va], 8, fun l => rne32 (fRsqrtX (A l))),
        (0x21, Instr.vlut, [x.va], 5, fun l => (numRun (vlut c (x.arg % 8) (A l))).1),
        (0x24, Instr.vexp2, [x.va], 6, fun l => (numRun (vexp2 c (x.arg % 8) (A l))).1)] :
        List (Nat × (At → VxArgs → Instr) × List Nat × Nat × (Nat → FVal))), vxOk e.1 x = true →
      Gives (e.2.1 a x) s fun t => VecDone u t n 2 e.2.2.2.1 [.lanes (gov.map fun l =>
        (x.vd * 64 + l, fw (e.2.2.2.2 l), e.2.2.1.any fun r => laneP c r l))]) ∧
    (vxOk 0x1D x = true → Gives (.vcvt a x) s fun t => VecDone u t n 2 4 [.lanes (gov.map fun l => (x.vd * 64 + l,
      (if x.fmt = 9 then fw (rne32 (fOfInt (laneGet c x.va l).toInt))
       else BitVec.ofNat 32 (numRun (convert 9 (mdOf c x.mode l a.j) true (A l))).1), laneP c x.va l))])

/-- For a core whose VX field acts now (its turn, its GUARD holding, nothing blocking the beat), with no damaged word in
memory and no lane masked by the last-tile rule, and a stream address inside its own SPM: VLD (of elements, or of FRC
units, where no window is in force), VLDR, VBCAST and VGATH complete, and give each governed lane the value of its
element's stored bytes, widened from FMT, poisoned exactly if a word it lies in is poisoned (for VGATH, or its index
is); a VGATH lane outside the SPM gets 0. VPLD, VLUTLD and DRCFG deliver 256 stored bytes to PB, to their chunk of the
table and to their chunk of the drain record; VLUTLD past its last chunk and DRCFG past its last do nothing. The
memories do not change. The model's choices in it, by entry of the assumption log: 3 (the data of an uncorrectable
word); 7 (when a command of a bar acts); 89 (corners of formats and reads). -/
def Obligations.VectorLoadsReadTheirElements : Prop :=
  ∀ (s : State) (a : At) (x : VxArgs), Machine.Inv s → a.core < 32 →
    let n := a.core
    let u := adv s (n / 4) a.dt
    let c := coreOf u n
    let gov := govLanes c x.mask
    vxTurn u a = true →
    u.mem.ecc = [] → (∀ l, laneMasked u (n / 4) a.j l = false) →
    let bits := fmtBits x.fmt
    let pois (r : Nat × Nat) : Bool := (runWords r).any (poisGet u)
    (∀ ad, ∀ e ∈ ([(0x01, Instr.vld, 8 * bits, elemRun ad bits, fun l bs => widen x.fmt (elemCode bits l bs)),
        (0x03, Instr.vldr, 256, fun l => (ad + 4 * l, 4), fun _ bs => BitVec.ofNat 32 (leNat bs)),
        (0x07, Instr.vbcast, 4, fun _ => (ad, 4), fun _ bs => BitVec.ofNat 32 (leNat bs))] :
        List (Nat × (At → VxArgs → Instr) × Nat × (Nat → Nat × Nat) × (Nat → List Byte → Word))), vxOk e.1 x = true →
      (e.1 = 1 → x.fmt ≠ 0xB ∧ x.fmt ≠ 0xC ∧ (vxStrm x = 0 → vwinOn u (n / 4) = none)) →
      coreAddr u n (vxStrm x) a.j e.2.2.1 = .ok ad →
      Gives (e.2.1 a x) s fun t => VecDone u t n 2 3 [.lanes (gov.map fun l =>
        (x.vd * 64 + l, e.2.2.2.2 l (ramGet u (e.2.2.2.1 l).1 (e.2.2.2.1 l).2), pois (e.2.2.2.1 l)))]) ∧
    (∀ ad, vxOk 0x01 x = true → x.fmt = 0xB ∨ x.fmt = 0xC → (vxStrm x = 0 → vwinOn u (n / 4) = none) →
      let w := frcUnit x.fmt
      coreAddr u n (vxStrm x) a.j (4 * w) = .ok ad → Gives (.vld a x) s fun t => VecDone u t n 2 3 [.lanes (gov.map fun l =>
        (x.vd * 64 + l, frcElem (x.fmt == 0xC) (bitN x.arg 9) (l % 16) (ramGet u (ad + l / 16 * w) w), pois (ad + l / 16 * w, w)))]) ∧
    (∀ ad, vxOk 0x05 x = true → coreAddr u n (vxStrm x) a.j 1 = .ok ad →
      let e (l : Nat) := elemAddr c x ad l
      let ins := gov.filter fun l => elemIn n x (e l)
      let outs := gov.filter fun l => !elemIn n x (e l)
      Gives (.vgath a x) s fun t => VecDone u t n 2 4 [.lanes ((ins.map fun l => (x.vd * 64 + l,
          widen x.fmt (ramNat u (e l).toNat (bits / 8)), pois ((e l).toNat, bits / 8) || laneP c x.vb l)) ++
        outs.map fun l => (x.vd * 64 + l, (0 : Word), false))] ∧
        rd t (rNcVecOobCnt n) = rd u (rNcVecOobCnt n) + BitVec.ofNat 32 outs.length ∧ (outs ≠ [] → rdB t (rNcVecStatus n) 0 = true)) ∧
    (∀ ad, coreAddr u n (vxStrm x) a.j 256 = .ok ad →
      (vxOk 0x08 x = true → Gives (.vpld a x) s fun t => VecDone u t n 2 3 [.pb (chunkWords 0 (ramGet u ad 256))]) ∧
      (vxOk 0x09 x = true → a.j < 9 → Gives (.vlutld a x) s fun t => VecDone u t n 2 3 [.tab (
        if a.j = 0 then (chunkWords (x.arg % 8 * 1024) (ramGet u ad 256)).take 2
        else chunkWords (x.arg % 8 * 1024 + 2 + 64 * (a.j - 1)) (ramGet u ad 256))]) ∧
      (vxOk 0x0A x = true → a.j < 3 → Gives (.drcfg a x) s fun t => VecDone u t n 2 3 [.drec a.j (ramGet u ad 256)])) ∧
    (vxOk 0x09 x = true → 9 ≤ a.j → Gives (.vlutld a x) s fun t => VecDone u t n 2 3 []) ∧
    (vxOk 0x0A x = true → 3 ≤ a.j → Gives (.drcfg a x) s fun t => VecDone u t n 2 3 [])

/-- For a core whose VX field acts now (its turn, its GUARD holding, nothing blocking the beat) and a stream address
inside its own SPM, VST, VSTR and VSCAT without a parity mismatch complete with one memory write on its way, due 2 beats
after the issue. It names exactly the bytes (for a 4-bit FMT, the nibbles) of the governed lanes that the last-tile rule
leaves, each lane at its element's address, with its raw bytes or its value converted to FMT, and with the lane's poison
bit; of bytes that several VSCAT lanes name, the highest lane's are stored. The memories and every other part of the
core are as before until then. With a parity mismatch VSTR and VST put the same bytes or nibbles on their way, each
poisoned. (VSCAT: stated where no index is poisoned.) The model's choices in it, by entry of the assumption log: 5
(faults come as operands); 7 (when a command of a bar acts). -/
def Obligations.VectorStoresWriteTheirElements : Prop :=
  ∀ (s : State) (a : At) (x : VxArgs), Machine.Inv s → a.core < 32 →
    let n := a.core
    let u := adv s (n / 4) a.dt
    let c := coreOf u n
    let gov := govLanes c x.mask
    vxTurn u a = true →
    let live := gov.filter fun l => !laneMasked u (n / 4) a.j l
    let bits := fmtBits x.fmt
    let code (l : Nat) : Nat := if x.fmt = 0 then (laneGet c x.va l).toNat % 256 else
      (numRun (convert x.fmt (mdOf c x.mode l a.j) x.sat (laneVal (bitN x.arg 9) (laneGet c x.va l)))).1
    let raw (ad : Nat) := live.flatMap fun l => laneBytes (ad + 4 * l) 4 (laneGet c x.va l).toNat (laneP c x.va l)
    let conv (ad : Nat) := live.flatMap fun l => laneBytes (ad + l * (bits / 8)) (bits / 8) (code l) (laneP c x.va l)
    (∀ ad, vxOk 0x04 x = true → coreAddr u n (vxStrm x) a.j 256 = .ok ad →
      (Gives (.vstr a x false) s fun t => VecDone u t n 2 2 [.mem 1 (raw ad)]) ∧
      Gives (.vstr a x true) s fun t => (coreOf t n).pend = (coreOf u n).pend ++
        [⟨(clu u (n / 4)).beat + 1, (clu u (n / 4)).beat, .mem 1 ((raw ad).map fun y => (y.1, y.2.1, true))⟩] ∧ t.mem = u.mem) ∧
    (∀ ad, vxOk 0x02 x = true → coreAddr u n (vxStrm x) a.j (8 * bits) = .ok ad →
      (bits ≠ 4 → (Gives (.vst a x false) s fun t => VecDone u t n 2 2 [.mem 1 (conv ad)]) ∧
        Gives (.vst a x true) s fun t => (coreOf t n).pend = (coreOf u n).pend ++
          [⟨(clu u (n / 4)).beat + 1, (clu u (n / 4)).beat, .mem 1 ((conv ad).map fun y => (y.1, y.2.1, true))⟩] ∧ t.mem = u.mem) ∧
      (bits = 4 → Gives (.vst a x false) s fun t => VecDone u t n 2 2
        [.nib 1 (live.map fun l => (ad + l / 2, l % 2 == 1, code l, laneP c x.va l))] ) ∧
      (bits = 4 → Gives (.vst a x true) s fun t => (coreOf t n).pend = (coreOf u n).pend ++
        [⟨(clu u (n / 4)).beat + 1, (clu u (n / 4)).beat, .nib 1 (live.map fun l => (ad + l / 2, l % 2 == 1, code l, true))⟩] ∧ t.mem = u.mem)) ∧
    (∀ ad, vxOk 0x06 x = true → coreAddr u n (vxStrm x) a.j 1 = .ok ad → (∀ l ∈ live, laneP c x.vb l = false) →
      let at' (l : Nat) := (elemAddr c x ad l).toNat
      let ins := live.filter fun l => elemIn n x (elemAddr c x ad l)
      Gives (.vscat a x false) s fun t => VecDone u t n 2 2
        [.mem 1 (lastBytes (ins.flatMap fun l => laneBytes (at' l) (bits / 8) (code l) (laneP c x.va l)))] ∧
        rd t (rNcVecOobCnt n) = rd u (rNcVecOobCnt n) + BitVec.ofNat 32 (live.length - ins.length))

/-- For a core whose VX field acts now (its turn, its GUARD holding, nothing blocking the beat), every mask and every
operand: VRSUM of INT32 gives the exact sum of the active lanes, wrapped or clamped; VRMAX and VRMIN of INT32 give,
where a lane is active, the value of an active lane that no active lane exceeds (undercuts); VRARGMAX of INT32 gives
that maximum and the lowest active lane that holds it; for FP32 each of the four puts one value in lane 0. The result is
in lane 0 (for VRARGMAX also lane 1), the other lanes are 0. VSORT and VMERGE write a list of pairs that is the active
pairs (for VMERGE, with the 64 pairs of VD) reordered, no pair ranking above an earlier one, then the sentinel. The
results are due after the latency of Table 4.8. The model's choices in it, by entry of the assumption log: 7 (when a
command of a bar acts). -/
def Obligations.VectorReductionsAndSorts : Prop :=
  (∀ (fp : Bool) (ps : List (Word × Word)), (pairSort fp ps).Perm ps ∧
    (pairSort fp ps).Pairwise fun p q => pairAbove fp q p = false) ∧
  ∀ (s : State) (a : At) (x : VxArgs), Machine.Inv s → a.core < 32 →
    let n := a.core
    let u := adv s (n / 4) a.dt
    let c := coreOf u n
    let gov := govLanes c x.mask
    vxTurn u a = true →
    let A := laneGet c x.va
    let p := gov.any fun l => laneP c x.va l
    (x.fmt = 9 →
      (vxOk 0x28 x = true → Gives (.vrsum a x) s fun t => VecDone u t n 2 6 [.lanes (redOut x.vd
        (let v := (gov.map fun l => (A l).toInt).sum
         if x.sat then BitVec.ofInt 32 (max (-2147483648) (min 2147483647 v)) else BitVec.ofInt 32 v) 0 p false)]) ∧
      (gov ≠ [] →
        (vxOk 0x29 x = true → ∃ v, (∃ l ∈ gov, v = A l) ∧ (∀ l ∈ gov, (A l).toInt ≤ v.toInt) ∧
          Gives (.vrmax a x) s fun t => VecDone u t n 2 6 [.lanes (redOut x.vd v 0 p false)]) ∧
        (vxOk 0x2A x = true → ∃ v, (∃ l ∈ gov, v = A l) ∧ (∀ l ∈ gov, v.toInt ≤ (A l).toInt) ∧
          Gives (.vrmin a x) s fun t => VecDone u t n 2 6 [.lanes (redOut x.vd v 0 p false)]) ∧
        (vxOk 0x2B x = true → ∃ i ∈ gov, (∀ l ∈ gov, (A l).toInt ≤ (A i).toInt) ∧ (∀ l ∈ gov, l < i → (A l).toInt < (A i).toInt) ∧
          Gives (.vrargmax a x) s fun t => VecDone u t n 2 6 [.lanes (redOut x.vd (A i) (BitVec.ofNat 32 i) p p)]))) ∧
    (x.fmt = 8 →
      (vxOk 0x28 x = true → Gives (.vrsum a x) s fun t => VecDone u t n 2 6 [.lanes (redOut x.vd
        (fw (numRun (treeSum 6 ((upto 64).map fun l => if l ∈ gov then laneF c x.va l else fZero))).1) 0 p false)]) ∧
      (∀ e ∈ ([(0x29, Instr.vrmax, true), (0x2A, Instr.vrmin, false)] : List (Nat × (At → VxArgs → Instr) × Bool)), vxOk e.1 x = true →
        ∃ v, ((∃ l ∈ gov, fIsNan (laneF c x.va l) = true) → v = fw .nan) ∧ (gov = [] → v = fw (.inf e.2.2)) ∧
          Gives (e.2.1 a x) s fun t => VecDone u t n 2 6 [.lanes (redOut x.vd v 0 p false)]) ∧
      (vxOk 0x2B x = true → ∃ v i, (gov = [] → i = 0xFFFFFFFF) ∧ (∀ l ∈ gov, fIsNan (laneF c x.va l) = true → v = fw .nan) ∧
        Gives (.vrargmax a x) s fun t => VecDone u t n 2 6 [.lanes (redOut x.vd v i p p)])) ∧
    (vxOk 0x2C x = true → Gives (.vsort a x) s fun t =>
      VecDone u t n 2 12 [.lanes (pairOut x.vd (x.fmt == 8) (pairsAt c x.va gov) (pairPois c x.va gov))]) ∧
    (vxOk 0x2D x = true → Gives (.vmerge a x) s fun t =>
      VecDone u t n 2 12 [.lanes (pairOut x.vd (x.fmt == 8) (pairsAt c x.vd (upto 64) ++ pairsAt c x.va gov)
        (pairPois c x.vd (upto 64) || pairPois c x.va gov))])

/-- For a core whose VX field acts now (its turn, its GUARD holding, nothing blocking the beat), every mask and every
operand: VXFORM, VPROJ, VDEPTH and VVOX complete and give each governed lane the coordinates, the image point, the point
of a depth and the voxel index that R159 defines, each step rounded once; with voxel counts that are not integers from 1
to 1,024 the index is any value. VRSET makes PB[p] to PB[p + 5] and the lanes of VA the generator state, 6 beats later.
VRAND gives each lane its element's word, the word's upper 24 bits over 2^24, or its slice. VDROP gives a kept lane the
rounded product and another lane 0, and writes which are kept to its mask register, if it names one. VGUMB gives the
scaled score, with the noise of R260 unless GREEDY. VOPTQ gives the value scaled for its half and the half's block
scale, and adds the lanes that are not finite to its mask register, if it names one. VOPTU gives the new weight and both
moments, quantised. A result is poisoned exactly if a register its formula reads is, in its lane (for VOPTQ and the
moments of VOPTU, in an active lane of its half). The results are due after the latency of Table 4.8, and nothing else
changes but flags and counters. The model's choices in it, by entry of the assumption log: 2 (free values); 7 (when a
command of a bar acts). -/
def Obligations.PointsDrawsAndUpdates : Prop :=
  ∀ (s : State) (a : At) (x : VxArgs), Machine.Inv s → a.core < 32 →
    let n := a.core
    let u := adv s (n / 4) a.dt
    let c := coreOf u n
    let gov := govLanes c x.mask
    vxTurn u a = true →
    let p := x.arg % 64
    let K (i : Nat) := pbF c (p + i)
    let V (i l : Nat) := laneF c (x.va + i) l
    let P (i l : Nat) := laneP c (x.va + i) l
    let mul (v w : FVal) := rne32 (fMulX v w)
    let sub (v w : FVal) := rne32 (fAddX v (fNegate w))
    let add (v w : FVal) := rne32 (fAddX v w)
    let fma (v w z : FVal) := rne32 (fAddX (fMulX v w) z)
    let rcp (v : FVal) := rne32 (fRcpX v)
    let out (i l : Nat) (v : FVal) (q : Bool) : Nat × Word × Bool := ((x.vd + i) * 64 + l, fw v, q)
    let quant (W : Nat → FVal) (invS kk : FVal) (l : Nat) : FVal × FVal :=
      let top := (gov.filter fun i => i / 32 == l / 32).foldl
        (fun m i => if fIsFin (W i) && fBelow m (fAbs (W i)) then fAbs (W i) else m) fZero
      let sg := if fIsZero top then fZero else ue5m3 (numRun (cvtUe .rup (mul top kk))).1
      (if fIsFin (W l) then mul (W l) (if fIsZero sg then fZero else mul invS (rcp sg)) else W l, sg)
    (vxOk 0x30 x = true → Gives (.vxform a x) s fun t => VecDone u t n 2 12 [.lanes (gov.flatMap fun l => (upto 3).map fun i =>
      out i l (fma (K (4 * i + 2)) (V 2 l) (fma (K (4 * i + 1)) (V 1 l) (fma (K (4 * i)) (V 0 l) (K (4 * i + 3)))))
        (P 0 l || P 1 l || P 2 l))]) ∧
    (vxOk 0x31 x = true → Gives (.vproj a x) s fun t => VecDone u t n 2 14 [.lanes (gov.flatMap fun l => (upto 2).map fun i =>
      out i l (if fIsNan (V 2 l) || fLe (V 2 l) fZero then .nan else fma (K i) (mul (V i l) (rcp (V 2 l))) (K (i + 2)))
        (P i l || P 2 l))]) ∧
    (vxOk 0x32 x = true → Gives (.vdepth a x) s fun t => VecDone u t n 2 12 [.lanes (gov.flatMap fun l =>
      let d := (laneGet c x.vb l).toInt
      let z := mul (fOfInt d) (K 4)
      let w (v : FVal) : FVal := if d ≤ 0 then .nan else v
      let q := laneP c x.vb l
      [out 0 l (w (mul (mul (sub (V 0 l) (K 2)) (K 0)) z)) (P 0 l || q),
       out 1 l (w (mul (mul (sub (V 1 l) (K 3)) (K 1)) z)) (P 1 l || q), out 2 l (w z) q])]) ∧
    (vxOk 0x33 x = true →
      let q (i l : Nat) := mul (sub (V i l) (K i)) (K 3)
      let poi (l : Nat) := P 0 l || P 1 l || P 2 l
      (∀ nx ny nz, voxCount (K 4) = some nx → voxCount (K 5) = some ny → voxCount (K 6) = some nz → Gives (.vvox a x) s fun t =>
        VecDone u t n 2 10 [.lanes (gov.map fun l =>
          let inside (i m : Nat) : Bool := fIsFin (q i l) && decide (0 ≤ fFloor (q i l)) && decide (fFloor (q i l) < (m : Int))
          (x.vd * 64 + l, (if inside 0 nx && inside 1 ny && inside 2 nz then
            BitVec.ofInt 32 (fFloor (q 0 l) + nx * (fFloor (q 1 l) + ny * fFloor (q 2 l))) else 0xFFFFFFFF), poi l))]) ∧
      (voxCount (K 4) = none ∨ voxCount (K 5) = none ∨ voxCount (K 6) = none → ∃ any : Nat → Word, Gives (.vvox a x) s fun t =>
        VecDone u t n 2 10 [.lanes (gov.map fun l => (x.vd * 64 + l, any l, poi l))])) ∧
    (vxOk 0x38 x = true → Gives (.vrset a x) s fun t => ∃ g : Gen,
      [g.keyLo, g.keyHi, g.stream, g.idxHi, g.rinc] = [pbGet c p, pbGet c (p + 1), pbGet c (p + 2), pbGet c (p + 4), pbGet c (p + 5)] ∧
      g.round = (pbGet c (p + 3)).toNat % 2 ^ 24 ∧ (∀ l, l < 64 → mget word0 g.ri l = laneGet c x.va l) ∧
      VecDone u t n 2 6 [.gen g]) ∧
    (vxOk 0x39 x = true → Gives (.vrand a x) s fun t => VecDone u t n 2 6 [.lanes (gov.map fun l =>
      let e := genIndex c.gen l a.j
      (x.vd * 64 + l, (match x.arg / 256 % 4 with
        | 0 => BitVec.ofNat 32 (genWord c.gen (x.arg % 256) e)
        | 1 => fw (.fin false (genWord c.gen (x.arg % 256) e / 256) (-24))
        | _ => BitVec.ofNat 32 (genSlice c.gen (x.arg % 256) e)), false))]) ∧
    (vxOk 0x3A x = true →
      let kept (l : Nat) : Bool := x.arg % 256 ≤ genSlice c.gen 2 (genIndex c.gen l a.j)
      let k := x.arg / 256 % 8
      Gives (.vdrop a x) s fun t => VecDone u t n 2 6 ([.lanes (gov.map fun l => (x.vd * 64 + l,
        (if kept l then fw (mul (V 0 l) (laneF c x.vb l)) else 0), P 0 l || laneP c x.vb l))] ++
        (if k = 0 then [] else [.mask k (maskSet 0 gov kept)]))) ∧
    (vxOk 0x3B x = true → Gives (.vgumb a x) s fun t => VecDone u t n 2 6 [.lanes (gov.map fun l =>
      let y := mul (V 0 l) (laneF c x.vb l)
      let log (v : FVal) : FVal := (numRun (vlog c (x.arg % 8) v)).1
      let w := genWord c.gen 3 (genIndex c.gen l a.j)
      let g := fNegate (log (max32 (fNegate (log (.fin false (w / 256 + 1) (-24)))) (fPow2 (-30))))
      out 0 l (if bitN x.arg 3 then y else add y g) (P 0 l || laneP c x.vb l))]) ∧
    (vxOk 0x3C x = true →
      let k := x.arg / 64 % 8
      Gives (.voptq a x) s fun t => VecDone u t n 2 8 ([.lanes (gov.flatMap fun l =>
        let r := quant (V 0) (K 0) (K 1) l
        let q := halfPois c [x.va] gov l
        [out 0 l r.1 q, out 1 l r.2 q])] ++
        (if k = 0 then [] else [.maskOr k (maskSet 0 gov fun l => !fIsFin (V 0 l))]))) ∧
    (vxOk 0x3D x = true →
      let g (l : Nat) := mul (V 1 l) (mul (mul (V 2 l) (K 0)) (K 1))
      let m2 (l : Nat) := fma (K 2) (mul (V 3 l) (mul (V 4 l) (K 6))) (mul (K 3) (g l))
      let r (l : Nat) := mul (V 5 l) (mul (V 6 l) (K 7))
      let u2 (l : Nat) := rne32 (fSqrtX (fma (K 4) (mul (r l) (r l)) (mul (mul (g l) (g l)) (K 5))))
      let w2 (l : Nat) := sub (fma (fNegate (K 14)) (V 0 l) (V 0 l)) (mul (mul (m2 l) (rcp (add (u2 l) (K 13)))) (K 12))
      let srcs := (upto 7).map fun i => x.va + i
      let two (o : Nat) (W : Nat → FVal) (invS kk : FVal) := gov.flatMap fun l =>
        let v := quant W invS kk l
        [out o l v.1 (halfPois c srcs gov l), out (o + 1) l v.2 (halfPois c srcs gov l)]
      Gives (.voptu a x) s fun t => VecDone u t n 2 8 [.lanes ((gov.map fun l => out 0 l (w2 l) (srcs.any fun i => laneP c i l)) ++
        two 1 m2 (K 8) (K 9) ++ two 3 u2 (K 10) (K 11))])

/-- For each of the 50 vector operations, every core, operand and state with the invariant, let u be the state after the
advancing beats that precede: a reserved encoding is refused; where the field does not act (it is not its turn, its
GUARD does not hold, or something blocks the beat) the operation changes nothing; where it acts, an operation that reads
no memory completes on every operand; and if it answers a next state (no stored word being damaged and, for VSCAT, no
index poisoned), the memories, the other cores, the vector registers and their poison, the masks, PB, the tables, the
drain record and the generator of its own core, and every register outside the cluster blocks, the block of its core,
PWR and RAS are those of u. Its results and stores take effect only when they are due. The model's choices in it, by
entry of the assumption log: 7 (when a command of a bar acts); 90 (fields of other forms of an operation). -/
def Obligations.VectorCommandsTouchOnlyTheirCore : Prop :=
  ∀ (s : State) (a : At) (x : VxArgs) (par : Bool) (flt : List (Nat × Int)), Machine.Inv s → a.core < 32 →
    let n := a.core
    let u := adv s (n / 4) a.dt
    ∀ e ∈ ([(0x01, .vld a x), (0x03, .vldr a x), (0x05, .vgath a x), (0x07, .vbcast a x), (0x08, .vpld a x), (0x09, .vlutld
      a x), (0x0A, .drcfg a x), (0x0C, .vunpk a x), (0x0D, .viota a x), (0x10, .vadd a x), (0x11, .vsub a x), (0x12,
      .vmul a x), (0x13, .vfma a x), (0x14, .vmin a x), (0x15, .vmax a x), (0x16, .vabs a x), (0x17, .vneg a x),
      (0x18, .vand a x), (0x19, .vor a x), (0x1A, .vxor a x), (0x1B, .vshl a x), (0x1C, .vshr a x), (0x1D, .vcvt a x),
      (0x1E, .vcmp a x), (0x1F, .vsel a x), (0x20, .vdot4 a x), (0x21, .vlut a x), (0x22, .vrcp a x), (0x23, .vrsqrt a
      x), (0x24, .vexp2 a x), (0x28, .vrsum a x), (0x29, .vrmax a x), (0x2A, .vrmin a x), (0x2B, .vrargmax a x),
      (0x2C, .vsort a x), (0x2D, .vmerge a x), (0x30, .vxform a x), (0x31, .vproj a x), (0x32, .vdepth a x), (0x33,
      .vvox a x), (0x38, .vrset a x), (0x39, .vrand a x), (0x3A, .vdrop a x), (0x3B, .vgumb a x), (0x3C, .voptq a x),
      (0x3D, .voptu a x), (0x02, .vst a x par), (0x04, .vstr a x par), (0x06, .vscat a x par), (0x0B, .drain a x flt)] : List (Nat × Instr)),
      (vxOk e.1 x = false → exec e.2 s = .refused .reservedEncoding) ∧
      (vxOk e.1 x = true → vxTurn u a = false → exec e.2 s = .next u) ∧
      (vxOk e.1 x = true → vxTurn u a = true → 0x0C ≤ e.1 → e.1 ≠ 0x20 ∨ x.va ≠ 31 → Gives e.2 s fun _ => True) ∧
      ∀ t, u.mem.ecc = [] → (e.1 = 0x06 → ∀ l, laneP (coreOf u n) x.vb l = false) → exec e.2 s = .next t →
        t.mem = u.mem ∧ (∀ m, m ≠ n → coreOf t m = coreOf u m) ∧
        (coreOf t n).vreg = (coreOf u n).vreg ∧ (coreOf t n).vpois = (coreOf u n).vpois ∧ (coreOf t n).masks = (coreOf u n).masks ∧
        (coreOf t n).pb = (coreOf u n).pb ∧ (coreOf t n).tabs = (coreOf u n).tabs ∧ (coreOf t n).drec = (coreOf u n).drec ∧
        (coreOf t n).gen = (coreOf u n).gen ∧
        t = { (if vxTurn u a then acted u (n / 4) (actKey n 2) else u) with cores := t.cores, rf := { u.rf with val := t.rf.val }, rasEvt := t.rasEvt, free := t.free } ∧
        ∀ r, (regBlk r < 0x10 ∨ 0x18 ≤ regBlk r) → regBlk r ≠ 0x20 + n → regBlk r ≠ 0x70 → regBlk r ≠ 0x74 → rd t r = rd u r

/-- For a cluster whose four cores have nothing else in hand and whose bar lets L beats advance, and one core with lanes
on their way that are due L beats after the current one (L at least 1): while fewer than L beats have advanced, the core
is as it was; after L beats exactly the named lanes hold the named values and poison bits, and nothing else of the core
has changed. The other cores of the cluster do not change. The model's choices in it, by entry of the assumption log: 7
(when a command of a bar acts). -/
def Obligations.ResultsLandWhenDue : Prop :=
  ∀ (s : State) (k p lat born : Nat) (ws : List (Nat × Word × Bool)), Machine.Inv s → k < 8 → p < 4 → 1 ≤ lat →
    (∀ d, d < lat → beatGo (adv s k d) k = true) →
    (∀ q, q < 4 → let c := coreOf s (4 * k + q)
      c.mx = [] ∧ c.used = [] ∧ c.late = [] ∧ (q ≠ p → c.pend = [])) →
    (coreOf s (4 * k + p)).pend = [⟨(clu s k).beat + lat - 1, born, .lanes ws⟩] →
    (∀ d, d < lat → coreOf (adv s k d) (4 * k + p) = coreOf s (4 * k + p)) ∧
    coreOf (adv s k lat) (4 * k + p) = lanesPut { coreOf s (4 * k + p) with pend := [] } ws ∧
    ∀ m, m ≠ 4 * k + p → coreOf (adv s k lat) m = coreOf s m

/-- For a core and a state with the invariant, let u be the state after the advancing beats that precede. MMUL and
MMUL_START of a reserved encoding are refused; outside beat 0, where the GUARD does not hold, or where it is not their
turn, they change nothing; where no matrix instruction has issued in the cluster's beat and the bucket holds less than
one, the beat blocks with PWR_THROTTLE; where something else blocks the beat, they only end their own block of it.
Otherwise, with operand addresses inside the core's SPM, the instruction joins the array behind the others with the
valid rows and columns that the last-tile rule leaves, starting a chain if it is MMUL_START, or by the K index with
AUTO; the bucket pays once per beat and cluster; no other core, no memory and nothing else of the core changes. The
model's choices in it, by entry of the assumption log: 5 (faults come as operands); 7 (when a command of a bar acts); 9
(a command that blocks acts no further); 60 (what a cluster's and a core's enable gate). -/
def Obligations.MatrixInstructionsEnterTheArray : Prop :=
  ∀ (s : State) (a : At) (m : MxArgs) (flt : List (Nat × Int)), Machine.Inv s → a.core < 32 →
    let n := a.core
    let k := n / 4
    let u := adv s k a.dt
    ∀ e ∈ ([(false, .mmul a m flt), (true, .mmulStart a m flt)] : List (Bool × Instr)),
      (mxOk e.1 m = false → exec e.2 s = .refused .reservedEncoding) ∧
      (mxOk e.1 m = true → a.j ≠ 0 ∨ guardOk u n = false ∨ fieldTurn u a 1 = false → exec e.2 s = .next u) ∧
      (mxOk e.1 m = true → a.j = 0 → guardOk u n = true → fieldTurn u a 1 = true →
        (mxSpent u k = false → (clu u k).bucket < 16384 → exec e.2 s = .next (blockBeat u k (n % 4) 4)) ∧
        (mxSpent u k = true ∨ 16384 ≤ (clu u k).bucket → (∃ b ∈ (clu u k).held, b ≠ blocker (n % 4) 4) →
          exec e.2 s = .next (through u k (blocker (n % 4) 4))) ∧
        (mxSpent u k = true ∨ 16384 ≤ (clu u k).bucket → (∀ b ∈ (clu u k).held, b = blocker (n % 4) 4) → ∀ p rows b x, pairOf m.wfmt m.afmt = some p →
          let nr := cutBy (m.rows + 1) (coreValid u k 0)
          let nc := cutBy (m.cols + 1) (coreValid u k 4)
          (0 < nr → 0 < nc → mxRows u n p nr = .ok rows ∧
            coreAddr u n 1 0 (if p = .f8 then 4096 + (if m.sub32 then 128 else 64) else 64 * bPitch p) = .ok b ∧
            (p = .f8 → coreAddr u n 3 0 (if m.sub32 then 128 else 64) = .ok x)) →
          Gives e.2 s fun t => ∃ f : MxFlight, coreOf t n = { coreOf u n with mx := (coreOf u n).mx ++ [f] } ∧
            f.issue = (clu u k).beat ∧ f.plane = m.plane ∧ f.rq = m.rq ∧ f.nr = nr ∧ f.nc = nc ∧ f.a = [] ∧ f.b = [] ∧
            f.start = (e.1 || (m.auto && autoStarts u k)) ∧
            ((clu u k).running = true → actKey n 1 ∈ (clu t k).acted) ∧ heldAny t k = false ∧
            (clu t k).bucket = (if mxSpent u k then (clu u k).bucket else (clu u k).bucket - 16384) ∧
            (∀ j, j ≠ n → coreOf t j = coreOf u j) ∧ (∀ j, j ≠ k → clu t j = clu u j) ∧ t.mem = u.mem ∧
            ∀ r, r ∉ [rNcWinStatus n, rNcWinMissCnt n, rPwrAct k 0, rPwrAct k 1, rPwrAct k 2] → rd t r = rd u r))

/-- For every integer operand pair, the predicted residue of an element is its exact sum modulo 7. In a state with the
invariant, a valid row of an instruction of such a pair, with no injected fault, lands so: if it starts the chain, each
valid element is the exact sum of its products, its shadow that sum modulo 7; if it continues the chain on a row without
saturation, each element is the old element plus the exact sum, clamped to INT32, and, where no clamp is needed, a
shadow that matched the old element matches the new one. No residue mismatch is raised, and no other core and no memory
changes. The model's choices in it, by entry of the assumption log: 5 (faults come as operands); 7 (when a command of a
bar acts); 79 (row sums that saturate). -/
def Obligations.IntegerRowsLandExactly : Prop :=
  (∀ (p : Pair) (afmt : Nat) (row : List Byte) (rows : List (List Byte)) (c : Nat), pairInt p = true →
    residue p afmt row rows c = mod7 (intSum p afmt row rows c)) ∧
  ∀ (s : State) (n r : Nat) (f : MxFlight) (p : Pair), Machine.Inv s → n < 32 → pairOf f.wfmt f.afmt = some p → pairInt p = true →
    r < f.nr → f.nr ≤ 64 → 0 < f.nc → f.nc ≤ 64 → f.plane < 16 → f.flt = [] →
    mwf word0 (coreOf s n).acc = true → mwf nat0 (coreOf s n).shadow = true →
    let t := rowLand s n f r
    let sum (col : Nat) := intSum p f.afmt (f.a.getD r []) f.b col
    let old (col : Nat) := accGet (coreOf s n) f.plane r col
    (∀ col, col < f.nc →
      (f.start = true → accGet (coreOf t n) f.plane r col = BitVec.ofInt 32 (sum col) ∧
        shGet (coreOf t n) f.plane r col = mod7 (sum col)) ∧
      (f.start = false →
        accGet (coreOf t n) f.plane r col = BitVec.ofInt 32 (max (-2147483648) (min 2147483647 ((old col).toInt + sum col))) ∧
        (shGet (coreOf s n) f.plane r col = mod7 (old col).toInt →
          -2147483648 ≤ (old col).toInt + sum col → (old col).toInt + sum col ≤ 2147483647 →
          shGet (coreOf t n) f.plane r col = mod7 (accGet (coreOf t n) f.plane r col).toInt))) ∧
    rd t (rNcResStatus n) = rd s (rNcResStatus n) ∧ rd t (rNcResCnt n) = rd s (rNcResCnt n) ∧ t.rasEvt = s.rasEvt ∧
    (∀ m, m ≠ n → coreOf t m = coreOf s m) ∧ t.mem = s.mem

/-- For a core whose VX field acts now and no injected upset, DRAIN completes. A row that no instruction has left valid
is not written. With no valid record, zeros, poisoned, go to the governed columns of the row's extent, in VD or at
stream OUT. With a valid record on the floating-point path, or on the integer path with an undamaged row scale in the
core's SPM and no residue mismatch in the row, each of those columns gets its converted value: as FP32 in VD, or in the
output format at stream OUT, with the poison of the row (and of the scale). The result is due 6 beats after the issue,
and nothing else changes but flags and counters. The model's choices in it, by entry of the assumption log: 5 (faults
come as operands); 7 (when a command of a bar acts); 89 (corners of formats and reads). -/
def Obligations.DrainConvertsOneRow : Prop :=
  ∀ (s : State) (a : At) (x : VxArgs), Machine.Inv s → a.core < 32 →
    let n := a.core
    let u := adv s (n / 4) a.dt
    let c := coreOf u n
    let plane := x.arg % 16
    let jj := x.arg / 32 % 64 + a.j
    let q := jj % 64
    let cols := (govLanes c x.mask).filter (· < (rowGet c plane q).nc)
    let f := drecFlags c
    let toVd := bitN x.arg 4
    let rowDone (srow : FVal) (p : Bool) (t : State) : Prop :=
      (toVd = true → VecDone u t n 2 6 [.lanes (cols.map fun col =>
        (x.vd * 64 + col, fw (numRun (drainY c plane q col srow)).1, p || (rowGet c plane q).pois))]) ∧
      (toVd = false → ∀ ad, coreAddr u n 2 jj (8 * fmtBits (bitsN f 4 4)) = .ok ad → VecDone u t n 2 6 [.mem 0 (drainBytes ad
        (fmtBits (bitsN f 4 4)) (cols.map fun col => (col, (numRun (do
          let y ← drainY c plane q col srow
          drainOut c (mdOf c (bitsN f 8 2) col jj) y)).1)) (p || (rowGet c plane q).pois))])
    vxOk 0x0B x = true → vxTurn u a = true →
    ((rowGet c plane q).valid = false → Gives (.drain a x []) s fun t => VecDone u t n 2 6 []) ∧
    ((rowGet c plane q).valid = true → c.drecOk = false →
      (toVd = true → Gives (.drain a x []) s fun t => VecDone u t n 2 6 [.lanes (cols.map fun col => (x.vd * 64 + col, (0 : Word), true))]) ∧
      (toVd = false → ∀ ad, coreAddr u n 2 jj 256 = .ok ad → Gives (.drain a x []) s fun t =>
        VecDone u t n 2 6 [.mem 0 (cols.flatMap fun col => laneBytes (ad + 4 * col) 4 0 true)])) ∧
    ((rowGet c plane q).valid = true → c.drecOk = true → (toVd = false → ∃ ad, coreAddr u n 2 jj (8 * fmtBits (bitsN f 4 4)) = .ok ad) →
      (bitsN f 0 2 ≠ 0 → Gives (.drain a x []) s (rowDone fZero false)) ∧
      (bitsN f 0 2 = 0 → ∀ sd, coreAddr u n 3 jj 4 = .ok sd → u.mem.ecc = [] →
        (∀ col, col < 64 → mod7 (accGet c plane q col).toInt = shGet c plane q col) →
        Gives (.drain a x []) s (rowDone (dec32 (BitVec.ofNat 32 (ramNat u sd 4))) ((runWords (sd, 4)).any (poisGet u)))))

/-- For a core, let u be the state after the advancing beats that precede. A field of MV that does not act (its GUARD
not holding, or not its turn) changes nothing. Where it acts and nothing else blocks the beat: SCLAIM in beat 0 makes an
EMPTY slot FILLING for the core, passes where the core's own fill is under way, and blocks otherwise. SCOMMIT in beat 0
puts the commit behind the last write of the core to the slot that is on its way and was issued in an earlier beat; when
it lands, a slot EMPTY or FILLING for the core becomes FULL, one that is FULL raises COMMIT_BAD, an INVALID one stays.
MCOPY and MTRANS, with their streams inside the SPM, no damaged word and the beat not masked, put the bytes of the
source, with the poison of their words, on their way to the destination, 3 beats later; a masked beat does nothing more;
a reserved pitch or element size is refused. The model's choices in it, by entry of the assumption log: 7 (when a
command of a bar acts); 9 (a command that blocks acts no further). -/
def Obligations.MoveFieldClaimsCommitsCopies : Prop :=
  (∀ (s : State) (a : At) (slot : Nat), Machine.Inv s → a.core < 32 → slot < 512 →
    let n := a.core
    let u := adv s (n / 4) a.dt
    let key := n * 512 + slot
    let b := blocker (n % 4) 1
    let w := passed u (n / 4) b (actKey n 3)
    (mvDue u a = false → exec (.sclaim a slot) s = .next u) ∧ (mvTurn u a = false → exec (.scommit a slot) s = .next u) ∧
    (mvDue u a = true → heldAny u (n / 4) = false → a.j ≠ 0 →
      exec (.sclaim a slot) s = .next (acted u (n / 4) (actKey n 3)) ∧
      exec (.scommit a slot) s = .next (acted u (n / 4) (actKey n 3))) ∧
    (mvDue u a = true → a.j = 0 → u.mem.tagUps = [] →
      ((∀ x ∈ (clu u (n / 4)).held, x = b) → (slotGet u key).tag = .empty →
        exec (.sclaim a slot) s = .next (slotPut w key ⟨.filling, .loc, .core n⟩)) ∧
      ((∃ x ∈ (clu u (n / 4)).held, x ≠ b) → (slotGet u key).tag = .empty → exec (.sclaim a slot) s = .next w) ∧
      ((slotGet u key).tag = .filling → (slotGet u key).owner = .core n → exec (.sclaim a slot) s = .next w) ∧
      ((slotGet u key).tag ≠ .empty → ¬((slotGet u key).tag = .filling ∧ (slotGet u key).owner = .core n) →
        exec (.sclaim a slot) s = .next (blockBeat u (n / 4) (n % 4) 1))) ∧
    (mvTurn u a = true → a.j = 0 → Gives (.scommit a slot) s fun t => ∃ due, (clu u (n / 4)).beat ≤ due ∧
      (∀ p ∈ (coreOf u n).pend, p.born < (clu u (n / 4)).beat →
        (∃ b ∈ pendBytes p.w, memBase n + slot * 4096 ≤ b ∧ b < memBase n + slot * 4096 + 4096) → p.due ≤ due) ∧
      (due = (clu u (n / 4)).beat ∨ ∃ p ∈ (coreOf u n).pend, p.born < (clu u (n / 4)).beat ∧ p.due = due) ∧
      coreOf t n = { coreOf u n with pend := (coreOf u n).pend ++ [⟨due, (clu u (n / 4)).beat, .commit slot⟩] } ∧
      t = { acted u (n / 4) (actKey n 3) with cores := t.cores } ∧ ∀ m, m ≠ n → coreOf t m = coreOf u m)) ∧
  (∀ (s : State) (n slot : Nat), Machine.Inv s → n < 32 → slot < 512 →
    let key := n * 512 + slot
    let v := slotGet s key
    let t := land s n (.commit slot)
    s.mem.tagUps = [] →
    (v.tag = .empty → t = slotPut s key ⟨.full, .loc, .core n⟩) ∧
    (v.tag = .filling → v.owner = .core n → t = slotPut s key { v with tag := .full }) ∧
    (v.tag = .full ∨ (v.tag = .filling ∧ v.owner ≠ .core n) → rdB t (rCluTagStatus (n / 4)) 1 = true ∧ t.mem = s.mem) ∧
    (v.tag = .invalid → t = s)) ∧
  (∀ (s : State) (a : At) (src dst : Nat), Machine.Inv s → a.core < 32 →
    let n := a.core
    let u := adv s (n / 4) a.dt
    (∀ len, mvTurn u a = false → exec (.mcopy a src dst len) s = .next u) ∧
    (∀ e pitch cnt, e < 3 → 0 < pitch → pitch < 2 ^ 14 → mvTurn u a = false → exec (.mtrans a src dst e pitch cnt) s = .next u) ∧
    (∀ len, mvTurn u a = true → u.mem.ecc = [] → len < 256 →
      (mvMasked u n a.j = true → exec (.mcopy a src dst len) s = .next (acted u (n / 4) (actKey n 3))) ∧
      (mvMasked u n a.j = false → ∀ x y, coreAddr u n src a.j (len + 1) = .ok x → coreAddr u n dst a.j (len + 1) = .ok y →
        Gives (.mcopy a src dst len) s fun t => VecDone u t n 3 3 [.mem 2 (runWrites y (ramGet u x (len + 1))
          ((upto (len + 1)).map fun i => poisGet u ((x + i) / 32)))])) ∧
    (∀ e pitch cnt, mvTurn u a = true → u.mem.ecc = [] → e < 3 → 0 < pitch → pitch < 2 ^ 14 → cnt < 32 →
      (mvMasked u n a.j = true → exec (.mtrans a src dst e pitch cnt) s = .next (acted u (n / 4) (actKey n 3))) ∧
      (mvMasked u n a.j = false → ∀ x y, coreAddr u n src a.j (cnt * pitch * 32 + 2 ^ e) = .ok x →
        coreAddr u n dst a.j ((cnt + 1) * 2 ^ e) = .ok y →
        Gives (.mtrans a src dst e pitch cnt) s fun t => VecDone u t n 3 3 [.mem 2 (mvWrites y ((upto (cnt + 1)).map fun i =>
          (ramGet u (x + i * pitch * 32) (2 ^ e), (runWords (x + i * pitch * 32, 2 ^ e)).any (poisGet u))))])) ∧
    (∀ e pitch cnt, 3 ≤ e ∨ pitch = 0 ∨ 2 ^ 14 ≤ pitch → exec (.mtrans a src dst e pitch cnt) s = .refused .reservedEncoding))

/-- For a cluster k, let u be the state after the advancing beats that precede, with a loaded nest whose two streams are
enabled. An operation of the cluster slot whose turn it is not changes nothing. Where it is its turn, with nothing else
blocking the beat: XFER that does not merge adds the row transfer of the current step (with PF = d, of the step d passes
ahead, if there is one; else it only passes); XPRE that of nest m at step τ, if the nest has it; RING one transfer per
member to the next member, HALO one per member within its own record, filling as HALO. None changes a core or a byte of
memory. While the list has no room for them, the beat blocks and nothing enters; while something else blocks the beat,
nothing enters either. FENCE passes when the list is empty and blocks otherwise. A mask or encoding that the spec
reserves is refused; a stream without a nest faults. The model's choices in it, by entry of the assumption log: 7 (when
a command of a bar acts); 9 (a command that blocks acts no further). -/
def Obligations.TransfersEnterThePendingList : Prop :=
  ∀ (s : State) (c : CAt), Machine.Inv s → c.cl < 8 →
    let k := c.cl
    let u := adv s k c.dt
    let turn : Prop := kslotTurn u k = true
    let room (n : Nat) : Prop := (clu u k).xfers.length + n ≤ 64
    let mine : Prop := ∀ b ∈ (clu u k).held, b = blocker 4 0
    let w := passed u k (blocker 4 0) kslotKey
    let entered (t : State) (y : Xfer) : Prop := y ∈ (clu t k).xfers ∧ heldAny t k = false ∧ t.cores = u.cores ∧
      t.mem.sram = u.mem.sram ∧ ((clu u k).running = true → kslotKey ∈ (clu t k).acted) ∧ ∀ j, j ≠ k → clu t j = clu u j
    let noMerge (y : Xfer) : Prop := ∀ p, (clu u k).xfers.getLast? = some p → mayMerge p y = false
    (∀ x, xOk false x = false → exec (.xfer c x) s = .refused .reservedEncoding) ∧
    (¬turn → (∀ x, xOk false x = true → exec (.xfer c x) s = .next u) ∧
      (∀ x, xOk true x = true → (∀ b ∈ (descAt u k x.nest).src, b ≠ 0xF) → exec (.xpre c x) s = .next u) ∧
      (∀ r, maskOk (classCores (rd s rEngProgClass)) r.mask = true → r.len < 2 ^ 14 → exec (.ring c r) s = .next u) ∧
      (∀ r, r.mask < 16 → r.len < 2 ^ 12 → r.rows < 256 → exec (.halo c r) s = .next u) ∧ exec (.fence c) s = .next u) ∧
    (turn → ∀ x ns, xOk false x = true → (clu u k).nest = some ns → xStrmOk ns x = true → (x.pf ≠ 0 → ns.inBody = true) →
      (x.pf ≠ 0 → steps ns ≤ ns.pass + x.pf → exec (.xfer c x) s = .next w) ∧
      (x.pf = 0 ∨ ns.pass + x.pf < steps ns →
        let y := rowXfer u k ns (if x.pf = 0 then ns.idx else idxAfter ns (ns.pass + x.pf)) x
        (room 1 → mine → noMerge y → 0 < opCount y → Gives (.xfer c x) s (entered · y)) ∧
        (room 1 → ¬mine → exec (.xfer c x) s = .next w) ∧
        (¬room 1 → exec (.xfer c x) s = .next (blockBeat u k 4 0)))) ∧
    (turn → ∀ x, xOk false x = true → (clu u k).nest = none → x.pf = 0 → exec (.xfer c x) s = .fault .noNest) ∧
    (turn → ∀ x, xOk true x = true →
      let ns := enterNest u k x.nest 0
      let y := rowXfer u k ns (idxAfter ns x.step) x
      (∀ b ∈ ns.desc.src, b ≠ 0xF) → xStrmOk ns x = true →
      (steps ns ≤ x.step → exec (.xpre c x) s = .next w) ∧
      (x.step < steps ns → (room 1 → mine → noMerge y → 0 < opCount y → Gives (.xpre c x) s (entered · y)) ∧
        (room 1 → ¬mine → exec (.xpre c x) s = .next w) ∧
        (¬room 1 → exec (.xpre c x) s = .next (blockBeat u k 4 0)))) ∧
    (turn → ∀ r ns, rStrm u k r = .ok ns →
      let n := (bitList 4 r.mask).length
      (maskOk (classCores (rd s rEngProgClass)) r.mask = true → r.mask < 16 → r.len < 2 ^ 14 →
        (room n → mine → Gives (.ring c r) s fun t => ∀ p ∈ bitList 4 r.mask, ∃ y : Xfer, entered t y ∧
          y.src = recAddr u k p ns r.src ∧ y.dst = recAddr u k (nextMember r.mask r.dir p) ns r.dst ∧
          y.rowLen = (r.len + 1) * 256 ∧ y.rows = 1 ∧ y.dirDec = r.dir ∧ y.swait = r.swait ∧ y.srel = r.srel ∧ y.commit = r.commit) ∧
        (room n → ¬mine → exec (.ring c r) s = .next w) ∧
        (¬room n → exec (.ring c r) s = .next (blockBeat u k 4 0))) ∧
      (r.mask < 16 → r.len < 2 ^ 12 → r.rows < 256 →
        (room n → mine → Gives (.halo c r) s fun t => ∀ p ∈ bitList 4 r.mask, ∃ y : Xfer, entered t y ∧
          y.src = recAddr u k p ns r.src ∧ y.dst = recAddr u k p ns r.dst ∧
          y.rowLen = (r.len + 1) * 32 ∧ y.rows = r.rows + 1 ∧ y.cls = .halo) ∧
        (room n → ¬mine → exec (.halo c r) s = .next w) ∧
        (¬room n → exec (.halo c r) s = .next (blockBeat u k 4 0)))) ∧
    (turn → (clu u k).xfers = [] → exec (.fence c) s = .next w) ∧
    (turn → (clu u k).xfers ≠ [] →
      exec (.fence c) s = .next (blockBeat u k 4 (if (clu u k).xfers.any (xferRemote u) then 6 else 0)))

/-- In a state with the invariant, no damaged word and no upset tag or parity. TRANSFER_OPERATION_ISSUE of a transfer
whose cluster is enabled, whose own-chip source slots are ready, whose core has room and whose ring is not held by a
blocked beat adds its next operation; without these it changes nothing; an operation to another chip that no window lets
through is refused, counted, and adds none. TRANSFER_READ_RETURN of a ring operation gives it the stored bytes with the
poison of their words. TRANSFER_WRITE_ARRIVE at a memory of this chip, not stale, let through by the firewall (ring
operations pass it) and with room in the hold store: in an EMPTY slot for which no older write is held, or in one
FILLING for the same cluster, the bytes are stored, no other byte changes and the slot is FILLING for the cluster; else
the write is held, and no byte and no slot changes. TRANSFER_COMMIT of a written ring transfer that no earlier one still
fills makes each of its slots that is FILLING for the cluster, and none of whose writes was refused, FULL, and the
transfer leaves the list. HOLD_STORE_LAND at an EMPTY slot begins the fill of its oldest held write and takes the held
writes of that issuer for that slot out of the store. The model's choices in it, by entry of the assumption log: 5
(faults come as operands); 67 (the three moments of an operation); 77 (the limit of 256 operations); 82 (which blocked
beats hold the ring); 83 (source slots on another chip). -/
def Obligations.TransferOperationsRespectSlots : Prop :=
  (∀ (s : State) (k xid : Nat) (x : Xfer) (o : Nat × Nat × Nat × Nat) (p : XPart), Machine.Inv s → k < 8 → xferOf s k xid = some x →
    (xferOps x)[x.next]? = some o → partAt o.2.1 (rowParts x o.1) = some p → s.mem.tagUps = [] →
    let core := chargeOf s k (rowSrcA x o.1) o.2.2.1
    let first := x.swait = true ∧ x.next = 0
    let full := ∀ key ∈ srcKeys s x, (slotGet s key).tag = .full
    let stopped := rdB s (rCluCtl k) 0 = false ∨ 256 ≤ ((clu s k).ops.filter fun y => y.core == core).length ∨
      (p.ring = true ∧ ringHeld s k = true)
    (stopped ∨ (first ∧ ¬full) → exec (.transferOperationIssue k xid) s = .next s) ∧
    (¬stopped → (first → full ∧ x.src / 2 ^ 40 = ownChip s) → 
      (p.masked = false → truncI 64 ((rowSrcA x o.1 + o.2.1 : Nat) : Int) / 2 ^ 40 = ownChip s → o.2.2.1 / 2 ^ 40 = ownChip s →
        Gives (.transferOperationIssue k xid) s fun t =>
          ∃ y : XOp, (clu t k).ops = (clu s k).ops ++ [y] ∧ y.xid = xid ∧ y.ix = x.next ∧ y.dst = o.2.2.1 ∧ y.len = o.2.2.2 ∧
            y.src = truncI 64 ((rowSrcA x o.1 + o.2.1 : Nat) : Int) ∧ y.core = core ∧ y.data = none ∧
            t = { s with clus := t.clus }) ∧
      (o.2.2.1 / 2 ^ 40 ≠ ownChip s → winOf s true o.2.2.1 = none → Gives (.transferOperationIssue k xid) s fun t =>
        rd t rMemDenyCnt = rd s rMemDenyCnt + 1 ∧ (clu t k).ops = (clu s k).ops ∧ t.mem.dram = s.mem.dram))) ∧
  (∀ (s : State) (k xid ix : Nat) (y : XOp), Machine.Inv s → k < 8 → s.mem.ecc = [] → s.mem.tagUps = [] →
    ((clu s k).ops.find? fun y => y.xid == xid && y.ix == ix) = some y → y.ring = true → y.data = none → y.tag = none →
    scrubbing s (y.src % 2 ^ 40) = false →
    (ringHeld s k = true → exec (.transferReadReturn k xid ix) s = .next s) ∧
    (ringHeld s k = false → Gives (.transferReadReturn k xid ix) s fun t =>
      ∃ z : XOp, ((clu t k).ops.find? fun y => y.xid == xid && y.ix == ix) = some z ∧
        z.data = some (ramGet s (y.src % 2 ^ 40) y.len, (upto y.len).map fun i => poisGet s ((y.src % 2 ^ 40 + i) / 32)) ∧
        t.mem.sram = s.mem.sram)) ∧
  (∀ (s : State) (k xid ix m : Nat) (y : XOp) (bs : List Byte) (ps : List Bool), Machine.Inv s → k < 8 → s.mem.ecc = [] →
    s.mem.tagUps = [] → s.mem.parUps = [] →
    ((clu s k).ops.find? fun y => y.xid == xid && y.ix == ix) = some y → y.data = some (bs, ps) → y.sent = false →
    opBehind s k y = false → (y.ring = true → ringHeld s k = false) → y.dst / 2 ^ 40 = ownChip s →
    let a := y.dst % 2 ^ 40
    let key := a % 0x2000000000 / 4096
    let lands := ((slotGet s key).tag = .empty ∧ ∀ h ∈ s.mem.holds, heldKey h ≠ key) ∨
      ((slotGet s key).tag = .filling ∧ (slotGet s key).owner = .cluster k)
    memAt a = some m → (y.ring = true ∨ accessCode s (whoClu k y.job) true a = 0) → ps.length = bs.length → bs ≠ [] →
    isStale s m y.epoch = false → (heldOf s m).length < 64 →
    (lands → Gives (.transferWriteArrive k xid ix false) s fun t => ramGet t a bs.length = bs ∧
        (∀ b, b < a ∨ a + bs.length ≤ b → mget byte0 t.mem.sram b = mget byte0 s.mem.sram b) ∧
        (slotGet t key).tag = .filling ∧ (slotGet t key).owner = .cluster k ∧
        (∀ j, j ≠ key → slotGet t j = slotGet s j) ∧ t.cores = s.cores) ∧
    (¬lands → Gives (.transferWriteArrive k xid ix false) s fun t => t.mem.sram = s.mem.sram ∧ t.mem.slots = s.mem.slots ∧
        (∃ h : Held, t.mem.holds = s.mem.holds ++ [h] ∧ h.mem = m ∧ h.addr = a ∧ h.owner = .cluster k ∧ h.data = bs ∧ h.pois = ps) ∧
        rd t (rCluHoldCnt (memClu m)) = rd s (rCluHoldCnt (memClu m)) + 1)) ∧
  (∀ (s : State) (k xid : Nat) (x : Xfer), Machine.Inv s → k < 8 → xferOf s k xid = some x → x.commit = true → xferWritten x = true →
    (∀ z ∈ (clu s k).xfers.takeWhile (fun z => z.id != xid), ∀ q ∈ dstKeys z, q ∉ dstKeys x) → x.ring = true → x.epoch = 0 →
    (∀ q ∈ dstKeys x, q.1 = ownChip s) → s.mem.tagUps = [] → ringHeld s k = false → Gives (.transferCommit k xid) s fun t =>
      (∀ z ∈ (clu t k).xfers, z.id ≠ xid) ∧
      (∀ q ∈ dstKeys x, q ∉ x.denied → (slotGet s q.2).tag = .filling → (slotGet s q.2).owner = .cluster k →
        (slotGet t q.2).tag = .full) ∧
      ∀ q ∈ dstKeys x, q ∈ x.denied → slotGet t q.2 = slotGet s q.2) ∧
  (∀ (s : State) (m slot : Nat) (h0 : Held), Machine.Inv s → slot < 512 → s.mem.tagUps = [] →
    let key := m * 512 + slot
    let here (h : Held) : Bool := heldKey h == key
    (slotGet s key).tag = .empty → s.mem.holds.find? here = some h0 → Gives (.holdStoreLand m slot) s fun t =>
      slotGet t key = ⟨.filling, h0.cls, h0.owner⟩ ∧
      t.mem.holds = s.mem.holds.filter fun h => !(here h && h.owner == h0.owner))

/-- In a state with the invariant. SPM_SCRUB_READ of a running scrubber, with no damaged word, advances its five
pointers and leaves the memories alone; of one that does not run it changes nothing but the beats. A scrub read of media
SRAM moves that scrubber's pointer alone. ECC_WRITE_BACK of a waiting word ends its damage. TAG_CMD, where the write is
not dropped, gives each named slot its tag and no owner, and leaves every other slot alone. STAGED_REGISTER_WRITE lands
the staged fields while the placement does not run or is parked, and is otherwise dropped with CFG_WR_DROP.
DMA_DESCRIPTOR of an idle, enabled channel with a descriptor in its ring takes it; without one, or disabled, it changes
nothing. DMA_WRITEBACK of a written descriptor moves TAIL on by one, modulo the ring, counts it and frees the channel.
The model's choices in it, by entry of the assumption log: 5 (faults come as operands); 18 (tag commands and accesses
without tags); 60 (what a cluster's and a core's enable gate); 67 (the three moments of an operation); 84 (the scrubbers
of media and control SRAM). -/
def Obligations.ScrubberTagsAndDescriptors : Prop :=
  (∀ (s : State) (c : CAt), Machine.Inv s → c.cl < 8 →
    let k := c.cl
    let u := adv s k c.dt
    (scrubOn u k = true → (clu u k).scrub.length = 5 → u.mem.ecc = [] → Gives (.spmScrubRead c []) s fun t =>
      (clu t k).scrub = (clu u k).scrub.map (fun p => (p + 1) % 65536) ∧ t.mem = u.mem ∧ t.cores = u.cores ∧ t.rf = u.rf) ∧
    (scrubOn u k = false → exec (.spmScrubRead c []) s = .next u) ∧
    (scrubOn u k = false → u.mem.ecc = [] → exec (.spmScrubRead c [(12, 0)]) s =
      .next { u with mem := { u.mem with scrubM := (u.mem.scrubM + 1) % 262144 } })) ∧
  (∀ s w, Machine.Inv s → w ∈ s.mem.wb → Gives (.eccWriteBack w) s fun t => eccGet t w = 0 ∧ w ∉ t.mem.wb ∧
    t.mem.sram = s.mem.sram ∧ t.mem.pois = s.mem.pois ∧ t.mem.slots = s.mem.slots ∧ t = { s with mem := t.mem }) ∧
  (∀ s g k v r, Machine.Inv s → k < 8 → v < 2 ^ 32 → regRow (rCluTagCmd k) = some r → rdB s rTopIslRst k = false →
    chkBusy s (0x10 + k) = false → wrDropped s (rCluTagCmd k) r = false → rdF s (rCluTagSel k) 18 16 < 5 →
    Gives (.tagCmd g k v none) s fun t =>
      let key (i : Nat) := cluMem k (rdF s (rCluTagSel k) 18 16) * 512 + i
      let first := rdF s (rCluTagSel k) 8 0
      (∀ i, first ≤ i → i ≤ first + v % 512 → i < 512 → (slotGet t (key i)).owner = .none ∧ (slotGet t (key i)).tag =
        (match v / 2 ^ 16 % 4 with | 0 => .empty | 1 => .filling | 2 => .full | _ => .invalid)) ∧
      (∀ j, (∀ i, first ≤ i → i ≤ first + v % 512 → i < 512 → j ≠ key i) → slotGet t j = slotGet s j) ∧ t.rf = s.rf ∧
      t.mem.sram = s.mem.sram) ∧
  (∀ s g a v r, Machine.Inv s → regRow a = some r → r.staged ≠ 0 → 0x10 ≤ regBlk a → regBlk a < 0x18 →
    rdB s rTopIslRst (regBlk a - 0x10) = false → chkBusy s (regBlk a) = false →
    (stagedOk s (regBlk a - 0x10) = false → exec (.stagedRegisterWrite g a v) s = .next (cfgDrop s (regBlk a))) ∧
    (wrDropped s a r = false → regOwn s a v = none → enOf a = none → r.w1c = 0 → r.w1s = 0 → a ≠ blkBase (regBlk a) + 8 →
      Gives (.stagedRegisterWrite g a v) s fun t => ∀ i, i < 32 → (BitVec.ofNat 32 r.staged : Word).getLsbD i = true →
        (rd t a).getLsbD i = v.getLsbD i)) ∧
  (∀ s n, Machine.Inv s → n < 8 →
    ((dmaOf s n).busy = false → (dmaOf s n).far ≠ 1 → rdB s rDmaCtl 0 = true →
      rdF s (rDmaChHead n) 9 0 % dmaSize s n ≠ rdF s (rDmaChTail n) 9 0 →
      Gives (.dmaDescriptor n) s fun t => (dmaOf t n).busy = true) ∧
    ((dmaOf s n).busy = false → (dmaOf s n).far ≠ 1 →
      rdB s rDmaCtl 0 = false ∨ rdF s (rDmaChHead n) 9 0 % dmaSize s n = rdF s (rDmaChTail n) 9 0 →
      exec (.dmaDescriptor n) s = .next s) ∧
    (((dmaOf s n).far ≠ 2 ∧ dmaWritten (dmaOf s n) = true ∧ dmaDescAt s n / 2 ^ 40 = ownChip s) ∨
        ((dmaOf s n).far = 2 ∧ (dmaOf s n).ops = []) → Gives (.dmaWriteback n) s fun t => dmaOf t n = {} ∧
      rdF t (rDmaChTail n) 9 0 = (rdF s (rDmaChTail n) 9 0 + 1) % dmaSize s n ∧
      rd t (rDmaChDoneCnt n) = rd s (rDmaChDoneCnt n) + 1) ∧
    ((dmaOf s n).far ≠ 2 → dmaWritten (dmaOf s n) = false → exec (.dmaWriteback n) s = .next s))

/-- In a state with the invariant, for port p below 12. CSI_PACKET_RECEIVE on a port that takes input: a header that
cannot be corrected only sets HDR_UNCORR and advances HDR_CNT; a long packet of an unsupported type and a packet that
reaches no stream are dropped with their flag and DROP_CNT; a packet that finds the FIFO full, or fills it before its
last byte, sets OVR and advances OVR_CNT; a long packet with a bad CRC is not queued and advances CRC_CNT; every other
packet joins the FIFO as its youngest, with the system time of its header. A header error that was corrected advances
HDR_CORR_CNT on the way. A port that takes no input, or of a disabled block, changes nothing. PORT_FLUSH raises FLUSH
and nothing else. FLUSH_BOUNDARY of a requested flush empties that FIFO only, clears FLUSH and advances FLUSH_CNT; of a
port that closes it also closes every open frame of the streams bound to it. PORT_DISABLE clears EN and leaves the port
closing, with its FIFO as it was. The model's choices in it, by entry of the assumption log: 8 (an event asserts that
its time has come and does nothing where its condition fails); 13 (what comes from outside is an operand). -/
def Obligations.CameraPortsQueuePackets : Prop :=
  (∀ (s : State) (p : Nat) (k : CsiPkt), Machine.Inv s → p < 12 →
    let on := rdB s rCsiCtl 0 = true ∧ (rdB s (rCsiPortCtl p) 31 = true ∨ p ∈ s.csi.closing)
    let known := k.dt < 8 ∨ longOk k.dt = true
    (¬on → exec (.csiPacketReceive p k) s = .next s) ∧
    (on → k.hdr = 2 → Gives (.csiPacketReceive p k) s fun t => OnlyRegs s t [rCsiPortErr p, rCsiPortHdrCnt p] ∧
      rdB t (rCsiPortErr p) 1 = true ∧ rd t (rCsiPortHdrCnt p) = rd s (rCsiPortHdrCnt p) + 1) ∧
    (on → k.hdr = 1 → Gives (.csiPacketReceive p k) s fun t =>
      rd t (rCsiPortHdrCorrCnt p) = rd s (rCsiPortHdrCorrCnt p) + 1 ∧ rdB t (rCsiPortErr p) 0 = true) ∧
    (on → k.hdr = 0 → 0x10 ≤ k.dt → longOk k.dt = false → Gives (.csiPacketReceive p k) s fun t =>
      OnlyRegs s t [rCsiPortErr p, rCsiPortDropCnt p] ∧ rdB t (rCsiPortErr p) 3 = true ∧
      rd t (rCsiPortDropCnt p) = rd s (rCsiPortDropCnt p) + 1) ∧
    (on → k.hdr = 0 → known → reached s p k = [] → Gives (.csiPacketReceive p k) s fun t =>
      OnlyRegs s t [rCsiPortErr p, rCsiPortDropCnt p] ∧ rdB t (rCsiPortErr p) 4 = true ∧
      rd t (rCsiPortDropCnt p) = rd s (rCsiPortDropCnt p) + 1) ∧
    (on → k.hdr = 0 → known → reached s p k ≠ [] → portOverrun s p k.data.length = true → Gives (.csiPacketReceive p k) s fun t =>
      t.csi.ports = s.csi.ports ∧ rdB t (rCsiPortPktCount p) 31 = true ∧ rd t (rCsiPortOvrCnt p) = rd s (rCsiPortOvrCnt p) + 1) ∧
    (on → k.hdr = 0 → longOk k.dt = true → reached s p k ≠ [] → portOverrun s p k.data.length = false → k.crcOk = false →
      Gives (.csiPacketReceive p k) s fun t => t.csi.ports = s.csi.ports ∧ rdB t (rCsiPortErr p) 2 = true ∧
        rd t (rCsiPortCrcCnt p) = rd s (rCsiPortCrcCnt p) + 1) ∧
    (on → k.hdr ≠ 2 → known → reached s p k ≠ [] → portOverrun s p k.data.length = false → (k.dt < 8 ∨ k.crcOk = true) →
      Gives (.csiPacketReceive p k) s fun t => portQ t p = portQ s p ++ [(k, now s)] ∧
        (∀ i, i ≠ p → portQ t i = portQ s i) ∧ t.csi.strs = s.csi.strs ∧ t.mem = s.mem)) ∧
  (∀ s p, Machine.Inv s → p < 12 → Reaches s (rCsiPortCtl p) → Gives (.portFlush p) s fun t =>
    OnlyRegs s t [rCsiPortCtl p] ∧ rd t (rCsiPortCtl p) = setBit (rd s (rCsiPortCtl p)) 30 true) ∧
  (∀ s p, Machine.Inv s → p < 12 → (rdB s (rCsiPortCtl p) 30 = true ∨ p ∈ s.csi.closing) → Gives (.flushBoundary p) s fun t =>
    portQ t p = [] ∧ (∀ i, i ≠ p → portQ t i = portQ s i) ∧ rdB t (rCsiPortCtl p) 30 = false ∧
    rd t (rCsiPortFlushCnt p) = rd s (rCsiPortFlushCnt p) + 1 ∧ p ∉ t.csi.closing ∧
    (p ∈ s.csi.closing → ∀ m, m < 48 → rdF s (rCsiStrCfg m) 23 20 = p → (strOf t m).cur = none)) ∧
  (∀ s p, Machine.Inv s → p < 12 → Reaches s (rCsiPortCtl p) → rdB s (rCsiPortCtl p) 31 = true → Gives (.portDisable p) s fun t =>
    rd t (rCsiPortCtl p) = setBit (rd s (rCsiPortCtl p)) 31 false ∧ p ∈ t.csi.closing ∧ t.csi.ports = s.csi.ports ∧
    t.csi.strs = s.csi.strs ∧ ∀ a, a ≠ rCsiPortCtl p → rd t a = rd s a)

/-- FRAME_START, FRAME_END, LINE_START, LINE_PACKET and EMBEDDED_DATA_PACKET of a port of the enabled block whose oldest
packet is of their kind take that packet and act on every stream it reaches. For one stream of a state with the
invariant: a frame start with a free buffer opens the next frame in buffer WR mod NBUF, stamped with the sample less
TS_OFFSET, and advances WR; with no free buffer it drops the frame whole, with DROP_NOBUF and DROP_CNT. A frame end
closes the open frame: it is delivered with its flags, SHORT_FRAME set where lines are missing and DAMAGED where another
flag is, unless it is damaged and DMG = 1, or its pipeline is disabled, when WR steps back by one and DROP_CNT advances;
with no frame open and none being dropped it sets NO_FS and advances NOFS_CNT. A line of the open frame is placed at the
next line; after HEIGHT lines it is discarded with LONG_FRAME. With LNUM = 1, line number n moves the next line to n -
1, or has the next line discarded when it is out of range. Embedded data of a frame is taken up to EMB_MAX bytes. The
model's choices in it, by entry of the assumption log: 13 (what comes from outside is an operand); 20 (the packing of
samples); 87 (the staging area and disabled pipelines). -/
def Obligations.RoutedPacketsBuildFrames : Prop :=
  (∀ (s : State) (p : Nat) (k : CsiPkt) (tm : Nat) (q : List (CsiPkt × Nat)), p < 12 → rdB s rCsiCtl 0 = true → portQ s p = (k, tm) :: q →
    let u := setPort s p q
    (k.dt = 0 → exec (.frameStart p) s = .next (foldS (fun v m => frameStart v m k.num tm) (reached s p k) u)) ∧
    (∀ chk : List Nat, k.dt = 1 → exec (.frameEnd p chk) s = .next (foldS (fun v m => frameEnd v m (chk.contains m)) (reached s p k) u)) ∧
    (k.dt = 2 → exec (.lineStart p) s = .next (foldS (fun v m => lineStart v m k.num) (reached s p k) u)) ∧
    (k.dt = 3 → exec (.lineStart p) s = .next u) ∧
    (0x10 ≤ k.dt → k.dt ≠ 0x12 → exec (.linePacket p) s = .next (foldS (fun v m => lineIn v m k.data) (reached s p k) u)) ∧
    (k.dt = 0x12 → exec (.embeddedDataPacket p) s = .next (foldS (fun v m => embIn v m k.data) (reached s p k) u))) ∧
  (∀ s m n tm, Machine.Inv s → m < 48 → strOn s m = true → (strOf s m).cur = none →
    let used := (rdF s (rCsiStrWr m) 7 0 + 256 - rdF s (rCsiStrRel m) 7 0) % 256
    let t := frameStart s m n tm
    (used < strNbuf s m → (strOf t m).cur = some ⟨(strOf s m).seq % 2 ^ 32, n, (tm : Int) - (rd s (rCsiStrTsOffset m)).toInt,
        (strOf s m).wr % strNbuf s m, 0, 0, 0, false, 0, [], [], false, none⟩ ∧
      (strOf t m).wr = (strOf s m).wr + 1 ∧ rdF t (rCsiStrWr m) 7 0 = ((strOf s m).wr + 1) % 256) ∧
    (strNbuf s m ≤ used → (strOf t m).cur = none ∧ (strOf t m).dropping = true ∧ (strOf t m).wr = (strOf s m).wr ∧
      rdB t (rCsiStrStatus m) 10 = true ∧ rd t (rCsiStrDropCnt m) = rd s (rCsiStrDropCnt m) + 1)) ∧
  (∀ (s : State) (m : Nat) (chk : Bool), Machine.Inv s → m < 48 →
    let t := frameEnd s m chk
    (∀ f, (strOf s m).cur = some f → (strOf t m).cur = none ∧
      (rdB s (rCsiStrCfg m) 27 = false → ispOff s m = false → ∃ g : Frame, (strOf t m).shut = (strOf s m).shut ++ [g] ∧ g.seq = f.seq ∧ g.buf = f.buf ∧
        (f.next < strH s m → bitN g.flags 3 = true) ∧ (bitsN g.flags 1 8 ≠ 0 → bitN g.flags 0 = true)) ∧
      (((rdB s (rCsiStrCfg m) 27 = true ∧ (bitsN f.flags 1 8 ≠ 0 ∨ f.next < strH s m)) ∨ ispOff s m = true) → (strOf t m).shut = (strOf s m).shut ∧
        (strOf t m).wr = (strOf s m).wr - 1 ∧ rd t (rCsiStrDropCnt m) = rd s (rCsiStrDropCnt m) + 1)) ∧
    ((strOf s m).cur = none → (strOf s m).dropping = false → OnlyRegs s t [rCsiStrStatus m, rCsiStrNofsCnt m] ∧
      rdB t (rCsiStrStatus m) 9 = true ∧ rd t (rCsiStrNofsCnt m) = rd s (rCsiStrNofsCnt m) + 1)) ∧
  (∀ (s : State) (m : Nat) (d : List Byte) (f : Frame), Machine.Inv s → m < 48 → (strOf s m).cur = some f → f.skip = false →
    ∃ g : Frame, (strOf (lineIn s m d) m).cur = some g ∧ g.seq = f.seq ∧ g.got = f.got + 1 ∧
      (f.next < strH s m → g.next = f.next + 1) ∧ (strH s m ≤ f.next → g.next = f.next ∧ bitN g.flags 4 = true) ∧
      (f.next < strH s m → (lineSamples s m d).length / perPx s m < strW s m → bitN g.flags 1 = true) ∧
      (f.next < strH s m → strW s m < (lineSamples s m d).length / perPx s m → bitN g.flags 2 = true)) ∧
  (∀ (s : State) (m n : Nat) (f : Frame), Machine.Inv s → m < 48 → (strOf s m).cur = some f → rdB s (rCsiStrCfg m) 28 = true →
    ∃ g : Frame, (strOf (lineStart s m n) m).cur = some g ∧
      (1 ≤ n → n ≤ strH s m → f.next ≤ n - 1 → g.next = n - 1 ∧ g.skip = false ∧ (f.next < n - 1 → bitN g.flags 3 = true)) ∧
      ((n = 0 ∨ strH s m < n ∨ n - 1 < f.next) → g.next = f.next ∧ g.skip = true ∧ bitN g.flags 4 = true)) ∧
  (∀ (s : State) (m : Nat) (d : List Byte) (f : Frame), Machine.Inv s → m < 48 → (strOf s m).cur = some f →
    ∃ g : Frame, (strOf (embIn s m d) m).cur = some g ∧ g.emb = f.emb + min d.length (embMax s m - f.emb) ∧ g.next = f.next)

/-- In a state with the invariant. PIPE_LINE takes the oldest line of the stream whose line waits longest and leaves
every other staging area alone; an enabled pipeline reads its words from the staging area and adds its WIDTH to the
pipe's pixel count, with the line poisoned where a word of it is; a disabled one discards it under LINE_DROP. FRAME_DONE
of a stream whose oldest closed frame has no line left in staging takes that frame from the list and advances FRAME_CNT,
or, where the pipeline is disabled, DROP_CNT; while a line is left, or with no closed frame, nothing changes.
SET_TIMEOUT of a set that has been open for WAIT closes it, advances PARTIAL_CNT and posts its record with TIMEOUT to
the group's queue, or counts an overrun when the queue is full; before that it changes nothing. BUFFER_RELEASE takes a
REL that keeps WR - REL within NBUF and otherwise only sets REL_BAD. ISP_ARM of a stream that is not armed starts the
parameter check and nothing else; of one that is armed it changes nothing; the end of the check, with no write held,
records its code and arms the stream exactly when the code is 0. The model's choices in it, by entry of the assumption
log: 8 (an event asserts that its time has come and does nothing where its condition fails); 36 (free fields of the
singles queue); 68 (frames are computed whole); 87 (the staging area and disabled pipelines). -/
def Obligations.FramesSetsAndBuffersAreHandedOver : Prop :=
  (∀ (s : State) (q m : Nat) (bad : Bool) (g : Staged), Machine.Inv s → q < 3 → pipeNext s q = some (m, g) →
    (ispOff s m = true → Gives (.pipeLine q bad) s fun t => (strOf s m).staged = g :: (strOf t m).staged ∧
      (∀ i, i ≠ m → strOf t i = strOf s i) ∧ rd t (rCsiStrLdropCnt m) = rd s (rCsiStrLdropCnt m) + 1 ∧ t.mem = s.mem) ∧
    (ispOff s m = false →
      let r := fabReads s (whoCsi s m) (stageAddr s m g.slot) (2 * strW s m)
      Gives (.pipeLine q bad) s fun t =>
        (strOf s m).staged = g :: (strOf t m).staged ∧ (∀ i, i ≠ m → strOf t i = strOf s i) ∧
        rd t (rIspPipePixCnt q) = rd s (rIspPipePixCnt q) + BitVec.ofNat 32 (strW s m) ∧ t.mem = r.2.mem ∧ t.csi.ports = s.csi.ports ∧
        ∀ f, (strOf s m).cur = some f → f.seq = g.seq → ∃ h : Frame, (strOf t m).cur = some h ∧ h.lines = f.lines ++ [(g.line, g.px)] ∧
          h.bad = f.bad ++ (if bad = true ∨ r.1.pois.any id = true then [g.line] else []))) ∧
  (∀ (s : State) (m : Nat), Machine.Inv s → m < 48 →
    (∀ f rest, (strOf s m).shut = f :: rest → ((strOf s m).staged.any fun g => g.seq == f.seq) = false →
      Gives (.frameDone m) s fun t => (strOf t m).shut = rest ∧ (strOf t m).cur = (strOf s m).cur ∧
        (strOf t m).staged = (strOf s m).staged ∧
        (ispOff s m = false ∨ f.written = true → rd t (rCsiStrFrameCnt m) = rd s (rCsiStrFrameCnt m) + 1) ∧
        (ispOff s m = true → f.written = false → rd t (rCsiStrFrameCnt m) = rd s (rCsiStrFrameCnt m) ∧
          rd t (rCsiStrDropCnt m) = rd s (rCsiStrDropCnt m) + 1 ∧ rdB t (rCsiStrStatus m) 6 = true)) ∧
    (∀ f rest, (strOf s m).shut = f :: rest → ((strOf s m).staged.any fun g => g.seq == f.seq) = true →
      exec (.frameDone m) s = .next s) ∧
    ((strOf s m).shut = [] → exec (.frameDone m) s = .next s)) ∧
  (∀ (s : State) (g : Nat) (o : OpenSet), Machine.Inv s → g < 16 → (fgOf s g).cur = some o →
    (now s - o.tOpen < rdF s (rCsiFgWait g) 19 0 * 1000 → exec (.setTimeout g) s = .next s) ∧
    (rdF s (rCsiFgWait g) 19 0 * 1000 ≤ now s - o.tOpen → Gives (.setTimeout g) s fun t =>
      (fgOf t g).cur = none ∧ rd t (rCsiFgPartialCnt g) = rd s (rCsiFgPartialCnt g) + 1 ∧ (∀ i, i ≠ g → fgOf t i = fgOf s i) ∧
      (fifoFull 64 (fgOf s g).q = false → (fgOf t g).q.ents = (fgOf s g).q.ents ++ [setRec o.seq 2 o.tRef o.present]) ∧
      (fifoFull 64 (fgOf s g).q = true → (fgOf t g).q.ents = (fgOf s g).q.ents ∧
        rd t (rCsiFgOvrCnt g) = rd s (rCsiFgOvrCnt g) + 1))) ∧
  (∀ s m v, Machine.Inv s → m < 48 → v < 256 → Reaches s (rCsiStrRel m) → Gives (.bufferRelease m v) s fun t =>
    if (rdF s (rCsiStrWr m) 7 0 + 256 - v) % 256 ≤ strNbuf s m then OnlyRegs s t [rCsiStrRel m] ∧ rdF t (rCsiStrRel m) 7 0 = v
    else OnlyRegs s t [rCsiStrStatus m] ∧ rd t (rCsiStrStatus m) = setBit (rd s (rCsiStrStatus m)) 11 true) ∧
  (∀ s m, Machine.Inv s → m < 48 →
    let r := if m < 32 then rIspArmLo else rIspArmHi
    let c : Chk := ⟨0x5C, r, m % 32⟩
    (Reaches s r → rdB s r (m % 32) = true → exec (.ispArm m) s = .next s) ∧
    (Reaches s r → rdB s r (m % 32) = false →
      exec (.ispArm m) s = .next { s with rf := { s.rf with chk := s.rf.chk ++ [c] } }) ∧
    ((s.rf.chk.find? fun c => c.blk == 0x5C) = some c → s.rf.held = [] → Gives (.consistencyCheckEnd 0x5C) s fun t =>
      OnlyRegs s t [r, rIspStatus] ∧ rdF t rIspStatus 15 8 = enCheck s 0x5C (.arm m) ∧ c ∉ t.rf.chk ∧
      rdB t r (m % 32) = (rdB s r (m % 32) || enCheck s 0x5C (.arm m) == 0)))

/-- For an enabled session with the invariant whose turn it is and whose ring yields descriptor d. DECODE_UNIT refuses a
bad descriptor with a report of 0x6B, a unit whose parameter set was refused with that set's code, and a unit that names
no known set with 0x6C; none of these gives a picture, nor does a unit without one. A JPEG session's report waits behind
a unit ahead of it whose output is due. A unit within its budget gives a picture that waits for output, with status 0x6C
exactly when its data is in error, truncated or read with poison, and counts its concealed blocks; one past its budget
stays in the engine. BUDGET_EXCEEDED of such a unit sets DEADLINE in its report, gives the picture for output and counts
the deadline; its status is that of an error met before. ENCODE_UNIT of a frame within the caps reports the coded bytes
and status 0; when they exceed LEN, or the cycles its budget, it reports 0x6C or 0x6D with no bytes, and has the next
unit coded as IDR. SESSION_DISABLE clears EN and ends the units in engines without a report. The model's choices in it,
by entry of the assumption log: 13 (what comes from outside is an operand); 28 (the steps of the codec engines); 88
(open values of the codecs). -/
def Obligations.CodecUnitsEndInReports : Prop :=
  (∀ (s u : State) (n : Nat) (o : DecOut) (d : VidDesc), Machine.Inv s → n < 32 → sesEnc s n = false → sesTurn s n = true →
    busyEngines s (sesCodec s n == 3) < 4 →
    let t0 := sesOf s n
    let ord := t0.ord
    let reports (code : Nat) (t : State) : Prop :=
      (sesCodec s n ≠ 3 ∨ t0.outs = [] → fifoFull 64 t0.rep = false → (sesOf t n).outs = t0.outs ∧
        ∃ r : List Word, (sesOf t n).rep.ents = t0.rep.ents ++ [r] ∧ r.getD 0 0 = BitVec.ofNat 32 d.id ∧ (r.getD 1 0).toNat % 256 = code) ∧
      (sesCodec s n = 3 → ∀ x xs, t0.outs = x :: xs → (x.done = false ∨ x.pic.isSome) → ∃ r : VidRep,
        (sesOf t n).outs = t0.outs ++ [⟨r, d, none, none, ord, true⟩] ∧ r.id = d.id ∧ r.status = code ∧ (sesOf t n).rep = t0.rep)
    (∀ x ∈ t0.outs, x.ord ≠ ord) → (∀ x ∈ t0.busy, x.ord ≠ ord) →
    (takeUnit s n = (some (d, true), u) → Gives (.decodeUnit n o) s (reports 0x6B)) ∧
    (takeUnit s n = (some (d, false), u) →
      let g := vidRead (turnNext u n) n d.src d.len
      let pin := g.1.pois.any id
      let bad := o.err.isSome = true ∨ o.trunc = true ∨ pin = true
      let used := (sesOf (addSets g.2 n o.sets) n).sets.find? fun c => c.1 == o.uses
      let tooLong := unitBudget s n d < o.cycles
      (used = none → Gives (.decodeUnit n o) s (reports 0x6C)) ∧
      (∀ i code cl, used = some (i, code, cl) → 0 < code → code < 256 → Gives (.decodeUnit n o) s (reports code)) ∧
      (∀ i cl, used = some (i, 0, cl) → o.pic = none → ¬tooLong → Gives (.decodeUnit n o) s fun t =>
        (bad → reports 0x6C t) ∧ (¬bad → reports 0 t)) ∧
      (∀ i cl pic, used = some (i, 0, cl) → o.pic = some pic → ¬tooLong → Gives (.decodeUnit n o) s fun t =>
        (sesOf t n).busy = t0.busy ∧ (sesOf t n).rep = t0.rep ∧
        ∃ x : VidOut, (sesOf t n).outs = t0.outs ++ [x] ∧ x.desc = d ∧ x.rep.id = d.id ∧ x.done = true ∧ x.pic.isSome ∧
          (bad → x.rep.status = 0x6C) ∧ (¬bad → x.rep.status = 0) ∧ (sesOf t n).last = x.pic ∧
          (pin = false ∨ o.skip ≠ [] → x.rep.conceal = o.skip.length) ∧ (pin = true → x.rep.conceal ≠ 0) ∧
          rd t (rVidSesConcealCnt n) = rd s (rVidSesConcealCnt n) + BitVec.ofNat 32 x.rep.conceal) ∧
      (∀ i cl, used = some (i, 0, cl) → tooLong → Gives (.decodeUnit n o) s fun t =>
        (∃ v : VidRun, (sesOf t n).busy = t0.busy ++ [v] ∧ v.desc = d ∧ v.out = o ∧ v.pin = pin) ∧ (sesOf t n).rep = t0.rep ∧
        (sesCodec s n ≠ 3 → (sesOf t n).outs = t0.outs)))) ∧
  (∀ (s : State) (n : Nat) (skip : List Nat) (cyc : Nat) (v : VidRun) (vs : List VidRun) (pic : Pic), Machine.Inv s → n < 32 →
    (sesOf s n).busy = v :: vs → v.out.pic = some pic → Gives (.budgetExceeded n skip cyc) s fun t =>
      (sesOf t n).busy = (v :: vs).filter (fun w => w.ord != v.ord) ∧
      rd t (rVidSesDeadlineCnt n) = rd s (rVidSesDeadlineCnt n) + 1 ∧ (∀ y ∈ (sesOf s n).outs, y.ord ≠ v.ord → y ∈ (sesOf t n).outs) ∧
      ∃ x : VidOut, x ∈ (sesOf t n).outs ∧ x.desc = v.desc ∧ x.ord = v.ord ∧ x.done = true ∧ bitN x.rep.flags 3 = true ∧
        x.rep.cycles = cyc ∧ x.rep.status = (if errMet v skip = true then 0x6C else 0x6D)) ∧
  (∀ (s u : State) (n w h : Nat) (bytes : List Byte) (cyc : Nat) (d : VidDesc), Machine.Inv s → n < 32 → sesTurn s n = true →
    sesEnc s n = true → takeUnit s n = (some (d, false), u) → fifoFull 64 (sesOf s n).rep = false → w ≤ capW s n → h ≤ capH s n →
    let big := d.len < bytes.length
    let late := unitBudget s n d < cyc
    Gives (.encodeUnit n w h bytes cyc) s fun t =>
      ((sesOf t n).idr = true ↔ (big ∨ late)) ∧ (sesOf t n).outs = (sesOf s n).outs ∧ (sesOf t n).coded = some (encHow s n d) ∧
      ∃ r : List Word, (sesOf t n).rep.ents = (sesOf s n).rep.ents ++ [r] ∧ r.getD 0 0 = BitVec.ofNat 32 d.id ∧
        (¬big → ¬late → (r.getD 1 0).toNat % 256 = 0) ∧ (big → ¬late → (r.getD 1 0).toNat % 256 = 0x6C) ∧
        (¬big → late → (r.getD 1 0).toNat % 256 = 0x6D ∧ rd t (rVidSesDeadlineCnt n) = rd s (rVidSesDeadlineCnt n) + 1) ∧
        (big ∨ late → r.getD 7 0 = 0) ∧ (¬big → ¬late → r.getD 7 0 = BitVec.ofNat 32 bytes.length)) ∧
  (∀ s n, Machine.Inv s → n < 32 → Reaches s (rVidSesCtl n) → rdB s (rVidSesCtl n) 31 = true → Gives (.sessionDisable n) s fun t =>
    rd t (rVidSesCtl n) = setBit (rd s (rVidSesCtl n)) 31 false ∧ (∀ a, a ≠ rVidSesCtl n → rd t a = rd s a) ∧
    sesOf t n = { sesOf s n with busy := [], outs := (sesOf s n).outs.filter fun o => o.done } ∧
    (∀ i, i ≠ n → sesOf t i = sesOf s i) ∧ t.vid.qs = s.vid.qs)

/-- For a queue q below 64 of a state with the invariant. A QPOP command whose turn it is not changes nothing after its
beats, and while something else blocks the beat none moves a pointer. In its turn, QPOP READ of a committed sample
advances READ by one and enters a transfer that holds the slot; of a queue with none the beat blocks, the cluster waits
and READ stays. MARK sets MARK to READ; REWIND sets READ to MARK and advances REWIND_CNT; RELEASE sets MARK and the
release target to READ, and frees every slot below it where no copy is in flight. QUEUE_COPY_COMPLETE ends the copies
whose transfer is gone and frees the slots up to the target, but none from the first slot on of which a copy is in
flight. QUEUE_FLUSH makes READ, MARK, FREE and the target equal to COMMIT and ends every waiting READ. SHAPE_SAMPLE of a
picture whose turn it is takes it from the session: with a good record and a free slot it commits one sample and reports
its number; with the queue full it counts an overrun; with a record that is refused, or dropped by policy, the queues
stay as they are. Out of turn it changes nothing. The model's choices in it, by entry of the assumption log: 8 (an event
asserts that its time has come and does nothing where its condition fails). -/
def Obligations.SampleQueuesKeepTheirPointers : Prop :=
  (∀ (s : State) (c : CAt) (q : Nat), Machine.Inv s → c.cl < 8 → q < 64 →
    let k := c.cl
    let u := adv s k c.dt
    let a := sqOf u q
    let turn : Prop := kslotTurn u k = true
    let mine : Prop := ∀ b ∈ (clu u k).held, b = blocker 4 0
    let w := passed u k (blocker 4 0) kslotKey
    let others (t : State) : Prop := (∀ i, i ≠ q → sqOf t i = sqOf u i) ∧ ∀ j, j ≠ k → clu t j = clu u j
    (¬turn → (∀ dst len com, exec (.qpopRead c q dst len com) s = .next u) ∧ exec (.qpopMark c q) s = .next u ∧
      exec (.qpopRewind c q) s = .next u ∧ exec (.qpopRelease c q) s = .next u) ∧
    (turn → ∀ dst len com ns, strmOk u k dst = .ok ns → k ∉ a.ended →
      (a.read < a.commit → (clu u k).xfers.length < 64 →
        ((∀ b ∈ (clu u k).held, b = blocker 4 0 ∨ b = blocker 4 8) → Gives (.qpopRead c q dst len com) s fun t =>
          (sqOf t q).read = a.read + 1 ∧ (sqOf t q).copies = a.copies ++ [(a.read, k, (clu u k).nextXid)] ∧
          (sqOf t q).commit = a.commit ∧ (sqOf t q).mark = a.mark ∧ (sqOf t q).free = a.free ∧ others t) ∧
        ((∃ b ∈ (clu u k).held, b ≠ blocker 4 0 ∧ b ≠ blocker 4 8) → Gives (.qpopRead c q dst len com) s fun t =>
          t.vid = u.vid ∧ (clu t k).xfers = (clu u k).xfers)) ∧
      (a.read < a.commit → 64 ≤ (clu u k).xfers.length → exec (.qpopRead c q dst len com) s =
        .next (blockBeat (through u k (blocker 4 8)) k 4 0)) ∧
      (a.commit ≤ a.read → Gives (.qpopRead c q dst len com) s fun t =>
        k ∈ (sqOf t q).waiting ∧ { sqOf t q with waiting := [] } = { a with waiting := [] } ∧ others t ∧
        t = { blockBeat u k 4 8 with vid := t.vid })) ∧
    (turn → ¬mine → exec (.qpopMark c q) s = .next w ∧ exec (.qpopRewind c q) s = .next w ∧ exec (.qpopRelease c q) s = .next w) ∧
    (turn → mine →
      (Gives (.qpopMark c q) s fun t => sqOf t q = { a with mark := a.read } ∧ others t ∧ t = { w with vid := t.vid }) ∧
      (Gives (.qpopRewind c q) s fun t => sqOf t q = { a with read := a.mark } ∧ others t ∧
        rd t (rShpQRewindCnt q) = rd u (rShpQRewindCnt q) + 1 ∧ t = { w with vid := t.vid, rf := t.rf }) ∧
      (Gives (.qpopRelease c q) s fun t => (sqOf t q).read = a.read ∧ (sqOf t q).mark = a.read ∧ (sqOf t q).target = a.read ∧
        (sqOf t q).commit = a.commit ∧ (a.free ≤ a.read → a.free ≤ (sqOf t q).free ∧ (sqOf t q).free ≤ a.read) ∧
        (a.free ≤ a.read → a.copies = [] → (sqOf t q).free = a.read) ∧
        (∀ x ∈ a.copies, a.free ≤ x.1 → (sqOf t q).free ≤ x.1) ∧ others t ∧ t = { w with vid := t.vid }))) ∧
  (∀ (s : State) (q : Nat), Machine.Inv s → q < 64 →
    let a := sqOf s q
    let live (x : Nat × Nat × Nat) : Bool := (xferOf s x.2.1 x.2.2).isSome
    Gives (.queueCopyComplete q) s fun t => (sqOf t q).copies = a.copies.filter live ∧ (sqOf t q).read = a.read ∧
      (sqOf t q).mark = a.mark ∧ (sqOf t q).commit = a.commit ∧ a.free ≤ (sqOf t q).free ∧
      (∀ x ∈ a.copies, live x = true → a.free ≤ x.1 → (sqOf t q).free ≤ x.1) ∧
      ((∀ x ∈ a.copies, live x = false) → a.free ≤ a.target → (sqOf t q).free = a.target) ∧ t = { s with vid := t.vid }) ∧
  (∀ s q, Machine.Inv s → q < 64 → Reaches s (rShpQCtl q) → Gives (.queueFlush q) s fun t =>
    let a := sqOf s q
    sqOf t q = { commit := a.commit, read := a.commit, mark := a.commit, free := a.commit, target := a.commit,
                 ended := a.ended ++ a.waiting } ∧ (∀ i, i ≠ q → sqOf t i = sqOf s i) ∧ t = { s with vid := t.vid }) ∧
  (∀ (s : State) (n i : Nat) (o : VidOut) (pic : Pic), Machine.Inv s → n < 32 → (sesOf s n).outs[i]? = some o → o.pic = some pic →
    let u := updSes s n fun x => { x with outs := x.outs.eraseIdx i, must := x.must - 1 }
    let q := bitsN o.desc.ctl 0 6
    let skip := bitN o.desc.ctl 6 = true ∧ (bitN o.rep.flags 0 = true ∨ bitN o.rep.flags 3 = true)
    let v := vidRead u n o.desc.aug 64
    let bad := augBad v.2 q pic.w pic.h (augOf v.1.data) = true
    let rest := (sesOf s n).outs.eraseIdx i
    (outTurn s n i = false → exec (.shapeSample n i) s = .next s) ∧
    (outTurn s n i = true → Gives (.shapeSample n i) s fun t => (∃ gone, rest = gone ++ (sesOf t n).outs) ∧
      ((∀ x xs, rest = x :: xs → x.done = false ∨ x.pic.isSome) → (sesOf t n).outs = rest) ∧
      (skip ∨ bad → t.vid.qs = s.vid.qs) ∧
      (¬skip → ¬bad → sqFull s q = true → t.vid.qs = s.vid.qs ∧ rdB t (rShpQCount q) 31 = true ∧
        rd t (rShpQOvrCnt q) = rd s (rShpQOvrCnt q) + 1) ∧
      (¬skip → ¬bad → sqFull s q = false → (sqOf t q).commit = (sqOf s q).commit + 1 ∧ (sqOf t q).read = (sqOf s q).read ∧
        (sqOf t q).free = (sqOf s q).free ∧ rd t (rShpQCommitCnt q) = rd s (rShpQCommitCnt q) + 1 ∧
        (fifoFull 64 (sesOf s n).rep = false → ∃ (r : List Word) (more : List (List Word)),
          (sesOf t n).rep.ents = (sesOf s n).rep.ents ++ r :: more ∧
          r.getD 0 0 = BitVec.ofNat 32 o.rep.id ∧ r.getD 7 0 = BitVec.ofNat 32 (sqOf s q).commit))))

/-- In a state with the invariant whose firmware log takes a record without a refusal of its own, for an access within
one 64-byte block of this chip outside the register space. A refused read (by memory that is not under a kill scrub)
delivers zeros with poison, and a refused write leaves every DRAM line and the last delivery as they are; each advances
MEM_DENY_CNT for a firewall denial and MEM_REFUSE_CNT for every other code. A permitted write to a core SPM, a cluster
store, media SRAM or control SRAM that is not quarantined and has no damaged word stores its bytes and leaves every
other byte of on-chip memory alone. A permitted read of such memory delivers the bytes that it holds, each with the
poison flag of its 32-byte word, and changes no memory. An access to a remote address without a window is refused with
the denial count. The model's choices in it, by entry of the assumption log: 18 (tag commands and accesses without
tags); 34 (accesses of a quarantined island); 50 (rows without an agent). -/
def Obligations.FabricAccessesAreCheckedAndPerformed : Prop :=
  (∀ (s : State) (g job a n : Nat) (bs : List Byte) (ps : List Bool), Machine.Inv s → g < 16 → a < 2 ^ 40 → 0 < n → a % 64 + n ≤ 64 →
    regionOf a ≠ some .regs → LogSafe s →
    let w : Who := ⟨agentIsl g, g, job, none, none⟩
    let ga := ownChip s * 2 ^ 40 + a
    let cnt (c : Nat) := if c = 0x45 then rMemDenyCnt else rMemRefuseCnt
    (accessCode s w false a ≠ 0 → scrubbing s a = false → Gives (.fabricAccess g job false ga n bs ps) s fun t =>
      t.mem.out = List.replicate n (0, true) ∧ t.mem.dram = s.mem.dram ∧
      rd t (cnt (accessCode s w false a)) = rd s (cnt (accessCode s w false a)) + 1) ∧
    (accessCode s w true a ≠ 0 → Gives (.fabricAccess g job true ga n bs ps) s fun t =>
      t.mem.out = s.mem.out ∧ t.mem.dram = s.mem.dram ∧
      rd t (cnt (accessCode s w true a)) = rd s (cnt (accessCode s w true a)) + 1) ∧
    (regionOf a ∈ [some .spm, some .cstore, some .media, some .ctl] → s.mem.ecc = [] →
      (accessCode s w true a = 0 → barred s w true a = false → bs.length = n → ps.length = n →
        Gives (.fabricAccess g job true ga n bs ps) s fun t => ramGet t a n = bs ∧
          (∀ b, b < a ∨ a + n ≤ b → mget byte0 t.mem.sram b = mget byte0 s.mem.sram b) ∧ t.mem.dram = s.mem.dram ∧
          t.mem.slots = s.mem.slots ∧ t.mem.out = s.mem.out) ∧
      (accessCode s w false a = 0 → barred s w false a = false → scrubbing s a = false →
        Gives (.fabricAccess g job false ga n bs ps) s fun t =>
          t.mem.out = List.zip (ramGet s a n) ((upto n).map fun i => poisGet s ((a + i) / 32)) ∧
          t.mem.sram = s.mem.sram ∧ t.mem.pois = s.mem.pois ∧ t.mem.dram = s.mem.dram))) ∧
  (∀ (s : State) (g job ga n : Nat) (wr : Bool) (bs : List Byte), Machine.Inv s → g < 16 → ga / 2 ^ 40 ≠ ownChip s → 0 < n →
    winOf s wr ga = none → LogSafe s → Gives (.fabricAccess g job wr ga n bs []) s fun t =>
      t.mem.dram = s.mem.dram ∧ t.lk = s.lk ∧ rd t rMemDenyCnt = rd s rMemDenyCnt + 1 ∧
      (wr = false → t.mem.out = List.replicate (min n (64 - ga % 64)) (0, true)))

/-- In a state with the invariant and DRAM in service, below MEM_CAP. DRAM_WRITE of a full line replaces data and tag
(its poison, the writing job, the format named by the agent, the current EPOCH); of less than a line it merges with the
line held, whose poison stays; it leaves every other line alone; a poisoned write into a NOPOISON region changes no line
and counts as a consumption. DRAM_READ of a held line without errors delivers its data, poisoned exactly when the line
is, and changes no line. With one wrong symbol in each codeword, at whatever symbol and of whatever value (as a failed
pin gives), it delivers the same, counts two corrected symbols and writes the line back with the current EPOCH. With a
codeword that does not decode it delivers zeros with poison, rewrites the line as poisoned zeros of no owner, and counts
it. PATROL_SCRUB of a subchannel whose next line is held without errors moves that subchannel's position on and leaves
the lines alone; when every subchannel has covered its lines the positions return to 0, and EPOCH modulo 16 and the pass
count advance. A scrubber that is off, or a subchannel that has covered its lines, changes nothing. The model's choices
in it, by entry of the assumption log: 5 (faults come as operands); 42 (undefined lines). -/
def Obligations.DramLinesKeepWhatIsWritten : Prop :=
  (∀ (s : State) (a : Nat) (bs : List Byte) (ps : List Bool) (agent job : Nat) (fmt : Option Nat), Machine.Inv s → dramOn s = true →
    a < memCap s → bs ≠ [] → a % 64 + bs.length ≤ 64 → ps.length = bs.length →
    let nop : Prop := ps.any id = true ∧ ∃ r, rgnOf s a = some r ∧ rdB s (rMemRgnCtl r) 29 = true
    (nop → Gives (.dramWrite a bs ps agent job fmt) s fun t => t.mem.dram = s.mem.dram ∧
      rd t rMemConsumeCnt = rd s rMemConsumeCnt + 1) ∧
    (¬nop → bs.length = 64 → Gives (.dramWrite a bs ps agent job fmt) s fun t =>
      (∃ f, mget dram0 t.mem.dram (a / 64) = some ⟨bs, ⟨ps.any id, ps.any id, false, job, f, scrubEpoch s⟩⟩ ∧
        ∀ g, fmt = some g → f = g) ∧
      (∀ l, l ≠ a / 64 → mget dram0 t.mem.dram l = mget dram0 s.mem.dram l) ∧ t = { s with mem := { s.mem with dram := t.mem.dram } }) ∧
    (∀ v, ¬nop → bs.length < 64 → mget dram0 s.mem.dram (a / 64) = some v →
      Gives (.dramWrite a bs ps agent job fmt) s fun t =>
        (∃ f, mget dram0 t.mem.dram (a / 64) = some ⟨patch v.data (a % 64) bs, ⟨ps.any id || linePois v, ps.any id || linePois v,
          false, job, f, scrubEpoch s⟩⟩ ∧ ∀ g, fmt = some g → f = g) ∧
        ∀ l, l ≠ a / 64 → mget dram0 t.mem.dram l = mget dram0 s.mem.dram l)) ∧
  (∀ (s : State) (l : Nat) (v : DLine), Machine.Inv s → dramOn s = true → 64 * l < memCap s → mget dram0 s.mem.dram l = some v →
    v.data.length = 64 → v.tag.job < 4096 → v.tag.fmt < 16 → v.tag.epoch < 16 →
    (Gives (.dramRead l []) s fun t => t.mem.out = v.data.map (fun b => (b, linePois v)) ∧ t = { s with mem := { s.mem with out := t.mem.out } }) ∧
    (∀ i j e f, i < 40 → j < 40 → 0 < e → e < 256 → 0 < f → f < 256 → Gives (.dramRead l [(i, e), (40 + j, f)]) s fun t =>
      t.mem.out = v.data.map (fun b => (b, linePois v)) ∧ rd t rMemCeCnt = rd s rMemCeCnt + 2 ∧ rd t rMemUeCnt = rd s rMemUeCnt ∧
      mget dram0 t.mem.dram l = some { v with tag := { v.tag with epoch := scrubEpoch s } } ∧
      ∀ k, k ≠ l → mget dram0 t.mem.dram k = mget dram0 s.mem.dram k) ∧
    (∀ ups, (decodeWord (errOf ups 0) = none ∨ decodeWord (errOf ups 1) = none) → Gives (.dramRead l ups) s fun t =>
      t.mem.out = List.replicate 64 (0, true) ∧ rd t rMemUeCnt = rd s rMemUeCnt + 1 ∧
      mget dram0 t.mem.dram l = some ⟨List.replicate 64 0, ⟨true, true, true, 0, 0, scrubEpoch s⟩⟩ ∧
      ∀ k, k ≠ l → mget dram0 t.mem.dram k = mget dram0 s.mem.dram k)) ∧
  (∀ (s : State) (sub : Nat), Machine.Inv s → sub < 6 → s.mem.patrol.length = 6 →
    let l := s.mem.patrol.getD sub 0
    let p := s.mem.patrol.set sub (l + 1)
    let covered : Prop := ∀ i, i < 6 → subLines s ≤ p.getD i 0
    let ready : Prop := dramOn s = true ∧ rdF s rMemScrubCtl 15 0 ≠ 0 ∧ l < subLines s
    (¬ready → ∀ upsA upsB, exec (.patrolScrub sub upsA upsB) s = .next s) ∧
    (ready → ∀ v, mget dram0 s.mem.dram (6 * l + sub) = some v →
      (¬covered → exec (.patrolScrub sub [] []) s = .next { s with mem := { s.mem with patrol := p } }) ∧
      (covered → Gives (.patrolScrub sub [] []) s fun t =>
        t = { s with mem := { s.mem with patrol := List.replicate 6 0 }, rf := t.rf } ∧
        (∀ a, a ∉ [rMemScrubCtl, rMemScrubPassCnt] → rd t a = rd s a) ∧ scrubEpoch t = (scrubEpoch s + 1) % 16 ∧
        rd t rMemScrubPassCnt = rd s rMemScrubPassCnt + 1 ∧ rdF t rMemScrubCtl 15 0 = rdF s rMemScrubCtl 15 0)))

/-- In a state with the invariant and for a register that the write reaches. Enabling the controller records the check's
code; with code 0 it is enabled, takes its capacity and trains, else it stays off. The end of fallback training gives
STATE 2, or 0 with the failing step; the end of full training gives STATE 3 at the rate of R335, or 2 with FULL_FAILED
at the fallback rate; either loses only the lines of the highest 384 KiB. Full training starts only from STATE 2.
MEM_DISABLE gives STATE 0 and capacity 0 and, outside training, keeps every line. Refresh and DQS runs change nothing
that an agent sees; a rate switch at STATE 3 changes RATE alone. PSCAN_START of an idle scanner marks BUSY, or ERR where
no scannable region holds the range. PSCAN_DONE of a range of on-chip memory without damaged words counts its poisoned
words, gives the address of the first and changes no memory. FW_ENFORCE writes its one bit, and REGION_LOCK that of an
enabled region; of a locked one it is dropped with CFG_WR_DROP. WINDOW_CLOSE clears EN, and the window lets nothing more
through. The model's choices in it, by entry of the assumption log: 8 (an event asserts that its time has come and does
nothing where its condition fails); 13 (what comes from outside is an operand). -/
def Obligations.DramControllerFollowsItsStates : Prop :=
  (∀ (s : State), Machine.Inv s →
    (Reaches s rMemCtl → rdB s rMemCtl 0 = false → Gives .fallbackTraining s fun t => rdF t rMemStatus 15 8 = memCheck s ∧ t.mem = s.mem ∧
      (memCheck s = 0 → rdB t rMemCtl 0 = true ∧ trainState t = 1 ∧ rdF t rMemCap 16 0 = (cfgMib s).getD 0) ∧
      (memCheck s ≠ 0 → rdB t rMemCtl 0 = false ∧ trainState t = trainState s)) ∧
    (Reaches s rMemTrainCtl → trainState s = 2 → Gives .fullTraining s fun t => OnlyRegs s t [rMemTrainCtl, rMemTrainStatus] ∧ trainState t = 1 ∧
      rdB t rMemTrainCtl 0 = true ∧ rdB t rMemTrainStatus 29 = false) ∧
    (Reaches s rMemTrainCtl → trainState s ≠ 2 → exec .fullTraining s = .next s) ∧
    (Reaches s rMemCtl → rdB s rMemCtl 0 = true → Gives .memDisable s fun t => rdB t rMemCtl 0 = false ∧ trainState t = 0 ∧ memCap t = 0 ∧
      rdB t rMemTrainCtl 0 = false ∧ (trainState s ≠ 1 → t.mem = s.mem)) ∧
    (Reaches s rMemPscanCtl → rdB s rMemPscanCtl 31 = false → Gives .pscanStart s fun t => OnlyRegs s t [rMemPscanCtl, rMemPscanPcount] ∧
      rd t rMemPscanPcount = 0 ∧ (rdB t rMemPscanCtl 31 = true ↔ scannable (pscanBase s) (rd s rMemPscanLen).toNat = true) ∧
      (rdB t rMemPscanCtl 1 = true ↔ scannable (pscanBase s) (rd s rMemPscanLen).toNat = false)) ∧
    (Reaches s rMemFwCtl → Gives .fwEnforce s fun t => OnlyRegs s t [rMemFwCtl] ∧ rd t rMemFwCtl = setBit (rd s rMemFwCtl) 0 true) ∧
    (∀ r, r < 64 → Reaches s (rMemRgnCtl r) → rdB s (rMemRgnCtl r) 30 = true → exec (.regionLock r) s = .next (cfgDrop s 0x48)) ∧
    (∀ r, r < 64 → Reaches s (rMemRgnCtl r) → rdB s (rMemRgnCtl r) 30 = false → rdB s (rMemRgnCtl r) 31 = true →
      Gives (.regionLock r) s fun t =>
        OnlyRegs s t [rMemRgnCtl r] ∧ rd t (rMemRgnCtl r) = setBit (rd s (rMemRgnCtl r)) 30 true) ∧
    (∀ r, r < 64 → Reaches s (rMemRgnCtl r) → rdB s (rMemRgnCtl r) 30 = false → rdB s (rMemRgnCtl r) 31 = false →
      exec (.regionLock r) s = .next s) ∧
    (∀ w, w < 32 → Reaches s (rMemWinCtl w) → rdB s (rMemWinCtl w) 31 = true → Gives (.windowClose w) s fun t =>
      t = { s with rf := t.rf, lk := { s.lk with shut := s.lk.shut ++ [w] } } ∧ (∀ a, a ≠ rMemWinCtl w → rd t a = rd s a) ∧
      rd t (rMemWinCtl w) = setBit (rd s (rMemWinCtl w)) 31 false ∧ ∀ wr g, winOf t wr g ≠ some w) ∧
    (∀ w, w < 32 → Reaches s (rMemWinCtl w) → rdB s (rMemWinCtl w) 31 = false → exec (.windowClose w) s = .next s)) ∧
  (∀ (s : State) (st sub : Nat), Machine.Inv s → trainState s = 1 → st < 16 → sub < 8 →
    let kept (t : State) : Prop := ∀ l, l < memCap s / 64 - 6144 ∨ memCap s / 64 ≤ l → mget dram0 t.mem.dram l = mget dram0 s.mem.dram l
    (rdB s rMemTrainCtl 0 = false →
      (Gives (.fallbackTrainingDone none) s fun t => trainState t = 2 ∧ dramOn t = true ∧ rdF t rMemTrainStatus 10 8 = 0 ∧ kept t) ∧
      (Gives (.fallbackTrainingDone (some (st, sub))) s fun t => trainState t = 0 ∧ rdF t rMemTrainStatus 23 20 = st ∧
        rdF t rMemTrainStatus 18 16 = sub ∧ kept t)) ∧
    (rdB s rMemTrainCtl 0 = true →
      (Gives (.fullTrainingDone none) s fun t => trainState t = 3 ∧ rdF t rMemTrainStatus 10 8 = fullRate s ∧
        rdB t rMemTrainCtl 0 = false ∧ kept t) ∧
      (Gives (.fullTrainingDone (some (st, sub))) s fun t => trainState t = 2 ∧ rdB t rMemTrainStatus 29 = true ∧
        rdF t rMemTrainStatus 10 8 = 0 ∧ rdF t rMemTrainStatus 23 20 = st ∧ rdB t rMemTrainCtl 0 = false ∧ kept t))) ∧
  (∀ (s : State) (sub bank : Nat), exec (.dramRefresh sub bank) s = .next s ∧ exec (.dqsOscillatorRun sub) s = .next s) ∧
  (∀ (s : State) (rate : Nat), Machine.Inv s → rate < 8 → trainState s = 3 → Gives (.ddrRateSwitch rate) s fun t =>
    OnlyRegs s t [rMemTrainStatus] ∧ trainState t = 3 ∧ rdF t rMemTrainStatus 10 8 = rate) ∧
  (∀ (s : State), Machine.Inv s → rdB s rMemPscanCtl 31 = true → 0x2000000000 ≤ pscanBase s → s.mem.ecc = [] →
    let n := (rd s rMemPscanLen).toNat
    let pois (i : Nat) : Bool := poisGet s (pscanBase s / 32 + i)
    Gives .pscanDone s fun t => rdB t rMemPscanCtl 31 = false ∧ t.mem = s.mem ∧
      rd t rMemPscanPcount = BitVec.ofNat 32 ((List.range n).filter pois).length ∧
      ∀ i, i < n → pois i = true → (∀ j, j < i → pois j = false) →
        rd64 t rMemPscanFirstLo rMemPscanFirstHi = pscanBase s + 32 * i)

/-- For an active channel c below 2 of a state with the invariant, in either bank mode. A BL16 read, or the first half
of a BL32 read, of a backed offset drives its 32 bytes and changes nothing else but the half that is still to come; the
second half drives the other 32 bytes of the 64 as they are when it runs. Of an unbacked offset 0xA5 is driven in every
byte, counted, and UNBACKED set. A write of 32 or 64 bytes to a backed offset stores every byte that its mask lets
through and no other, the second 32 bytes at the other half of the 64; away from the acknowledge word it changes nothing
but those bytes; to an unbacked offset it is dropped, counted and sets UNBACKED. A refresh only advances HPT_REF_CNT. A
mode-register write stores the bits that the device supports, and counts the write where another bit was 1. A mode-
register read drives the register, 0xFF for MR5 and 0xB1 for MR6, and a read of MR4 clears TUF. WRITE-FIFO training
keeps the burst that READ-FIFO then drives; WCK2CK leveling sets TRAINED; the other trainings drive free data. A command
inside a refresh window is executed and counted. Power-down and self-refresh change only the power state. The model's
choices in it, by entry of the assumption log: 8 (an event asserts that its time has come and does nothing where its
condition fails); 70 (commands to an inactive channel, and the wrap of a burst). -/
def Obligations.HostBurstsReachHostPortSram : Prop :=
  (∀ (s : State) (c row : Nat) (bank : Bank) (col d : Nat), Machine.Inv s → chanLive s c = true → d = devAddr row bank col →
    let half (t : State) (bs : List Byte) (r : Option Nat) : Prop :=
      t = { s with hp := { s.hp with dq := bs, rest := s.hp.rest.set c r } }
    (∀ o, hostOff s c d = some o →
      (Gives (.lpddrRead c row bank col .bl16 false) s (half · (ramGet s (hpAddr o) 32) none)) ∧
      (Gives (.lpddrRead c row bank col .bl32 false) s (half · (ramGet s (hpAddr o) 32) (some (restAddr d)))) ∧
      (Gives (.lpddrRead c row bank col .bl16 true) s fun t => t.hp.dq = ramGet s (hpAddr o) 32 ∧
        rd t rHptProtoErrCnt = rd s rHptProtoErrCnt + 1 ∧ rdB t rHptAttnPend 10 = true ∧ t.mem = s.mem) ∧
      (∀ (bs : List Byte) (mask : List Bool), bs.length = 32 → Gives (.lpddrWrite c row bank col bs mask false) s fun t =>
        (∀ i, i < 32 → mget byte0 t.mem.sram (hpAddr o + i) =
          if mask.getD i false then mget byte0 s.mem.sram (hpAddr o + i) else bs.getD i 0) ∧
        (∀ b, b < hpAddr o ∨ hpAddr o + 32 ≤ b → mget byte0 t.mem.sram b = mget byte0 s.mem.sram b) ∧
        (0x60 ≤ o ∨ o + 32 ≤ 0x40 → t = { s with mem := { s.mem with sram := t.mem.sram } }) ∧
        (o < 0x60 → 0x40 < o + 32 → rd t rHptAttnPend =
          rd s rHptAttnPend &&& ~~~(BitVec.ofNat 32 (ramNat t (hpAddr 0x40) 2)))) ∧
      (∀ (bs : List Byte) (mask : List Bool) (o' : Nat), bs.length = 64 → hostOff s c (restAddr d) = some o' →
        Gives (.lpddrWrite c row bank col bs mask false) s fun t =>
        (∀ i, i < 32 → mget byte0 t.mem.sram (hpAddr o + i) =
          if mask.getD i false then mget byte0 s.mem.sram (hpAddr o + i) else bs.getD i 0) ∧
        (∀ i, i < 32 → mget byte0 t.mem.sram (hpAddr o' + i) =
          if mask.getD (32 + i) false then mget byte0 s.mem.sram (hpAddr o' + i) else bs.getD (32 + i) 0) ∧
        (∀ b, (b < hpAddr o ∨ hpAddr o + 32 ≤ b) → (b < hpAddr o' ∨ hpAddr o' + 32 ≤ b) →
          mget byte0 t.mem.sram b = mget byte0 s.mem.sram b))) ∧
    (hostOff s c d = none →
      (∀ b32 r, (b32, r) ∈ [(Burst.bl16, none), (Burst.bl32, some (restAddr d))] → Gives (.lpddrRead c row bank col b32 false) s fun t =>
        t.hp = { s.hp with dq := List.replicate 32 0xA5, rest := s.hp.rest.set c r } ∧
        rd t rHptUnbackedRdCnt = rd s rHptUnbackedRdCnt + 1 ∧ rdB t rHptAttnPend 9 = true ∧ t.mem = s.mem) ∧
      (∀ bs mask, bs.length ≤ 32 → Gives (.lpddrWrite c row bank col bs mask false) s fun t => t.mem = s.mem ∧ t.hp = s.hp ∧
        rd t rHptUnbackedWrCnt = rd s rHptUnbackedWrCnt + 1 ∧ rdB t rHptAttnPend 9 = true))) ∧
  (∀ (s : State) (c row : Nat) (bank : Bank) (col : Nat) (early : Bool),
    (∀ d o, s.hp.rest.getD c none = some d → hostOff s c d = some o → exec (.lpddrRead c row bank col .rest early) s =
      .next { s with hp := { s.hp with dq := ramGet s (hpAddr o) 32, rest := s.hp.rest.set c none } }) ∧
    (s.hp.rest.getD c none = none → exec (.lpddrRead c row bank col .rest early) s = .next s)) ∧
  (∀ (s : State) (c ma : Nat) (v : Byte), Machine.Inv s → chanLive s c = true → s.hp.mrs.length = 2 → mwf (fun _ => 0) (s.hp.mrs.getD c []) = true → s.hp.tuf.length = 2 → s.hp.wfifo.length = 2 →
    (Gives (.lpddrModeRegisterWrite c ma v false) s fun t => t.mem = s.mem ∧ t.hp.dq = s.hp.dq ∧
      (∀ m, mget (fun _ => 0) (t.hp.mrs.getD c []) m =
        if m = ma then v &&& ~~~(Config.mrUnsupported ma) else mget (fun _ => 0) (s.hp.mrs.getD c []) m) ∧
      rd t rHptMrwIgnCnt = rd s rHptMrwIgnCnt + (if v &&& Config.mrUnsupported ma = 0 then 0 else 1)) ∧
    (Gives (.lpddrModeRegisterRead c ma false) s fun t => t.rf = s.rf ∧ t.mem = s.mem ∧ t.hp.mrs = s.hp.mrs ∧ t.hp.dq = [mrValue s c ma] ∧
      (ma = 5 → t.hp.dq = [0xFF]) ∧ (ma = 6 → t.hp.dq = [0xB1]) ∧ (t.hp.tuf.getD c false = (s.hp.tuf.getD c false && ma != 4))) ∧
    (∀ bs : List Byte, Gives (.lpddrTrainingCommand c 3 bs false) s fun t => t.rf = s.rf ∧ t.mem = s.mem ∧
      Gives (.lpddrTrainingCommand c 4 [] false) t fun u => u.hp.dq = bs.take 32) ∧
    (Gives (.lpddrTrainingCommand c 1 [] false) s fun t => OnlyRegs s t [rHptChMode c] ∧ rdB t (rHptChMode c) 1 = true) ∧
    (∀ k, k ∈ [0, 2, 5, 6] → Gives (.lpddrTrainingCommand c k [] false) s fun t => t.hp.dq.length = 32 ∧ t.rf = s.rf ∧ t.mem = s.mem ∧
      t.free = s.free + 8)) ∧
  (∀ s c, Machine.Inv s → chanLive s c = true → (Gives (.lpddrRefresh c false) s fun t => OnlyRegs s t [rHptRefCnt] ∧
      rd t rHptRefCnt = rd s rHptRefCnt + 1) ∧
    Gives (.lpddrRefresh c true) s fun t => rd t rHptRefCnt = rd s rHptRefCnt + 1 ∧
      rd t rHptProtoErrCnt = rd s rHptProtoErrCnt + 1 ∧ rdB t rHptAttnPend 10 = true) ∧
  (∀ s c, Machine.Inv s → chanLive s c = false → ∀ early, exec (.lpddrRefresh c early) s = .next s) ∧
  (∀ s c st, Machine.Inv s → chanOn s c = true → chanPwr s c ≠ 3 → st < 3 →
    (Gives (.lpddrPowerDown c ⟨st, false⟩) s fun t => OnlyRegs s t [rHptStatus] ∧ chanPwr t c = st ∧ chanPwr t (1 - c) = chanPwr s (1 - c)) ∧
    Gives (.lpddrPowerDown c ⟨st, true⟩) s fun t => chanPwr t c = st ∧ chanPwr t (1 - c) = chanPwr s (1 - c) ∧
      rd t rHptProtoErrCnt = rd s rHptProtoErrCnt + 1)

/-- In a state with the invariant. RESET_n asserted returns the mode registers of both channels to reset, puts both in
reset, sets IFRST and counts it, and leaves every memory as it is; released, both channels are active. A CK switch of a
channel writes its one status bit. ATTN_SET adds its bits to the pending bits and nothing else. ATTN_PIN_UPDATE drives
the pin low exactly when a pending bit is unmasked or the block has never been enabled, shows both registers in the
control page, and changes no other byte. The model's choices in it, by entry of the assumption log: 8 (an event asserts
that its time has come and does nothing where its condition fails). -/
def Obligations.HostPortSignalsAndAttention : Prop :=
  (∀ (s : State), Machine.Inv s →
    (Gives (.hostResetN true) s fun t => t.hp.mrs = [[], []] ∧ t.mem = s.mem ∧ t.csi = s.csi ∧ chanPwr t 0 = 3 ∧ chanPwr t 1 = 3 ∧
      rdB t rHptAttnPend 8 = true ∧ rd t rHptIfrstCnt = rd s rHptIfrstCnt + 1 ∧ rd t (rHptChMode 0) = 0 ∧ rd t (rHptChMode 1) = 0) ∧
    (Gives (.hostResetN false) s fun t => OnlyRegs s t [rHptStatus] ∧ chanPwr t 0 = 0 ∧ chanPwr t 1 = 0) ∧
    (∀ c on, c < 2 → Gives (.hostCkSwitch c on) s fun t => OnlyRegs s t [rHptStatus] ∧
      rd t rHptStatus = setBit (rd s rHptStatus) c on) ∧
    (∀ v, v < 256 → Reaches s rHptAttnSet → Gives (.attnSet v) s fun t => OnlyRegs s t [rHptAttnPend] ∧
      rd t rHptAttnPend = rd s rHptAttnPend ||| BitVec.ofNat 32 v) ∧
    (Gives .attnPinUpdate s fun t => (t.hp.pinLow = true ↔ s.hp.seen = false ∨ rd s rHptAttnPend &&& rd s rHptAttnMask ≠ 0) ∧
      ramNat t (hpAddr 0x20) 4 = (rd s rHptAttnPend).toNat ∧ ramNat t (hpAddr 0x24) 4 = (rd s rHptAttnMask).toNat ∧
      (∀ b, b < hpAddr 0x20 ∨ hpAddr 0x28 ≤ b → mget byte0 t.mem.sram b = mget byte0 s.mem.sram b) ∧ t.rf = s.rf))

/-- For a served ring pair r below 4 with no response waiting for room. A page that the firewall keeps from firmware is
refused. Polling a ring with nothing new, or while an earlier request of the pair is not answered or a response has no
room, changes only the overrun mark; a ring whose difference exceeds ENTRIES is answered once with RING_OVERRUN and
nothing is taken; otherwise a single new entry is consumed: it is taken for its command when its check passes, and
answered with the code of its check otherwise. On the links, the oldest entry of a Skerry's pair 8 is taken the same
way. RESULT_PUBLISH of a channel whose oldest waiting result fits its slot publishes it exactly when REL is at least the
new generation less NSLOT, and raises attention bit 1; else the result waits. RESULT_RELEASE takes a REL between the
previous one and PUB; any other REL keeps the previous value and posts an event with RESULT_RELEASE_INVALID. The model's
choices in it, by entry of the assumption log: 29 (firmware's accesses); 30 (the event of a bad REL); 37 (SRC of a
result); 69 (overruns, and one request of a pair at a time). -/
def Obligations.RequestsAndResultsPassTheRings : Prop :=
  (∀ (s : State) (r : Nat), Machine.Inv s → r < 4 → pairServed s r = true → s.fw.wait = [] → bitN s.trace 0 = false →
    let p := pairPage s r
    let ents := ramNat s (p + 4) 4
    let cons := ramNat s (p + 0x40) 4
    let d := (ramNat s (p + 0x20) 4 + 2 ^ 32 - cons) % 2 ^ 32
    let e := ramGet s (pairMem r + ramNat s p 4 + cons % ents * 64) 64
    0 < ents →
    let pages := fwReads s p = true ∧ fwReads s (pairMem r + ramNat s p 4) = true
    let u := { s with fw := { s.fw with ovr := s.fw.ovr.filter (· != r) } }
    (fwReads s p = false → exec (.ringPoll r) s = .next (refuse s (whoFw s) (accessCode s (whoFw s) false p) (glob s p))) ∧
    (pages → d = 0 ∨ (d ≤ ents ∧ pairOpen s r = false) → exec (.ringPoll r) s = .next u) ∧
    (pages → ents < d → r ∈ s.fw.ovr → exec (.ringPoll r) s = .next s) ∧
    (pages → ents < d → r ∉ s.fw.ovr → Gives (.ringPoll r) s fun t => r ∈ t.fw.ovr ∧ t.fw.taken = s.fw.taken ∧
      t = respond { s with fw := { s.fw with ovr := s.fw.ovr ++ [r] } } ⟨r, cons, 0⟩ 0x03 []) ∧
    (pages → d = 1 → pairOpen s r = true → requestCheck s r cons e = 0 → accessCode s (whoFw s) true (p + 0x40) = 0 →
      Gives (.ringPoll r) s fun t =>
      t.fw.taken = s.fw.taken ++ [(r, e)] ∧ ramNat t (p + 0x40) 4 = (cons + 1) % 2 ^ 32 ∧ t.fw.wait = [] ∧ t.rf = s.rf ∧
      ∀ b, b < p + 0x40 ∨ p + 0x44 ≤ b → mget byte0 t.mem.sram b = mget byte0 s.mem.sram b) ∧
    (pages → d = 1 → pairOpen s r = true → requestCheck s r cons e ≠ 0 → accessCode s (whoFw s) true (p + 0x40) = 0 →
      Gives (.ringPoll r) s fun t => t.fw.taken = s.fw.taken ∧
        t = respond (fwPut u (p + 0x40) (leBytes 4 (cons + 1))) (reqOf r e) (requestCheck s r cons e) [])) ∧
  (∀ (s : State) (c : Nat) (e : List Byte), Machine.Inv s → pairServed s 8 = true → roleOf s ≠ 1 → s.fw.in8 = [(c, e)] → bitN s.trace 0 = false →
    (pairOpen s 8 = false → exec (.ringPoll 8) s = .next s) ∧
    (pairOpen s 8 = true → requestCheck s 8 s.fw.cons8 e = 0 → Gives (.ringPoll 8) s fun t =>
      t = { s with fw := { s.fw with in8 := [], cons8 := s.fw.cons8 + 1, taken := s.fw.taken ++ [(8, e)] } })) ∧
  (∀ (s : State) (k : Nat) (j : Job) (p : Pub), Machine.Inv s → k < 16 → pubOf s k = some (j, p) →
    j.rlen + 32 ≤ ramNat s (chanPage k + 6) 2 * 32 →
    let ok := ramNat s (chanPage k + 8) 4 + 1 ≤ s.fw.relSeen.getD k 0 + ramNat s (chanPage k + 4) 2 ∧ passReported s p = true
    (¬ok → exec (.resultPublish k) s = .next s) ∧
    (ok → Gives (.resultPublish k) s fun t => t = publish s k j p ∧ rdB t rHptAttnPend 1 = true)) ∧
  (∀ (s : State) (k : Nat), Machine.Inv s → k < 16 → s.fw.relSeen.length = 16 →
    let rel := ramNat s (chanPage k + 0x20) 4
    let ok := s.fw.relSeen.getD k 0 ≤ rel ∧ rel ≤ ramNat s (chanPage k + 8) 4
    (ok → Gives (.resultRelease k) s fun t => t.fw.relSeen.getD k 0 = rel ∧
      (∀ i, i ≠ k → t.fw.relSeen.getD i 0 = s.fw.relSeen.getD i 0) ∧ t = { s with fw := { s.fw with relSeen := t.fw.relSeen } }) ∧
    (¬ok → Gives (.resultRelease k) s fun t => t.fw.relSeen = s.fw.relSeen ∧
      t = postEntry s 0 (entryOf 0xFFFFFFFF 0x06 1 0 (leBytes 2 0 ++ leBytes 2 k))))

/-- Where the oldest request of a pair is of the command and no earlier one is unanswered. NEGOTIATE logs DRIVER_ID, and
settles the lower of the two highest versions and the features both sides have, or, where the versions do not meet,
answers 0x0A and leaves the pair without a negotiation. GET_INFO answers with firmware's version, state, chip, shape
class, admitted jobs, energy and time. SET_LOG sets the threshold and the trace mask. OBJ_OPEN of a known KIND that
fits, with fewer than 16 objects, adds an open object under the next handle, else it adds none and answers 0x05 or 0xA1.
OBJ_WRITE within an open object, whose bytes can be read and written, adds its range. OBJ_CLOSE of a payload in media
SRAM whose bytes are all written closes it, and with a byte missing answers 0xAF. OBJ_FREE removes an object that is
neither in use nor pinned, and refuses one in use. The model's choices in it, by entry of the assumption log: 29
(firmware's accesses); 61 (fields of log records). -/
def Obligations.RequestsSettleFeaturesAndObjects : Prop :=
  (∀ (s u : State) (r : Nat) (e : List Byte), Machine.Inv s → Asked s r 1 e u →
    let w := logMsg u 0xC 0 (leBytes 8 (arg e 40 8))
    let v := min (protoRange w).2 (arg e 2 2)
    (v < (protoRange w).1 ∨ v < arg e 0 2 → Gives (.negotiate r) s fun t => negDone t r = false ∧
      t = respond { w with fw := { w.fw with neg := s.fw.neg.filter fun x => x.1 != r } } (reqOf r e) 0x0A []) ∧
    (¬(v < (protoRange w).1 ∨ v < arg e 0 2) → Gives (.negotiate r) s fun t => negDone t r = true ∧
      negMap t r = arg e 8 32 &&& offered w ∧ (t.fw.neg.find? fun x => x.1 == r).map (fun x => x.2.1) = some v ∧
      ∀ i, i ≠ r → negMap t i = negMap s i)) ∧
  (∀ (s u : State) (r : Nat) (e : List Byte), Asked s r 2 e u → exec (.getInfo r) s = .next (respond u (reqOf r e) 0
    (leBytes 4 (Config.fwVersion (fwState s)) ++ leBytes 2 (fwState s) ++ leBytes 2 (ownChip s) ++ leBytes 4 (shapeClass s).toNat ++
      leBytes 4 (admitted s).length ++ leBytes 8 (s.fw.energy / 1000) ++ leBytes 8 (now s)))) ∧
  (∀ (s u : State) (r : Nat) (e : List Byte), Asked s r 3 e u → Gives (.setLog r) s fun t => t.logThr = arg e 0 1 ∧
    t.trace = arg e 4 4 ∧ t.fw.taken = u.fw.taken) ∧
  (∀ (s u : State) (r base : Nat) (e : List Byte), Asked s r 0x10 e u →
    let fits := s.fw.objs.length < 16 ∧ objFits s base (arg e 4 4) = true
    (arg e 0 1 ≤ 1 → fits → Gives (.objOpen r base) s fun t => t.fw.objs = s.fw.objs ++
        [{ handle := s.fw.nextHandle, kind := arg e 0 1, total := arg e 4 4, base := base }] ∧
      t.fw.nextHandle = (if s.fw.nextHandle = 0xFFFF then 1 else s.fw.nextHandle + 1)) ∧
    (arg e 0 1 ≤ 1 → ¬fits → exec (.objOpen r base) s = .next (respond u (reqOf r e) 0xA1 [])) ∧
    (1 < arg e 0 1 → exec (.objOpen r base) s = .next (respond u (reqOf r e) 0x05 []))) ∧
  (∀ (s u : State) (r : Nat) (e : List Byte) (o : Obj), Asked s r 0x11 e u → objOf s (arg e 0 2) = some o → o.closed = false →
    let n := arg e 16 4
    let g := fabReads u whoFwDma (ptrAddr r (arg e 8 8)) n
    let w := fabWrites g.2 whoFwDma (o.base + arg e 4 4) g.1.data g.1.pois
    arg e 4 4 + n ≤ o.total → 0 < n → n ≤ 28672 → g.1.code = 0 → w.1 = 0 → Gives (.objWrite r) s fun t =>
      objOf t o.handle = some { o with wr := o.wr ++ [(arg e 4 4, arg e 4 4 + n)] } ∧ t.fw.taken = u.fw.taken ∧
      ∀ h, h ≠ o.handle → objOf t h = objOf s h) ∧
  (∀ (s u : State) (r : Nat) (e : List Byte) (o : Obj), Asked s r 0x12 e u → objOf s (arg e 0 2) = some o → o.closed = false →
    (covers o.wr 0 o.total (o.wr.length + 1) = false → exec (.objClose r) s = .next (respond u (reqOf r e) 0xAF [])) ∧
    (covers o.wr 0 o.total (o.wr.length + 1) = true → o.kind = 1 → 0x2000000000 ≤ o.base →
      (fabReads u whoRoot o.base o.total).1.code = 0 → Gives (.objClose r) s fun t =>
        objOf t o.handle = some { o with closed := true, cls := 3 } ∧ ∀ h, h ≠ o.handle → objOf t h = objOf s h)) ∧
  (∀ (s u : State) (r : Nat) (e : List Byte) (o : Obj), Asked s r 0x13 e u → objOf s (arg e 0 2) = some o → o.region = none →
    (o.inUse = true → exec (.objFree r) s = .next (respond u (reqOf r e) 0xAF [])) ∧
    (o.inUse = false → Gives (.objFree r) s fun t => objOf t o.handle = none ∧ ∀ h, h ≠ o.handle → objOf t h = objOf s h))

/-- Where the oldest request of a pair is of the command. PROGRAM_START while a program runs is refused with 0xA1; of a
closed payload on one chip it answers the loader's code, or, for a variant admitted with CG = 0, makes it the running
program and answers with its placement and class. PROGRAM_STOP without a program is answered at once; of a program whose
engine does not run it leaves no program and, where no job was killed, no job queued or running; of one that runs it
sets STOP and waits for the park. FW_ACTIVATE (by service firmware) of an object that is not a closed firmware image of
class 0 to 2 answers 0xAF; of class 1 with an idle group of firmware's own it opens that group and prepares it; of class
2 it holds the service cores and keeps the request until they start; of class 0 it writes the other boot copy. The
model's choices in it, by entry of the assumption log: 26 (the group and tie-point of an activation); 27 (the order of a
multi-chip start); 29 (firmware's accesses); 76 (source classes of slots that other chips fill). -/
def Obligations.ProgramsAndFirmwareStartAndStop : Prop :=
  (∀ (s u : State) (r : Nat) (e : List Byte) (srcs : List (Nat × Nat)) (p : Prog), Asked s r 0x20 e u → s.fw.prog = some p →
    p.chips = [] → exec (.programStart r srcs) s = .next (respond u (reqOf r e) 0xA1 [])) ∧
  (∀ (s u : State) (r : Nat) (e : List Byte) (srcs : List (Nat × Nat)) (o : Obj), Asked s r 0x20 e u → s.fw.prog = none →
    arg e 16 8 = 0 → objOf s (arg e 0 2) = some o → o.closed = true → o.kind = 1 →
    let ld := loadBundle u o (fun _ => (upto 8).map fun k => arg e (8 + k) 1) (srcs.map fun x => (x.1, srcOf x.2)) none []
    (∀ c v, ld = (.bad c, v) → Gives (.programStart r srcs) s fun t => t = respond v (reqOf r e) c [] ∧ t.fw.prog = none) ∧
    (∀ p img v, ld = (.ok p img, v) → p.cg = false → Gives (.programStart r srcs) s fun t => t.fw.prog = some p ∧
      t.fw.stopping = false ∧ t = respond (progSet v p img) (reqOf r e) 0 (leBytes 4 p.place ++ leBytes 4 p.cls))) ∧
  (∀ (s u : State) (r : Nat) (e : List Byte), Machine.Inv s → Asked s r 0x21 e u → s.fw.stopping = false →
    (s.fw.prog = none → exec (.programStop r) s = .next (respond u (reqOf r e) 0 [])) ∧
    (s.fw.prog ≠ none → rdB s rEngStatus 0 = false → Gives (.programStop r) s fun t => t.fw.prog = none ∧ t.fw.stopping = false ∧
      ((∀ j ∈ s.fw.jobs, j.killCode = none) → ∀ j ∈ t.fw.jobs, jobLive j = false)) ∧
    (s.fw.prog ≠ none → rdB s rEngStatus 0 = true → rdB s rEngStatus 1 = false → Gives (.programStop r) s fun t =>
      t.fw.stopping = true ∧ rdB t rEngCtl 2 = true ∧ t.fw.prog = s.fw.prog ∧ t.fw.jobs = s.fw.jobs)) ∧
  (∀ (s u : State) (r : Nat) (e : List Byte) (o : Obj), Machine.Inv s → Asked s r 0x18 e u → fwState s = 4 →
    objOf s (arg e 0 2) = some o →
    let ok := o.closed = true ∧ o.kind = 0 ∧ o.cls < 3
    (¬ok → exec (.fwActivate r) s = .next (respond u (reqOf r e) 0xAF [])) ∧
    (∀ g, ok → o.cls = 1 → fwGroup s = some g → s.fw.cgs.length = 16 → Gives (.fwActivate r) s fun t => cgState t g = 1 ∧
      (cgOf t g).isOpen = true ∧ (cgOf t g).owner = some (reqOf r e) ∧ (cgOf t g).wait = [0xC]) ∧
    (ok → o.cls = 1 → fwGroup s = none → exec (.fwActivate r) s = .next (respond u (reqOf r e) 0xA1 [])) ∧
    (ok → o.cls = 2 → useCheck s o = 0 → Gives (.fwActivate r) s fun t => t.io.svc = some (reqOf r e, o.handle) ∧
      t.io.harts = List.replicate 8 none) ∧
    (ok → o.cls = 0 → useCheck s o = 0 → exec (.fwActivate r) s = .next (activateBoot u (reqOf r e) o)))

/-- Where the oldest request of a pair is of the command. JOB_SUBMIT with acceptable arguments to a partition of the
program admits a QUEUED job under the next ID; without a program, or with no shape class left, it is refused with 0xA0.
JOB_ABORT of a QUEUED job ends it, of a RUNNING one marks its end, or ends it where no pass of it is to come. JOB_QUERY
answers state, passes, epoch and energy. JOB_BIND of a live job to a register not bound to another job, that the write
reaches, writes its ID. JOB_KILL of a QUEUED job makes it KILLED with its code; of a RUNNING one that holds its
partition it also begins the kill scrub of the partition's cluster stores. DEADLINE_TIMER past the deadline of the pass
that runs counts the miss once and raises attention bit 4; before it nothing changes. PASS_BOUNDARY at the last bar's
release counts a pass of the one unlimited RUNNING job without a result; away from it nothing changes, but that a CG = 0
program parked elsewhere goes on with STOP set again. JOB_SWITCH_IDLE of an idle program, where the enable passes, makes
the oldest QUEUED job of every free partition RUNNING. The model's choices in it, by entry of the assumption log: 8 (an
event asserts that its time has come and does nothing where its condition fails); 60 (what a cluster's and a core's
enable gate); 64 (the order of job service); 76 (source classes of slots that other chips fill). -/
def Obligations.JobsMoveThroughTheirStates : Prop :=
  (∀ (s u : State) (r : Nat) (e : List Byte), Machine.Inv s → Asked s r 0x30 e u →
    (s.fw.prog = none → exec (.jobSubmit r) s = .next (respond u (reqOf r e) 0xA0 [])) ∧
    (∀ p, s.fw.prog = some p → p.chips = [] → shapeClass s = 0 → exec (.jobSubmit r) s = .next (respond u (reqOf r e) 0xA0 [])) ∧
    (∀ p ext, s.fw.prog = some p → p.chips = [] → p.twins = [] → shapeClass s ≠ 0 → s.fw.stopping = false → arg e 0 1 ≤ 7 → arg e 0 1 ∈ p.parts →
      (admitted s).length < 256 → jobArgsBad s e = false → r ≠ 8 → arg e 0x24 2 = 0 → arg e 0xC 4 = 0 →
      jobExtents p.args (List.replicate 14 0) 0 = .ok ext → Gives (.jobSubmit r) s fun t =>
        (∃ j, jobOf t (nextJob s) = some j ∧ j.st = .queued ∧ j.part = arg e 0 1 ∧ j.ext = ext ∧ j.rq = reqOf r e) ∧
        t.fw.lastJob = nextJob s ∧ ∀ i, i ≠ nextJob s → jobOf t i = jobOf s i)) ∧
  (∀ (s u : State) (r : Nat) (e : List Byte) (j : Job), Machine.Inv s → askedJob s e = some j →
    (Asked s r 0x31 e u → j.st = .queued → Gives (.jobAbort r) s fun t => ∃ i, jobOf t j.id = some i ∧ i.st = .aborted ∧ i.left = true) ∧
    (Asked s r 0x31 e u → j.st = .running → j.ending = none → j.left = false ∨ running s = true → Gives (.jobAbort r) s fun t =>
      jobOf t j.id = some { j with ending := some 0xA5 }) ∧
    (Asked s r 0x31 e u → j.st = .running → j.left = true → running s = false → Gives (.jobAbort r) s fun t =>
      ∃ i, jobOf t j.id = some i ∧ i.st = .aborted) ∧
    (Asked s r 0x32 e u → exec (.jobQuery r) s = .next (respond u (reqOf r e) 0 (leBytes 4 (jobCode j.st) ++ leBytes 4 j.done ++
      leBytes 8 j.epoch ++ leBytes 8 (if hasFeature s r 7 then j.energy / 1000 else 0)))) ∧
    (∀ a, Asked s r 0x33 e u → bindReg (arg e 2 1) (arg e 3 1) = some a → jobLive j = true → rdF s a 11 0 = 0 →
      Gives (.jobBind r) s fun t => Reaches s a → rd t a = BitVec.ofNat 32 j.id)) ∧
  (∀ (s : State) (id code : Nat) (j : Job), Machine.Inv s → jobOf s id = some j → id ≠ 0 →
    (j.st = .running → j.left = true → Gives (.jobKill id code) s fun t => t.ras.scrub = s.ras.scrub ∧
      rd t rRasKillCnt = rd s rRasKillCnt ∧ ∃ i, jobOf t id = some i ∧ i.st = .killed ∧ i.killCode = some code) ∧
    (j.left = false → j.st = .queued → Gives (.jobKill id code) s fun t => ∃ i, jobOf t id = some i ∧ i.st = .killed ∧ i.killCode = some code ∧
      i.left = true) ∧
    (j.left = false → j.st = .running → Gives (.jobKill id code) s fun t => (∃ i, jobOf t id = some i ∧ i.st = .killed ∧ i.killCode = some code) ∧
      rd t rRasKillCnt = rd s rRasKillCnt + 1 ∧
      ∀ k, k ∈ partClus s j.part → rdB t rRasKscrub k = true ∧ ∃ x ∈ t.ras.scrub, x.mem = 32 + k ∧ x.job = id)) ∧
  (∀ (s : State) (id : Nat) (j : Job), Machine.Inv s → jobOf s id = some j → j.st = .running → j.deadlineUs ≠ 0 → j.left = false →
    j.passLate = false → (∀ p ∈ s.fw.pubs, p.job ≠ id) →
    (now s < j.passStart + 1000 * j.deadlineUs → exec (.deadlineTimer id) s = .next s) ∧
    (j.passStart + 1000 * j.deadlineUs ≤ now s → j.abortOnDl = false → Gives (.deadlineTimer id) s fun t =>
      jobOf t id = some { j with passLate := true, missed := j.missed + 1, flags := j.flags ||| 4 } ∧ rdB t rHptAttnPend 4 = true)) ∧
  (∀ (s : State) (p : Prog) (j : Job), Machine.Inv s → s.fw.prog = some p →
    let here := (rd s rCpPassCnt).toNat ≠ s.fw.passSeen ∧ rdF s rEngTieStatus 19 0 = p.barCount - 1
    (¬here → p.cg = true ∨ parkedB s = false → exec .passBoundary s = .next s) ∧
    (¬here → p.cg = false → parkedB s = true → rdF s rEngTieStatus 19 0 ≠ p.barCount - 1 → s.fw.stopping = false →
      (shapeClass s).toNat = p.cls → Gives .passBoundary s fun t => parkedB t = false ∧ rdB t rEngCtl 2 = true ∧
        (∀ k, k < 8 → (clu t k).parked = false) ∧ t.fw = s.fw ∧ ∀ a, a ∉ [rEngCtl, rEngStatus] → rd t a = rd s a) ∧
    (here → s.fw.jobs = [j] → j.st = .running → j.left = false → j.ending = none → j.killCode = none → j.passes = 0 → j.rlen = 0 →
      j.deadlineUs = 0 → j.arithFatal = false → s.fw.stopping = false → Gives .passBoundary s fun t =>
        t.fw.passSeen = (rd s rCpPassCnt).toNat ∧ ∃ i, t.fw.jobs = [i] ∧ i.id = j.id ∧ i.st = .running ∧ i.done = j.done + 1)) ∧
  (∀ (s : State) (p : Prog), Machine.Inv s → s.fw.prog = some p → p.cg = false → rdB s rEngCtl 0 = false → s.fw.stopping = false →
    (∃ j ∈ s.fw.jobs, j.st = .queued) → (s.fw.jobs.map fun j => j.id).Nodup →
    let v := engineTry (wr (tagsSet (unitsOn (foldS (idleInstall p) (partsOf p) (energyRead s)) p) p 0) rEngStartBar 0)
    rdB v rEngCtl 0 = true → Gives .jobSwitchIdle s fun t => t.fw.passSeen = (rd v rCpPassCnt).toNat ∧
      ∀ q ∈ p.parts, q ≠ 0xFF → holderOf s q = none → ∀ j, queuedOf s q = some j → ∃ i, jobOf t j.id = some i ∧ i.st = .running)

/-- Where the oldest request of a pair is of the command. CG_OPEN opens the lowest idle group for its requester, with
its point, or answers 0xA1. CG_STAGE adds one to three actions to an open group. CG_COMMIT, and a write of PREPARE,
prepare the group: it waits for every island that an action names. An island's answer with a failing check aborts the
group with that code and island; a good one is taken from the wait, and the last one arms a group with a point. A
prepare phase or a point that is late aborts the group with 0xAD or 0xAE, and a cancelled group that is not tagged
aborts too; every abort advances the abort count, and takes with it the other groups of a partition switch that it
belongs to. CG_CANCEL of a group that is only open closes it. CG_APPLY of a tagged, armed SET group, behind those armed
before it for its point, applies its actions; the end of an applied group makes it APPLIED, with its time, and counts
it. The model's choices in it, by entry of the assumption log: 8 (an event asserts that its time has come and does
nothing where its condition fails); 22 (codes of group commands); 23 (the order of a group's writes); 24 (the code of a
cancelled group); 25 (the corners of POINT). -/
def Obligations.CommitGroupsPrepareArmAndEnd : Prop :=
  (∀ (s u : State) (r : Nat) (e : List Byte), Machine.Inv s → s.fw.cgs.length = 16 → Asked s r 0x40 e u →
    let free := (upto 8).find? fun g => !cgLive s g && !(cgOf s g).isOpen
    (free = none → exec (.cgOpen r) s = .next (respond u (reqOf r e) 0xA1 [])) ∧
    (∀ g, free = some g → Gives (.cgOpen r) s fun t => cgOf t g = { isOpen := true, owner := some (reqOf r e) } ∧
      rd t (rCpCgPoint g) = BitVec.ofNat 32 (arg e 0 4) &&& 0xC00FFFFF ∧ rdF t (rCpCgTimeout g) 23 0 = arg e 4 4 % 2 ^ 24 ∧
      ∀ h, h ≠ g → cgOf t h = cgOf s h)) ∧
  (∀ (s u : State) (r : Nat) (e : List Byte) (g : Nat), Machine.Inv s → s.fw.cgs.length = 16 → openGroup s e = some g →
    (Asked s r 0x41 e u → 1 ≤ arg e 2 1 → arg e 2 1 ≤ 3 → (cgOf s g).staged + arg e 2 1 ≤ 64 → Gives (.cgStage r) s fun t =>
      (cgOf t g).staged = (cgOf s g).staged + arg e 2 1 ∧ rdF t (rCpCgCtl g) 5 0 = (cgOf s g).staged + arg e 2 1 - 1 ∧
      ∀ i, i < arg e 2 1 → rd t (rCpCgValue g ((cgOf s g).staged + i)) = BitVec.ofNat 32 (arg e (8 + 12 * i) 4) ∧
        rd t (rCpCgMask g ((cgOf s g).staged + i)) = BitVec.ofNat 32 (arg e (12 + 12 * i) 4)) ∧
    (Asked s r 0x42 e u → Gives (.cgCommit r) s fun t => cgState t g = 1 ∧ (cgOf t g).answer = true ∧
      (cgOf t g).owner = some (reqOf r e) ∧ (cgOf t g).wait = ((cgActs s g).map fun x => blkIsl (regBlk x.1)).eraseDups)) ∧
  (∀ (s u : State) (r : Nat) (e : List Byte), Machine.Inv s → s.fw.cgs.length = 16 → Asked s r 0x43 e u → arg e 0 2 < 16 →
    let g := arg e 0 2
    (cgOf s g).isOpen = true → (cgOf s g).tagged = false →
      (cgLive s g = false → Gives (.cgCancel r) s fun t => cgOf t g = {} ∧ cgState t g = cgState s g) ∧
      (cgLive s g = true → Gives (.cgCancel r) s fun t => cgState t g = 4 ∧
        ((∀ w ∈ s.fw.switches, g ∉ w.groups) → rd t rCpCgAbortCnt = rd s rCpCgAbortCnt + 1))) ∧
  (∀ (s : State) (g : Nat), Machine.Inv s → s.fw.cgs.length = 16 → g < 16 →
    let aborted (code isl : Nat) (t : State) : Prop := cgState t g = 4 ∧ rdF t (rCpCgCtl g) 23 16 = code ∧
      rdF t (rCpCgCtl g) 11 8 = isl ∧ g ∉ t.fw.armed ∧ (cgOf t g).isOpen = false ∧
      ((∀ w ∈ s.fw.switches, g ∉ w.groups) → rd t rCpCgAbortCnt = rd s rCpCgAbortCnt + 1) ∧
      ∀ w, (s.fw.switches.find? fun w => w.groups.contains g) = some w → ∀ h ∈ w.groups, h < 16 → cgLive s h = true →
        (cgOf s h).tagged = false → cgState t h = 4
    (chkBusy s 1 = false → cgLive s g = false → Gives (.cgPrepare g) s fun t => cgState t g = 1 ∧
      (cgOf t g).wait = ((cgActs s g).map fun x => blkIsl (regBlk x.1)).eraseDups ∧ (cgOf t g).at0 = now s) ∧
    (∀ i, i < 16 → cgState s g = 1 → i ∈ (cgOf s g).wait → islandCheck s g i ≠ 0 → Gives (.cgIslandAnswer g i) s
      (aborted (islandCheck s g i % 256) i)) ∧
    (∀ i, cgState s g = 1 → i ∈ (cgOf s g).wait → islandCheck s g i = 0 → (∃ j ∈ (cgOf s g).wait, j ≠ i) →
      Gives (.cgIslandAnswer g i) s fun t => cgState t g = 1 ∧ (cgOf t g).wait = (cgOf s g).wait.filter (· != i)) ∧
    (∀ i, cgState s g = 1 → i ∈ (cgOf s g).wait → islandCheck s g i = 0 → (∀ j ∈ (cgOf s g).wait, j = i) → cgKind s g ≠ 0 →
      Gives (.cgIslandAnswer g i) s fun t => cgState t g = 2 ∧ g ∈ t.fw.armed ∧ (cgOf t g).answer = false ∧ (cgOf t g).wait = []) ∧
    (cgState s g = 1 → Gives (.cgPrepareTimeout g) s (aborted 0xAD 0xF)) ∧
    (cgState s g = 2 → rdF s (rCpCgTimeout g) 23 0 ≠ 0 → (cgOf s g).tagged = false → Gives (.cgPointTimeout g) s (aborted 0xAE 0xF)) ∧
    (chkBusy s 1 = false → cgLive s g = true → (cgOf s g).tagged = false → Gives (.cgCancelWrite g) s fun t =>
      ∃ code, aborted code 0xF t) ∧
    (cgState s g = 2 → cgKind s g = 2 → (cgOf s g).tagged = true → cgBehind s g = true → exec (.cgApply g) s = .next s) ∧
    (cgState s g = 2 → cgKind s g = 2 → (cgOf s g).tagged = true → cgBehind s g = false → exec (.cgApply g) s =
      .next (cgFinish (foldS (fun v i => actsApply v i (cgActs s g)) (upto 15) s) g)) ∧
    (cgState s g = 2 →
      let t := cgFinish s g
      cgState t g = 3 ∧ g ∉ t.fw.armed ∧ (cgOf t g).isOpen = false ∧ rd t rCpCgApplyCnt = rd s rCpCgApplyCnt + 1 ∧
        rdF t (rCpCgCtl g) 23 16 = 0))

/-- Where the oldest request of a pair is of the command. DEBUG_SNAPSHOT of a job whose snapshot is not held answers
0xA3; of one held it copies the asked bytes. FLASH_READ inside a partition writes its bytes to the sender and answers
the code of the writing. ROLLBACK_ADVANCE under service firmware, without an emergency, for a class in use raises the
counter to that image's version (at most 128) and never lowers it, and touches no other class; in an emergency nothing
changes. KEY_REVOKE by a token that may be used, which names another slot and leaves a key that may sign, revokes
exactly that slot. ATTEST without a usable identity key answers 0x8F; with one it writes the report. DEBUG_GRANT by a
token for this chip and this boot opens debug; with another nonce it does not. The model's choices in it, by entry of
the assumption log: 47 (opaque cryptography). -/
def Obligations.SecurityCommandsKeepTheirGuards : Prop :=
  (∀ (s u : State) (r : Nat) (e : List Byte), Machine.Inv s → Asked s r 0x50 e u →
    let held := rdB s rRasSnapCtl 30 = true ∧ rdF s rRasSnapCtl 11 0 = arg e 0 2
    let a := 2 ^ 32 * rdF s rRasSnapBaseHi 13 0 + 2 ^ 21 * rdF s rRasSnapBaseLo 31 21
    let g := fabReads u whoCp (a % 2 ^ 40) (arg e 16 4)
    let w := fabWrites g.2 whoCp (ptrAddr r (arg e 8 8)) g.1.data g.1.pois
    (¬held → exec (.debugSnapshot r) s = .next (respond u (reqOf r e) 0xA3 [])) ∧
    (held → g.1.code = 0 → w.1 = 0 → exec (.debugSnapshot r) s = .next (respond w.2 (reqOf r e) 0 (leBytes 4 (arg e 16 4))))) ∧
  (∀ (s u : State) (r d0 a n : Nat) (d : Bool) (e : List Byte), Asked s r 0x60 e u → d0 = arg e 0 1 → flashSrc s = some d →
    partOf s d d0 = some (a, n) → arg e 4 4 + arg e 16 4 ≤ n → 0 < arg e 16 4 → arg e 16 4 ≤ 28672 →
    let w := fabWrites u whoRoot (ptrAddr r (arg e 8 8)) (flashGet s d (a + arg e 4 4) (arg e 16 4))
      (List.replicate (arg e 16 4) false)
    exec (.flashRead r) s = .next (respond w.2 (reqOf r e) w.1 [])) ∧
  (∀ (s u : State) (r : Nat) (e : List Byte), Asked s r 0x61 e u →
    let c := arg e 0 1
    (emergency s = true → exec (.rollbackAdvance r) s = .next (respond u (reqOf r e) 0x84 [])) ∧
    (∀ i, emergency s = false → fwState s = 4 → s.root.inUse.getD c none = some i → c < s.root.rb.length →
      Gives (.rollbackAdvance r) s fun t => t.root.rb.getD c 0 = max (s.root.rb.getD c 0) (min i.version 128) ∧
        (∀ k, k ≠ c → t.root.rb.getD k 0 = s.root.rb.getD k 0) ∧ t.root.revoke = s.root.revoke)) ∧
  (∀ (s u : State) (r : Nat) (e : List Byte) (o : Obj), Asked s r 0x62 e u → objOf s (arg e 0 2) = some o →
    let k := leAt o.body 0 1
    let left := ∃ i, i < 4 ∧ i ≠ k ∧ slotFilled i = true ∧ bitN s.root.revoke i = false ∧ bitN (Config.keyPerm i) 0 = true
    let token := o.closed = true ∧ o.kind = 0 ∧ o.cls = 5 ∧ useCheck s o = 0 ∧ k ≤ 3 ∧ (o.body.drop 1).any (· != 0) = false
    (emergency s = true → exec (.keyRevoke r) s = .next (respond u (reqOf r e) 0x84 [])) ∧
    (emergency s = false → token → o.slot ≠ k → left → Gives (.keyRevoke r) s fun t =>
      bitN t.root.revoke k = true ∧ (∀ i, i ≠ k → bitN t.root.revoke i = bitN s.root.revoke i) ∧ t.root.rb = s.root.rb) ∧
    (emergency s = false → token → (o.slot = k ∨ ¬left) → exec (.keyRevoke r) s = .next (respond u (reqOf r e) 0x8C []))) ∧
  (∀ (s u : State) (r : Nat) (e : List Byte), Asked s r 0x63 e u → 1600 ≤ arg e 40 4 →
    (s.root.seed = none ∨ idUsable s = false → exec (.attest r) s = .next (respond u (reqOf r e) 0x8F [])) ∧
    (∀ seed, s.root.seed = some seed → idUsable s = true →
      let w := fabWrites u whoRoot (ptrAddr r (arg e 32 8)) (attestReport s seed (slice e 16 32)) (List.replicate 1600 false)
      exec (.attest r) s = .next (respond w.2 (reqOf r e) w.1 (if w.1 = 0 then leBytes 4 1600 else [])))) ∧
  (∀ (s u : State) (r : Nat) (e : List Byte) (o : Obj), Machine.Inv s → Asked s r 0x64 e u → objOf s (arg e 0 2) = some o → fwState s ≠ 5 →
    o.closed = true → o.kind = 0 → o.cls = 4 → useCheck s o = 0 →
    let good := o.bind = serial s ∧ leAt o.body 0 4 = 0x47444B5A ∧ (slice o.body 4 28).any (· != 0) = false ∧
      slice o.body 32 32 = bootNonce s
    (good → Gives (.debugGrant r) s fun t => rdB t rSecLock 4 = true) ∧
    (¬good → Gives (.debugGrant r) s fun t => t = respond u (reqOf r e) 0x8C [] ∧ rdB t rSecLock 4 = rdB s rSecLock 4))

/-- For link l below 6 of a state with the invariant, in service and with no received segment waiting. A flit with a bad
CRC is counted, raises NAK and changes neither sequence nor replay buffer; a DATA flit out of sequence raises NAK; the
next one in sequence advances RX_CNT and the sequence, drops the acknowledged flits and adds the credit it reports, and
a segment in it for another chip is queued on its route with TTL one less. FLIT_TRANSMIT of an active link sends the
chosen segments under the next SEQ, keeps the flit for replay and loses no segment, or sends a CTRL flit that uses no
SEQ. LINK_REPLAY keeps the replay buffer and counts the retry, and the 16th from one SEQ takes the link down. LINK_DOWN
empties replay buffer and queue, ends the chip's own operations held there, records its code and counts. LANE_RETIRE
retrains on 7 lanes where a spare is allowed, else takes the link down; LINK_RETRAIN_DONE makes it active. A failed
training is counted; OP_TIMEOUT ends the operation and keeps its tag aside; KEY_SLOT_LOAD loads a key with its count at
0. The model's choices in it, by entry of the assumption log: 13 (what comes from outside is an operand); 62 (corners of
the links). -/
def Obligations.LinkFlitsKeepSequenceAndCredit : Prop :=
  (∀ (s : State) (l : Nat) (f : Flit), Machine.Inv s → l < 6 → 2 ≤ linkState s l → (lnk s l).rxHold = [] →
    let k := lnk s l
    (f.crcOk = false → Gives (.flitReceive l f) s fun t => rd t (rLinkCrcCnt l) = rd s (rLinkCrcCnt l) + 1 ∧
      rdB t (rLinkFlags l) 0 = true ∧ (k.naked = false → (lnk t l).nak = true) ∧ (lnk t l).rxSeq = k.rxSeq ∧
      (lnk t l).replay = k.replay ∧ (lnk t l).credit = k.credit) ∧
    (f.crcOk = true → f.typ = 1 → f.enc = false → (∀ g ∈ f.segs, g.kind < 9) → f.seq ≠ (k.rxSeq + 1) % 4096 →
      Gives (.flitReceive l f) s fun t => (k.naked = false → (lnk t l).nak = true) ∧ (lnk t l).rxSeq = k.rxSeq ∧
        (lnk t l).replay = k.replay ∧ t.rf = s.rf ∧ t.mem = s.mem) ∧
    (f.crcOk = true → f.typ = 1 → f.enc = false → f.segs = [] → f.seq = (k.rxSeq + 1) % 4096 →
      Gives (.flitReceive l f) s fun t => (lnk t l).rxSeq = f.seq ∧ rd t (rLinkRxCnt l) = rd s (rLinkRxCnt l) + 1 ∧
        (lnk t l).credit = List.zipWith (· + ·) k.credit f.credit ∧ (lnk t l).naked = false ∧
        (∀ a r b, k.replay = a ++ r :: b → r.seq = f.ack → (∀ x ∈ a, x.seq ≠ f.ack) → (lnk t l).replay = b) ∧ t.mem = s.mem) ∧
    (∀ g m, f.crcOk = true → f.typ = 1 → f.enc = false → f.segs = [g] → f.seq = (k.rxSeq + 1) % 4096 → linkState s l = 4 →
      1 ≤ g.kind → g.kind < 9 → g.dst ≠ ownChip s → 0 < g.ttl → routeOf s g.dst = some m → m ≠ l →
      Gives (.flitReceive l f) s fun t => (lnk t m).txq = (lnk s m).txq ++ [{ g with ttl := g.ttl - 1 }] ∧
        (lnk t l).freed = k.freed.modify (segVc g.kind) fun x => x + segSlots g)) ∧
  (∀ (s : State) (l : Nat), Machine.Inv s → l < 6 →
    let k := lnk s l
    let pick := pickSegs false k.txq (if rdB s (rLinkCtl l) 30 then 14 else 15) k.credit []
    let data := k.sinceCtrl < 59 ∧ k.replay.length < 512 ∧ pick.1 ≠ []
    (linkState s l = 4 → data → Gives (.flitTransmit l) s fun t => (lnk t l).txSeq = (k.txSeq + 1) % 4096 ∧
      (pick.1 ++ (lnk t l).txq).Perm k.txq ∧ rd t (rLinkTxCnt l) = rd s (rLinkTxCnt l) + 1 ∧
      (∃ f : Flit, (lnk t l).replay = k.replay ++ [f] ∧ (lnk t l).sent = some f ∧ f.typ = 1 ∧ f.seq = k.txSeq ∧
        f.segs.length = pick.1.length) ∧ (lnk t l).sinceCtrl = k.sinceCtrl + 1) ∧
    (linkState s l = 4 → ¬data → Gives (.flitTransmit l) s fun t => (lnk t l).txSeq = k.txSeq ∧ (lnk t l).replay = k.replay ∧
      (lnk t l).txq = k.txq ∧ (lnk t l).sinceCtrl = 0 ∧ ∃ f : Flit, (lnk t l).sent = some f ∧ f.typ = 2 ∧ f.segs = [])) ∧
  (∀ (s : State) (l : Nat), Machine.Inv s → l < 6 →
    let k := lnk s l
    let from' := match k.replay with | f :: _ => f.seq | [] => k.txSeq
    let last := k.lastNak = from' ∧ k.nakCnt = 15
    (k.nakIn = true → (linkState s l = 3 ∨ linkState s l = 4) → Gives (.linkReplay l) s fun t =>
      rd t (rLinkRetryCnt l) = rd s (rLinkRetryCnt l) + 1 ∧ (last → linkState t l < 2 ∧ (lnk t l).replay = []) ∧
      (¬last → (lnk t l).replay = k.replay ∧ (lnk t l).nakIn = false ∧ linkState t l = linkState s l)) ∧
    (linkState s l = 5 → ¬last → Gives (.linkRetrainDone l) s fun t => linkState t l = 4 ∧ (lnk t l).replay = k.replay ∧
      rd t (rLinkRetryCnt l) = rd s (rLinkRetryCnt l) + 1) ∧
    (∀ code, 2 ≤ linkState s l → code < 256 → Gives (.linkDown l code) s fun t => (lnk t l).replay = [] ∧ (lnk t l).txq = [] ∧
      (linkState t l = 1 ↔ rdB s (rLinkCtl l) 31 = true ∧ linkMay s l = true) ∧ linkState t l < 2 ∧
      rdF t (rLinkReason l) 7 0 = code ∧ rd t (rLinkDownCnt l) = rd s (rLinkDownCnt l) + 1 ∧
      ∀ g ∈ (k.replay.flatMap fun f => f.segs) ++ k.txq, (g.kind = 1 ∨ g.kind = 2) → g.src = ownChip s →
        ∀ o ∈ t.lk.ops, o.tag ≠ g.tag) ∧
    (∀ lane, 2 ≤ linkState s l → lane < 8 → bitN (rdF s (rLinkStatus l) 23 16) lane = true →
      let left := rdF s (rLinkStatus l) 23 16 - 2 ^ lane
      Gives (.laneRetire l lane) s fun t => rd t (rLinkSpareCnt l) = rd s (rLinkSpareCnt l) + 1 ∧
        (7 ≤ popN 8 left → rdB s (rLinkCtl l) 28 = true → linkState t l = 5 ∧ rdF t (rLinkStatus l) 23 16 = left) ∧
        ((popN 8 left < 7 ∨ rdB s (rLinkCtl l) 28 = false) → linkState t l < 2)) ∧
    (linkState s l = 1 → Gives (.linkTrainFailed l) s fun t => rd t (rLinkTrainFailCnt l) = rd s (rLinkTrainFailCnt l) + 1 ∧
      t.lk = s.lk ∧ linkState t l = 1) ∧
    (∀ j, j < 2 → Reaches s (rKeyCtl l j) → k.keys.length = 2 → k.keyCnt.length = 2 → Gives (.keySlotLoad l j) s fun t =>
      (lnk t l).keys.getD j [] = ((upto 8).map fun i => rd s (rKeyW l j i)) ++ [rd s (rKeySalt l j)] ∧
      (lnk t l).keyCnt.getD j 1 = 0 ∧ rd t (rKeyCtl l j) = 1 ∧ (lnk t l).keys.getD (1 - j) [] = k.keys.getD (1 - j) [])) ∧
  (∀ (s : State) (tag : Nat) (o : ROp), Machine.Inv s → (s.lk.ops.find? fun o => o.tag == tag) = some o → Gives (.opTimeout tag) s fun t =>
    (∀ p ∈ t.lk.ops, p.tag ≠ tag) ∧ (tag, now s) ∈ t.lk.dead ∧ rd t rDdlOptoCnt = rd s rDdlOptoCnt + 1 ∧
    (o.owner = .none → o.rd = true → t.mem.out = List.replicate o.ix (0, true)))

/-- In a state with the invariant. LINK_TRAINED: of two lone chips the higher (HEAD_PREF, SERIAL) becomes Headland and
the other joins it; a lone chip joins the peer's system; two chips of one system make the link active; of two systems
they block it with 0x75. The Headland's PROBE, and a Skerry's IDENT and LEAVE, are kept until acknowledged; the chip
that hears PROBE, ASSIGN or ROUTES acts and answers. ASSIGN offers a number that no chip uses; a chip that accepts takes
it with its role and Headland, one that runs defers. The acknowledged ASSIGN numbers its peer. ROUTES writes the own
table. A Headland that hears IDENT records the serial, and one that hears LEAVE, or loses a chip, releases the chip and
reserves its number. MGMT_RESEND sends a message again up to three times and then gives it up. A Skerry that no
candidate beats becomes Headland; one that a single candidate beats follows it. A chip with no active link closes its
windows and becomes lone unless its engine runs. The model's choices in it, by entry of the assumption log: 8 (an event
asserts that its time has come and does nothing where its condition fails); 13 (what comes from outside is an operand);
63 (the Headland's lists). -/
def Obligations.ChipsJoinAndLeaveTheSystem : Prop :=
  (∀ (s : State) (l lanes : Nat) (p : Ctrl), Machine.Inv s → l < 6 → linkState s l = 1 →
    let me := (rdF s rDdlPref 3 0, serialOf s)
    (roleOf s = 0 → p.role = 0 → Gives (.linkTrained l lanes p) s fun t => linkState t l = 3 ∧ (lnk t l).peer = some p ∧
      roleOf t = (if prefAbove me (p.pref, p.serial) then 1 else 2) ∧
      hlSerialOf t = (if prefAbove me (p.pref, p.serial) then serialOf s else p.serial)) ∧
    (roleOf s = 0 → p.role ≠ 0 → Gives (.linkTrained l lanes p) s fun t => linkState t l = 3 ∧ roleOf t = 2 ∧ hlSerialOf t = p.hlSerial) ∧
    (roleOf s ≠ 0 → p.role ≠ 0 → p.hlSerial = hlSerialOf s → Gives (.linkTrained l lanes p) s fun t => linkState t l = 4 ∧
      roleOf t = roleOf s) ∧
    (roleOf s ≠ 0 → p.role ≠ 0 → p.hlSerial ≠ hlSerialOf s → Gives (.linkTrained l lanes p) s fun t => linkState t l = 6 ∧
      rdF t (rLinkReason l) 7 0 = 0x75 ∧ rdB t (rLinkFlags l) 5 = true)) ∧
  (∀ (s : State), roleOf s = 1 →
    (∀ via c, Gives (.probe via c) s fun t => t.lk.mgmt = s.lk.mgmt ++ [⟨c, via, mgmtMsg 1 [], now s, 1⟩]) ∧
    (∀ i p n gone, s.lk.peers[i]? = some p → p.chip = none → p.left = false → p.offer = none → numFor s p.serial = some (n, gone) →
      numUsed s n = false ∧ Gives (.assign i) s fun t =>
        (t.lk.peers[i]?).map (fun q => q.offer) = some (some n) ∧
        t.lk.mgmt = s.lk.mgmt ++ [⟨0, some p.link, mgmtMsg 3 (leBytes 1 n ++ leBytes 1 (ownChip s)), now s, 1⟩]) ∧
    (∀ i p, s.lk.peers[i]? = some p → p.chip = none → p.left = false → p.offer = none → numFor s p.serial = none →
      Gives (.assignRetry i) s fun t => t.lk.mgmt = s.lk.mgmt ++ [⟨0, some p.link, mgmtMsg 1 [], now s, 1⟩]) ∧
    (∀ m u, Heard s 2 m u → Gives (.ident none 0 0 0) s fun t =>
      ∃ p ∈ t.lk.peers, p.serial = leAt m.2.2 8 8 ∧ p.ident = m.2.2) ∧
    (∀ c p, (s.lk.peers.find? fun p => !p.left && p.chip == some c) = some p → Gives (.chipDepart c) s fun t =>
      (∀ q ∈ t.lk.peers, q.serial ≠ p.serial) ∧ (p.serial, c, now s) ∈ t.lk.resv) ∧
    (∀ m u p, Heard s 8 m u → (s.lk.peers.find? fun p => !p.left && p.chip == some m.2.1) = some p → Gives .leave s fun t =>
      (∀ q ∈ t.lk.peers, q.serial ≠ p.serial) ∧ (p.serial, m.2.1, now s) ∈ t.lk.resv)) ∧
  (∀ (s u : State) (m : Nat × Nat × List Byte), Machine.Inv s → roleOf s ≠ 1 →
    (Heard s 1 m u → exec (.probe none 0) s = .next (mgmtAck u m 0 0)) ∧
    (Heard s 3 m u → rdB s rEngStatus 0 = true → exec (.assign 0) s = .next (mgmtAck u m 0x79 0)) ∧
    (Heard s 3 m u → rdB s rEngStatus 0 = false → Gives (.assign 0) s fun t => roleOf t = 2 ∧ ownChip t = leAt m.2.2 8 1 % 64 ∧
      rdF t rDdlChip 21 16 = leAt m.2.2 9 1 % 64 ∧ ∀ l, l < 6 → linkState s l = 3 → linkState t l = 4) ∧
    (Heard s 4 m u → Gives (.routes 0 []) s fun t => ∀ c, c < 64 → let n := bitsN (leAt m.2.2 (8 + c / 2) 1) (c % 2 * 4) 4
      rd t (rDdlRoute c) = BitVec.ofNat 32 (b2n (bitN n 3) * 2 ^ 31 + n % 8))) ∧
  (∀ (s : State), Machine.Inv s → roleOf s = 2 →
    (∀ via ver base mib, Gives (.ident via ver base mib) s fun t => t.lk.mgmt = s.lk.mgmt ++
      [⟨rdF s rDdlChip 21 16, via, mgmtMsg 2 (identFields s ver base mib), now s, 1⟩]) ∧
    (rdB s rEngStatus 0 = false → Gives .leave s fun t => t.lk.mgmt = s.lk.mgmt ++
      [⟨rdF s rDdlChip 21 16, none, mgmtMsg 8 [], now s, 1⟩]) ∧
    (∀ cands : List (Nat × Nat × Nat), (∀ c ∈ cands, prefAbove (c.1, c.2.1) (rdF s rDdlPref 3 0, serialOf s) = false) →
      Gives (.headlandElection cands) s fun t => roleOf t = 1 ∧ hlSerialOf t = serialOf s) ∧
    (∀ c : Nat × Nat × Nat, prefAbove (c.1, c.2.1) (rdF s rDdlPref 3 0, serialOf s) = true → c.2.1 ≠ serialOf s →
      Gives (.headlandElection [c]) s fun t => roleOf t = 2 ∧ hlSerialOf t = c.2.1 ∧ rdF t rDdlChip 21 16 = c.2.2 % 64)) ∧
  (∀ (s : State) (i : Nat) (q : Mgmt), s.lk.mgmt[i]? = some q →
    (4 ≤ q.sends → Gives (.mgmtResend i) s fun t => t.lk.mgmt = s.lk.mgmt.eraseIdx i) ∧
    (q.sends < 4 → Gives (.mgmtResend i) s fun t => t.lk.mgmt[i]? = some { q with at0 := now s, sends := q.sends + 1 } ∧
      t.lk.mgmt.length = s.lk.mgmt.length)) ∧
  (∀ (s u : State) (m : Nat × Nat × List Byte) (q : Mgmt) (p : Peer), Heard s 7 m u → leAt m.2.2 8 1 = 3 → leAt m.2.2 9 1 = 0 →
    (s.lk.mgmt.find? fun q => leAt q.data 0 1 == leAt m.2.2 8 1 && (q.via == some m.1 || (q.via.isNone && q.dst == m.2.1))) = some q →
    (s.lk.peers.find? fun p => p.offer == some (leAt q.data 8 1)) = some p → Gives .mgmtAck s fun t =>
      t.lk.mgmt = s.lk.mgmt.erase q ∧ ∀ x ∈ t.lk.peers, x.serial = p.serial → x.chip = some (leAt q.data 8 1) ∧ x.offer = none) ∧
  (∀ (s : State), Machine.Inv s → (∀ l, l < 6 → linkState s l ≠ 4) → roleOf s ≠ 0 → Gives .loneTimeout s fun t =>
    (∀ i, i < 32 → rdB t (rMemWinCtl i) 31 = false) ∧
    (rdB s rEngStatus 0 = false → roleOf t = 0 ∧ ownChip t = 0 ∧ t.lk.peers = []) ∧
    (rdB s rEngStatus 0 = true → t.lk.loneWait = true ∧ roleOf t = roleOf s))

/-- In a state with the invariant. At the Headland, WIN_OPEN between two other chips asks the target first and keeps the
window at its grant stage; WIN_CLOSE of a window of another source asks that source to close it. A chip that hears
WIN_OPEN as target grants agent 12 by a region that grants it already, and then changes nothing; as source it enables a
free window whose check passes, with the chip, range and rights of the message, and answers its index. A chip that hears
WIN_CLOSE as target takes the rights back from the unlocked region that covers the range and answers; as source it
disables its window, and answers only once no operation that passed it is in flight. The model's choices in it, by entry
of the assumption log: 63 (the Headland's lists). -/
def Obligations.WindowsOpenAndCloseInOrder : Prop :=
  (∀ (s : State) (src dst : Nat) (rd' wr' : Bool) (base size : Nat), Machine.Inv s → roleOf s = 1 → src ≠ ownChip s → dst ≠ ownChip s →
    let w (st : WinStage) : SysWin := ⟨src, dst, rd', wr', base, size, st⟩
    (Gives (.winOpen src dst rd' wr' base size) s fun t => w .grant ∈ t.lk.wins ∧
      (∀ v ∈ t.lk.wins, sameWin v (w .grant) = true → v = w .grant) ∧
      t.lk.mgmt = s.lk.mgmt ++ [⟨dst, none, mgmtMsg 5 (winFields (w .grant) false), now s, 1⟩]) ∧
    (∀ st, (s.lk.wins.find? fun v => v.src == src && v.dst == dst && v.base == base && v.size == size) = some (w st) →
      Gives (.winClose src dst base size) s fun t => w .closing ∈ t.lk.wins ∧
        t.lk.mgmt = s.lk.mgmt ++ [⟨src, none, mgmtMsg 6 (winFields (w st) true), now s, 1⟩])) ∧
  (∀ (s u : State) (m : Nat × Nat × List Byte), Machine.Inv s → roleOf s ≠ 1 →
    let d := m.2.2
    let base := leAt d 12 4
    let size := leAt d 16 4
    let rights := remoteBits (leAt d 10 1 != 0) (leAt d 11 1 != 0)
    let on (r : Nat) : Bool := rdB s (rMemRgnCtl r) 31 && rgnCovers s r (0x10000 * base) (0x10000 * base + 0x10000 * size)
    (∀ r, Heard s 5 m u → leAt d 8 1 = 0 →
      ((upto 64).find? fun r => on r && (rd s (rMemRgnMask r)).toNat &&& rights == rights) = some r →
      exec (.winOpen 0 0 false false 0 0) s = .next (mgmtAck u m 0 r)) ∧
    (∀ i, Heard s 5 m u → leAt d 8 1 ≠ 0 → base < 2 ^ 24 → size < 2 ^ 24 →
      ((upto 32).find? fun i => !rdB s (rMemWinCtl i) 31 && !winBusy s i) = some i →
      (winEnable s (leAt d 9 1) (leAt d 10 1 != 0) (leAt d 11 1 != 0) base size).1.1 = 0 →
      Gives (.winOpen 0 0 false false 0 0) s fun t => rdB t (rMemWinCtl i) 31 = true ∧ winRange t i = (0x10000 * base, 0x10000 * base + 0x10000 * size) ∧
        rdF t (rMemWinCtl i) 5 0 = leAt d 9 1 % 64 ∧ rdB t (rMemWinCtl i) 29 = (leAt d 10 1 != 0) ∧
        rdB t (rMemWinCtl i) 28 = (leAt d 11 1 != 0) ∧ ∀ j, j < 32 → j ≠ i → rd t (rMemWinCtl j) = rd s (rMemWinCtl j)) ∧
    (∀ r, Heard s 6 m u → leAt d 8 1 = 0 → ((upto 64).find? fun r => on r && !rdB s (rMemRgnCtl r) 30) = some r →
      Gives (.winClose 0 0 0 0) s fun t => rd t (rMemRgnMask r) = rd s (rMemRgnMask r) &&& ~~~(BitVec.ofNat 32 rights) ∧
        t.lk.inbox = u.lk.inbox) ∧
    (∀ i, Heard s 6 m u → leAt d 8 1 ≠ 0 → winFind s (leAt d 9 1) base size = some i → Gives (.winClose 0 0 0 0) s fun t =>
      rdB t (rMemWinCtl i) 31 = false ∧ (winBusy (winShut s i) i = true → t.lk.inbox = s.lk.inbox) ∧
      (winBusy (winShut s i) i = false → t.lk.inbox = u.lk.inbox)))

/-- In a state with the invariant. CANARY_TILE of a candidate core by another candidate (of another cluster where one
is) counts the tile and posts nothing when the planes agree; a mismatch with no second checker posts one event of the
core, with the column marked as unconfirmed; a second checker counts a second tile, and the event names the core when it
agrees with the first and the checker otherwise. CANARY_ENABLE sets INTERVAL; where EN reads 1 nothing else, and where
it reads 0 its check begins, whose end sets EN and draws a seed. CMP_START of an idle comparator sets BUSY and clears
DIFF. CMP_DONE of two readable ranges of media or control SRAM without damaged words clears BUSY and sets DIFF exactly
when a word differs in data or poison, and FIRST is the first such word. DUAL_RUN_COMPARE of a due pair counts and marks
the pass compared. KILL_SCRUB writes its memory to zero and no other; KILL_SCRUB_DONE empties its INVALID slots and
keeps every other slot. ISLAND_REJOIN quarantines an island with a stale or lost epoch, QUARANTINE_RELEASE frees those
of the mask whose epoch is current; SNAP_HELD_CLEAR clears HELD. The model's choices in it, by entry of the assumption
log: 8 (an event asserts that its time has come and does nothing where its condition fails); 13 (what comes from outside
is an operand); 19 (held reads of a scrubbed memory); 75 (tiles and comparisons in one step). -/
def Obligations.TestsScrubsAndQuarantineAct : Prop :=
  (∀ (s : State) (n c : Nat) (left : List (Nat × Word)), Machine.Inv s → rdB s rRasCtl 0 = true → rdB s rRasCanaryCtl 31 = true →
    canary s n = true → canary s c = true → c ≠ n → (c / 4 ≠ n / 4 ∨ ∀ x, x < 32 → canary s x = true → x / 4 = n / 4) →
    fifoFull 256 s.rasEvt = false →
    let posted (t : State) (kind unit loc k : Nat) : Prop := rd t rRasCanaryCnt = rd s rRasCanaryCnt + BitVec.ofNat 32 k ∧
      ∃ e : List Word, t.rasEvt.ents = s.rasEvt.ents ++ [e] ∧ evF e 0 31 28 = kind ∧ evF e 0 27 24 = 2 ∧ evF e 0 23 16 = 0x92 ∧
        evF e 1 31 24 = unit ∧ evF e 1 23 0 = loc
    (Gives (.canaryTile n c none none left) s fun t => rd t rRasCanaryCnt = rd s rRasCanaryCnt + 1 ∧ t.rasEvt = s.rasEvt ∧
      t.mem = s.mem) ∧
    (∀ l, l < 64 → Gives (.canaryTile n c (some l) none left) s fun t => posted t 0 n (64 + l) 1) ∧
    (∀ l c2, l < 64 → canary s c2 = true → c2 ≠ n → c2 ≠ c →
      (Gives (.canaryTile n c (some l) (some (c2, true)) left) s fun t => posted t 0 n l 2) ∧
      (Gives (.canaryTile n c (some l) (some (c2, false)) left) s fun t => posted t 1 c 0 2))) ∧
  (∀ (s : State), Machine.Inv s →
    (∀ iv, iv < 2 ^ 20 → Reaches s rRasCanaryCtl →
      (rdB s rRasCanaryCtl 31 = true → Gives (.canaryEnable iv) s fun t => rdB t rRasCanaryCtl 31 = true ∧
        rdF t rRasCanaryCtl 19 0 = iv ∧ t.ras = s.ras ∧ t.free = s.free ∧ t.rf.chk = s.rf.chk) ∧
      (rdB s rRasCanaryCtl 31 = false → Gives (.canaryEnable iv) s fun t => rdB t rRasCanaryCtl 31 = false ∧
        rdF t rRasCanaryCtl 19 0 = iv ∧ chkBusy t 0x74 = true ∧ t.ras = s.ras ∧
        (s.rf.held = [] → rdB s rRasQuar 12 = false → Gives (.consistencyCheckEnd 0x74) t fun u =>
          rdB u rRasCanaryCtl 31 = true ∧ rdF u rRasCanaryCtl 19 0 = iv ∧ u.ras.seed = Config.freeWord s.free ∧
          chkBusy u 0x74 = false))) ∧
    (Reaches s rRasCmpCtl → (rdB s rRasCmpCtl 31 = false → Gives .cmpStart s fun t => OnlyRegs s t [rRasCmpCtl] ∧
      rdB t rRasCmpCtl 31 = true ∧ rdB t rRasCmpCtl 30 = false) ∧
      (rdB s rRasCmpCtl 31 = true → exec .cmpStart s = .next s)) ∧
    (Reaches s rRasSnapCtl → Gives .snapHeldClear s fun t => OnlyRegs s t [rRasSnapCtl] ∧
      rd t rRasSnapCtl = setBit (rd s rRasSnapCtl) 30 false) ∧
    (∀ mask, mask < 2 ^ 15 → Reaches s rRasQuarRel → Gives (.quarantineRelease mask) s fun t => OnlyRegs s t [rRasQuar] ∧ ∀ i, i < 15 →
      rdB t rRasQuar i = (rdB s rRasQuar i && !(bitN mask i && rdF s (rRasIslEpoch i) 15 0 == rdF s rRasCfgEpoch 15 0)))) ∧
  (∀ (s : State), Machine.Inv s → rdB s rRasCmpCtl 31 = true → s.ras.scrub = [] → s.mem.ecc = [] →
    let n := (rd s rRasCmpLen).toNat
    let la (i : Nat) := cmpBase s rRasCmpALo rRasCmpAHi + 32 * i
    let lb (i : Nat) := cmpBase s rRasCmpBLo rRasCmpBHi + 32 * i
    let fine (g : Nat) : Prop := g / 2 ^ 40 = ownChip s ∧ regionOf (g % 2 ^ 40) ∈ [some .media, some .ctl] ∧
      accessCode s whoCp false (g % 2 ^ 40) = 0 ∧ barred s whoCp false (g % 2 ^ 40) = false
    let differ (i : Nat) : Prop := ramGet s (la i % 2 ^ 40) 32 ≠ ramGet s (lb i % 2 ^ 40) 32 ∨
      poisGet s (la i % 2 ^ 40 / 32) ≠ poisGet s (lb i % 2 ^ 40 / 32)
    (∀ i, i < n → fine (la i) ∧ fine (lb i)) → Gives (.cmpDone []) s fun t => rdB t rRasCmpCtl 31 = false ∧ t.mem = s.mem ∧
      (rdB t rRasCmpCtl 30 = true ↔ ∃ i, i < n ∧ differ i) ∧
      ∀ i, i < n → differ i → (∀ j, j < i → ¬differ j) → (rd t rRasCmpFirst).toNat = i) ∧
  (∀ (s : State) (id : Nat) (j h : Job), Machine.Inv s → jobOf s id = some j → (s.fw.jobs.find? fun x => x.shadowOf == some id) = some h →
    j.done = h.done → j.cmped < j.done → j.rlen ≠ 0 → (∀ p ∈ s.fw.pubs, p.job ≠ id) → rdB s rRasCmpCtl 31 = false →
    Gives (.dualRunCompare id) s fun t => rd t rRasDualCnt = rd s rRasDualCnt + 1 ∧
      jobOf t id = some { j with cmped := j.done } ∧ rdB t rRasCmpCtl 31 = false) ∧
  (∀ (s : State) (m : Nat) (x : Scrub), Machine.Inv s → m < 40 → (s.ras.scrub.find? fun x => x.mem == m) = some x →
    (x.zeroed = false → x.snap = none → Gives (.killScrub m) s fun t =>
      (∀ a, memBase m ≤ a → a < memBase m + 0x200000 → mget byte0 t.mem.sram a = 0 ∧ poisGet t (a / 32) = false ∧
        eccGet t (a / 32) = 0) ∧
      (∀ a, a < memBase m ∨ memBase m + 0x200000 ≤ a → mget byte0 t.mem.sram a = mget byte0 s.mem.sram a) ∧
      (∀ y ∈ t.ras.scrub, y.mem = m → y.zeroed = true) ∧ t.mem.slots = s.mem.slots) ∧
    (x.zeroed = true → Gives (.killScrubDone m) s fun t => (∀ y ∈ t.ras.scrub, y.mem ≠ m) ∧ t.mem.sram = s.mem.sram ∧
      (∀ i, i < 512 → (slotGet t (512 * m + i)).tag =
        if (slotGet s (512 * m + i)).tag = .invalid then .empty else (slotGet s (512 * m + i)).tag) ∧
      (∀ k, k < 512 * m ∨ 512 * m + 512 ≤ k → slotGet t k = slotGet s k) ∧
      ((∀ y ∈ s.ras.scrub, y.mem ≠ m → memClu y.mem ≠ memClu m) → rdB t rRasKscrub (memClu m) = false))) ∧
  (∀ (s : State) (i : Nat) (lost : Bool), Machine.Inv s → i < 15 →
    (lost = false → rdF s (rRasIslEpoch i) 15 0 = rdF s rRasCfgEpoch 15 0 → exec (.islandRejoin i lost) s = .next s) ∧
    (lost = true ∨ rdF s (rRasIslEpoch i) 15 0 ≠ rdF s rRasCfgEpoch 15 0 → Gives (.islandRejoin i lost) s fun t =>
      rdB t rRasQuar i = true ∧ t.mem.pois = s.mem.pois ∧
      (i < 8 → ∀ j k, j < 5 → k < 512 → (slotGet t (512 * cluMem i j + k)).tag = .invalid)))

/-- In a state with the invariant. EVENT_CLASSIFY of the oldest of several records takes it from the FIFO: one of no
class leaves the records as they are; the first of its kind, unit and place adds a record of class 0 and one journal
entry; the third within its window, for a core, adds one of class 2 and retires the core. MEM_CE_POLL without a
difference classifies nothing. JOURNAL_WRITE into an open segment writes the oldest entry with the next sequence number,
chained to the last; JOURNAL_SEAL of a full open segment with a usable key seals it. RAS_RETIRE of cores sets exactly
the bits of its mask and advances the configuration epoch, skipping 0. VARIANT_SWITCH changes nothing while the class is
the program's, asks a running engine to park, and migrates one that does not run. LOCKSTEP_MISMATCH holds the control
processor, counts it, stops the engine, loses what firmware held, enters Lowwater for that cause and, where the firewall
lets firmware write it, leaves FW_STATE 3. The model's choices in it, by entry of the assumption log: 8 (an event
asserts that its time has come and does nothing where its condition fails); 32 (units and codes of health events); 33
(the pin of a polled correction); 45 (corners of the journal); 73 (how events are counted); 85 (context on another
chip); 86 (the partition of a joining cluster). -/
def Obligations.EventsAreClassifiedAndUnitsRetired : Prop :=
  (∀ (s : State) (e : List Word) (es : List (List Word)), Machine.Inv s → s.rasEvt.ents = e :: es → es ≠ [] →
    let kind := evF e 0 31 28
    let unit := evF e 1 31 24
    let loc := evF e 1 23 0
    let same := s.root.recs.filter fun r => r.kind == kind && r.unit == unit && r.loc == loc && r.cls < 3
    let near := same.filter fun r => poweredMs s ≤ r.powered + windowMs kind
    (classified kind (evF e 0 27 24) = false → Gives .eventClassify s fun t => t.rasEvt.ents = es ∧ t.root = s.root ∧
      t.rf = s.rf ∧ t.mem = s.mem) ∧
    (classified kind (evF e 0 27 24) = true → same = [] → Gives .eventClassify s fun t => t.rasEvt.ents = es ∧
      t.root.recs = s.root.recs ++ [⟨kind, unit, loc, s.root.pcycle, poweredMs s, 0⟩] ∧
      t.root.jq = s.root.jq ++ [journalBody s e 0 1 1] ∧ t.rf = s.rf) ∧
    (classified kind (evF e 0 27 24) = true → kind ≤ 2 → unit < 32 → 2 ≤ near.length → Gives .eventClassify s fun t =>
      rdB t rRasRetireCores unit = true ∧
      t.root.recs = s.root.recs ++ [⟨kind, unit, loc, s.root.pcycle, poweredMs s, 2⟩])) ∧
  (∀ (s : State), Machine.Inv s → s.fw.ceSeen.length = 30 →
    (∀ i, i < 30 → (rd s (rMemCe (i / 5) (i % 5))).toNat = s.fw.ceSeen.getD i 0) → Gives .memCePoll s fun t => t = s) ∧
  (∀ (s : State) (b : List Byte) (bs : List (List Byte)), s.root.jq = b :: bs → s.root.sealed = false → s.root.jsegSeq ≠ 0 →
    s.root.jcnt < 1000 → Gives .journalWrite s fun t => t.root.jq = bs ∧ t.root.jcnt = s.root.jcnt + 1 ∧
      t.root.jseq = s.root.jseq + 1 ∧ t.root.jseg = s.root.jseg ∧
      t.root.chain = (Config.shake (s.root.chain ++ (leBytes 4 s.root.jseq ++ b.drop 4))).take 16) ∧
  (∀ (s : State) (d : Bool) (a : Nat) (seed : List Byte), 1000 ≤ s.root.jcnt → s.root.sealed = false → idUsable s = true →
    journalAt s = some (d, a) → s.root.seed = some seed → Gives .journalSeal s fun t => t.root.sealed = true ∧
      t.root.jcnt = s.root.jcnt ∧ t.root.chain = s.root.chain ∧ t.rf = s.rf) ∧
  (∀ (s : State) (mask : Nat), Machine.Inv s → Reaches s rRasRetireCores → mask < 2 ^ 32 → Gives (.rasRetire 0 mask) s fun t =>
    rd t rRasRetireCores = rd s rRasRetireCores ||| BitVec.ofNat 32 mask ∧
    rdF t rRasCfgEpoch 15 0 = (if rdF s rRasCfgEpoch 15 0 = 65535 then 1 else rdF s rRasCfgEpoch 15 0 + 1)) ∧
  (∀ (s : State) (srcs : List (Nat × Nat)) (p : Prog), Machine.Inv s → s.fw.prog = some p →
    ((shapeClass s).toNat = p.cls → exec (.variantSwitch srcs) s = .next s) ∧
    ((shapeClass s).toNat ≠ p.cls → shapeClass s ≠ 0 → rdB s rEngStatus 0 = true → rdB s rEngStatus 1 = false →
      Gives (.variantSwitch srcs) s fun t => OnlyRegs s t [rEngCtl] ∧ rd t rEngCtl = setBit (rd s rEngCtl) 2 true) ∧
    (∀ o, (shapeClass s).toNat ≠ p.cls → shapeClass s ≠ 0 → rdB s rEngStatus 0 = false → objOf s p.handle = some o →
      ((rd s rCpPassCnt).toNat = s.fw.passSeen ∨ rdF s rEngTieStatus 19 0 ≠ p.barCount - 1) →
      exec (.variantSwitch srcs) s = .next (migrate s p o (srcs.map fun x => (x.1, srcOf x.2)) none)) ∧
    ((shapeClass s).toNat ≠ p.cls → shapeClass s = 0 → Gives (.variantSwitch srcs) s fun t => t.fw.prog = none ∧
      bitN t.root.low 0 = true ∧ rdB t rEngCtl 0 = false)) ∧
  (∀ (s : State), Machine.Inv s → Gives .lockstepMismatch s fun t => t.root.held = true ∧ t.root.lockCnt = s.root.lockCnt + 1 ∧
    rdB t rCpStatus 0 = true ∧ rdB t rEngCtl 0 = false ∧ t.fw.jobs = [] ∧ t.fw.prog = none ∧ t.fw.objs = [] ∧
    bitN t.root.low 2 = true ∧
    (PageSafe s 6 2 → fwState t = 3) ∧ rdB t rVidCtl 0 = false ∧ rdB t rDdlCtl 0 = false)

/-- In a state with the invariant. MODE_WRITE of the mode in force does nothing; a change refused by its first failing
condition writes only PWR_STATUS.REASON; an accepted one puts MODE, the thermal cap, CAP_EFF and THROTTLE in force, and
entering Lowwater disables the engine and MEM. TELEMETRY_SAMPLE takes each valid rail's power, adds the chip power to
the samples and to the measured energy, and latches VR_FAULT on a fault and OVERPOWER at ten samples above 1.1 times the
cap; TELEMETRY_LOST latches TELEMETRY. CAPPING_LOOP_UPDATE moves the thermal cap and sets R by the formula of R472.
DROOP_TRIP halves rate and bucket and counts; DROOP_RISE_STEP raises the rate by R >> 4, the eighth to R.
TEMPERATURE_SAMPLE writes the readings and Tj, and latches THERMAL at 110 degrees; THERMAL_TRIP acts at 115 degrees
only. EMERGENCY_LATCH sets the bit and PWR_STATUS bit 3, and a new latch sets attention bit 6; EMERGENCY_CLEARABLE sets
CLEARABLE while the condition is absent; EMERGENCY_CLEAR clears exactly the clearable bits of its mask. ENERGY_RECONCILE
gives each job its share of the energy measured above idle. The model's choices in it, by entry of the assumption log: 8
(an event asserts that its time has come and does nothing where its condition fails); 13 (what comes from outside is an
operand); 35 (rounding and the thermal cap). -/
def Obligations.ModesTelemetryAndEmergenciesFollowTheirRules : Prop :=
  (∀ (s : State) (m : Nat), Machine.Inv s → Reaches s rPwrCtl → m < 4 →
    let old := rdF s rPwrStatus 1 0
    let cap (i : Nat) : Nat := [75000, 45000, 25000, 8000].getD i 0
    let code : Nat := if rdF s rPwrEmerg 3 0 ≠ 0 ∧ cap old < cap m then 0x84
      else if m = 2 ∧ (2 < ((upto 6).filter fun l => rdB s rPwrNeapLinks l).length ∨
        ((upto 6).any fun l => !rdB s rPwrNeapLinks l && rdF s (rLinkStatus l) 31 28 == 4) = true) then 0x81
      else if m = 3 ∧ rdB s rEngStatus 0 = true then 0x82 else 0
    (m = old → exec (.modeWrite m) s = .next s) ∧
    (m ≠ old → code ≠ 0 → Gives (.modeWrite m) s fun t => OnlyRegs s t [rPwrStatus] ∧ rdF t rPwrStatus 15 8 = code ∧
      rdF t rPwrStatus 7 0 = rdF s rPwrStatus 7 0) ∧
    (m ≠ old → code = 0 → Gives (.modeWrite m) s fun t => rdF t rPwrCtl 5 4 = m ∧ rdF t rPwrStatus 1 0 = m ∧
      rdF t rPwrStatus 15 8 = 0 ∧
      t.pwr.therm = (if s.pwr.therm = cap old then cap m else min s.pwr.therm (cap m)) ∧
      rdF t rPwrCapEff 16 0 = min (min (cap m) (rdF s rPwrCapLim 16 0)) t.pwr.therm ∧
      rdB t rPwrStatus 4 = decide (t.pwr.therm < cap m) ∧
      (m = 3 → bitN t.root.low 3 = true ∧ rdB t rEngCtl 0 = false ∧ rdB t rMemCtl 0 = false) ∧
      (m ≠ 3 → t.root.low = if old = 3 then s.root.low &&& 7 else s.root.low))) ∧
  (∀ (s : State), Machine.Inv s →
    (∀ rails : List (Option (Nat × Nat) × Bool), rails.length = 8 → s.pwr.mw.length = 8 →
      let valid (r : Nat) : Bool := rdB s (rPwrRail r) 31
      let fault : Bool := (upto 8).any fun r => (rails.getD r (none, false)).2 && valid r
      let lim := min (min ([75000, 45000, 25000, 8000].getD (rdF s rPwrStatus 1 0) 0) (rdF s rPwrCapLim 16 0)) s.pwr.therm
      Gives (.telemetrySample rails) s fun t =>
        let p := ((upto 8).filter valid).foldl (fun n r => n + t.pwr.mw.getD r 0) 0
        (∀ r, r < 8 → t.pwr.mw.getD r 0 = match valid r, (rails.getD r (none, false)).1 with
          | true, some (v, i) => v * i / 1000
          | _, _ => s.pwr.mw.getD r 0) ∧
        t.pwr.samples = s.pwr.samples ++ [p] ∧ t.pwr.emeas = s.pwr.emeas + 100 * p ∧
        t.pwr.ovr = (if 11 * lim < 10 * p then s.pwr.ovr + 1 else 0) ∧
        rdB t rPwrEmerg 1 = (rdB s rPwrEmerg 1 || fault) ∧
        rdB t rPwrEmerg 3 = (rdB s rPwrEmerg 3 || decide (10 ≤ t.pwr.ovr))) ∧
    (∀ r, r < 8 → (rdB s (rPwrRail r) 31 = false → exec (.telemetryLost r) s = .next s) ∧
      (rdB s (rPwrRail r) 31 = true → Gives (.telemetryLost r) s fun t => rdB t rPwrEmerg 2 = true)) ∧
    (∀ temps : List Int, temps.length = 14 → (∀ x ∈ temps, -32768 ≤ x ∧ x < 32768) →
      ∀ m, m ∈ temps → (∀ x ∈ temps, x ≤ m) → Gives (.temperatureSample temps) s fun t =>
        sextN 16 (rdF t rPwrTj 15 0) = m ∧ (∀ i, i < 14 → sextN 16 (rdF t (rPwrTemp i) 15 0) = temps.getD i 0) ∧
        rdB t rPwrEmerg 0 = (rdB s rPwrEmerg 0 || decide (16 * 110 ≤ m))) ∧
    (sextN 16 (rdF s rPwrTj 15 0) < 16 * 115 → exec .thermalTrip s = .next s) ∧
    (16 * 115 ≤ sextN 16 (rdF s rPwrTj 15 0) → Gives .thermalTrip s fun t =>
      t = { s with pwr := { s.pwr with tripped := true, tripRec := true } })) ∧
  (∀ (s : State) (obs : Nat), Machine.Inv s → obs ≤ 256 →
    let tj := sextN 16 (rdF s rPwrTj 15 0)
    let mode := [75000, 45000, 25000, 8000].getD (rdF s rPwrStatus 1 0) 0
    let n := s.pwr.samples.length
    let pm := if n = 0 then rdF s rPwrPMw 16 0 else s.pwr.samples.foldl (· + ·) 0 / n
    (rdB s rPwrCtl 0 = false → exec (.cappingLoopUpdate obs) s = .next s) ∧
    (rdB s rPwrCtl 0 = true → Gives (.cappingLoopUpdate obs) s fun t =>
      let cap := min (min mode (rdF s rPwrCapLim 16 0)) t.pwr.therm
      let r0 : Int := if obs + 16 < rdF s rPwrR 8 0 then obs + 16 else rdF s rPwrR 8 0
      (16 * 100 ≤ tj → t.pwr.therm = if s.pwr.therm ≤ 8000 then s.pwr.therm else max 8000 (s.pwr.therm - 2000)) ∧
      (tj ≤ 16 * 98 → t.pwr.therm = min mode (s.pwr.therm + 1000)) ∧
      (16 * 98 < tj → tj < 16 * 100 → t.pwr.therm = s.pwr.therm) ∧
      rdB t rPwrStatus 4 = decide (t.pwr.therm < mode) ∧
      (rdF t rPwrR 8 0 : Int) = min (max (r0 + (((cap : Int) - pm) * rdF s rPwrKp 15 0) / 65536) (rdF s rPwrRmin 8 0)) 256 ∧
      (pm < 2 ^ 17 → rdF t rPwrPMw 16 0 = pm) ∧ rdF t rPwrCapEff 16 0 = cap ∧ t.pwr.samples = [])) ∧
  (∀ (s : State) (k : Nat), Machine.Inv s → k < 8 →
    let r := if rdB s rPwrCtl 0 = true then rdF s rPwrR 8 0 else 64
    (Gives (.droopTrip k) s fun t => OnlyRegs { s with clus := t.clus } t [rPwrDroopCnt k] ∧
      rd t (rPwrDroopCnt k) = rd s (rPwrDroopCnt k) + 1 ∧ (∀ m, m ≠ k → clu t m = clu s m) ∧
      clu t k = { clu s k with droop := some ((clu s k).droop.getD r / 2), droopSteps := 0, bucket := (clu s k).bucket / 2 }) ∧
    ((clu s k).droop = none → exec (.droopRiseStep k) s = .next s) ∧
    (∀ d, (clu s k).droop = some d → Gives (.droopRiseStep k) s fun t => t = { s with clus := t.clus } ∧
      (∀ m, m ≠ k → clu t m = clu s m) ∧
      clu t k = if (clu s k).droopSteps < 7 then
        { clu s k with droop := some (d + r / 16), droopSteps := (clu s k).droopSteps + 1 }
        else { clu s k with droop := none, droopSteps := 0 })) ∧
  (∀ (s : State) (i : Nat), Machine.Inv s → i < 4 →
    (Gives (.emergencyLatch i) s fun t => rdB t rPwrEmerg i = true ∧ rdB t rPwrEmerg (16 + i) = false ∧
      bitN t.pwr.cond i = true ∧
      (∀ j, j < 4 → j ≠ i → rdB t rPwrEmerg j = rdB s rPwrEmerg j ∧ rdB t rPwrEmerg (16 + j) = rdB s rPwrEmerg (16 + j)) ∧
      (rdB s rPwrEmerg i = true → t.mem = s.mem) ∧
      (rdB s rPwrEmerg i = false → rdB t rPwrStatus 3 = true ∧ rdB t rHptAttnPend 6 = true)) ∧
    (rdB s rPwrEmerg i = true → bitN s.pwr.cond i = false → Gives (.emergencyClearable i) s fun t =>
      OnlyRegs s t [rPwrEmerg] ∧ rd t rPwrEmerg = setBit (rd s rPwrEmerg) (16 + i) true) ∧
    (rdB s rPwrEmerg i = false ∨ bitN s.pwr.cond i = true → exec (.emergencyClearable i) s = .next s) ∧
    (∀ m, m < 16 → cgDrops s rPwrEmerg = false → Gives (.emergencyClear m) s fun t =>
      (rdB t rPwrEmerg i = (rdB s rPwrEmerg i && !(bitN m i && rdB s rPwrEmerg (16 + i) && !bitN s.pwr.cond i))) ∧
      (rdB s rPwrStatus 3 = (rdF s rPwrEmerg 3 0 != 0) → rdB t rPwrStatus 3 = (rdF t rPwrEmerg 3 0 != 0)) ∧
      (rdB s rPwrEmerg i = true → rdB t rPwrEmerg i = false → rdB t rHptAttnPend 6 = true))) ∧
  (∀ (s : State), Machine.Inv s → mwf nat0 s.pwr.seen = true → (s.pwr.share.map fun x => x.1).Nodup →
    let job (src : Nat) := rdF s (srcJobReg src) 11 0
    let m (id : Nat) := (((s.pwr.share.find? fun x => x.1 == id).map fun x => x.2).getD 0) +
      ((upto 96).filter fun src => job src == id).foldl (fun n src => n + srcEnergy s src) 0
    let tot := s.pwr.share.foldl (fun n x => n + x.2) 0 + (upto 96).foldl (fun n src => n + srcEnergy s src) 0
    let dyn := s.pwr.emeas - Config.energyIdle (rdF s rPwrStatus 1 0) (rd s rPwrTj)
    Gives .energyReconcile s fun t => t.pwr.emeas = 0 ∧ t.pwr.share = [] ∧ t.fw.energy = s.fw.energy + s.pwr.emeas ∧
      t.rf = s.rf ∧ (∀ src e, src < 96 → e < 8 → mget nat0 t.pwr.seen (8 * src + e) = (rd s (rPwrAct src e)).toNat) ∧
      ∀ id j, id ≠ 0 → jobOf s id = some j → j.shadowOf = none → (∀ x ∈ s.fw.jobs, x.shadowOf ≠ some id) →
        jobOf t id = some { j with energy := j.energy + dyn * m id / tot })

/-- In a state with the invariant. ROM_BOOT acts only after reset release with no boot yet: then the firewall is on with
region 63 locked, HPT is on, attention bit 3 is set, BOOT_ORDER holds the order, and, the lower regions being off as
after reset, MAGIC stands and under order 3 the ROM waits for the host. BOOT_REQ of the host while the ROM waits for it,
with the log ring where the ROM put it and a control page that the firewall lets firmware write: a SEQ already taken
does nothing; a bad place or a length below 3,200 is answered with 0x89, and if no source follows, the recovery path is
taken, with ID_LOCK and FW_STATE 5; an image with a good load table that passes the check is answered with 0, and boots
on the main path with its entry points, the locks of R487 and FW_STATE 2. BOOT_SOURCE_TIMEOUT never ends the host port
as the last source, and under order 4 or 6 goes on to it. RECOVERY_ACTIVATE refuses what is not a closed image of class
0, revoked or too old; without a flash in the order it boots the image (FW_STATE 2 where the firewall lets firmware
write it) and leaves ID_LOCK as it is; with one it writes both copies and resets. RESTART_ACTIVATE is refused with 0x97
after a second mismatch; else a good copy switches SEC_BANK, releases the control processor, and leaves Lowwater for
that cause. SHALLOWS_START acts in FW_STATE 2 alone, and starts nothing with no fit cluster. The model's choices in it,
by entry of the assumption log: 11 (how the chip starts); 40 (the order of reset and release); 43 (where firmware puts
pages); 44 (corners of the boot order); 46 (the Shallows program); 47 (opaque cryptography). -/
def Obligations.BootTriesItsSourcesAndTheMonitorsActivate : Prop :=
  (∀ (s : State), Machine.Inv s →
    let due := s.io.released = true ∧ s.root.src = none ∧ rdF s rBootStatus 7 6 = 0
    let ord := if bitN Config.bootOvr 3 then Config.bootOvr % 8 else s.root.straps
    (¬due → exec .romBoot s = .next s) ∧
    let free := (∀ r, r < 57 → rdB s (rMemRgnCtl r) 31 = false) ∧ rdB s rTopIslRst 9 = false
    (due → s.root.straps < 8 → Gives .romBoot s fun t => rdB t rMemFwCtl 0 = true ∧ rd t (rMemRgnBase 63) = 0x230000 ∧
      rd t (rMemRgnSize 63) = 0xC ∧ rd t (rMemRgnMask 63) = 0x8000A000 ∧ rd t (rMemRgnCtl 63) = 0xC0000000 ∧
      rdB t rHptCtl 0 = true ∧ rdB t rHptAttnPend 3 = true ∧ (free → ramNat t (hpAddr 0) 4 = 0x5A4B4850) ∧
      rdF t rBootOrder 10 8 = ord ∧ t.pwr.tripRec = false ∧
      (ord = 3 → t.root.src = some 0 ∧ (free → fwState t = 1) ∧ t.root.held = s.root.held ∧ rdF t rBootStatus 7 6 = 0))) ∧
  (∀ (s : State) (i : Nat), Machine.Inv s → s.root.src = some i → fwState s = 1 → (bootOrder s)[i]? = some 2 →
    ramNat s (hpAddr 0x800) 4 = 0x10000 → ramNat s (hpAddr 0x804) 4 = 0x40000 → PageSafe s 0 0x1000 →
    let q := ramNat s (hpAddr 0xC20) 4
    let o := ramNat s (hpAddr 0xC24) 4
    let n := ramNat s (hpAddr 0xC28) 4
    let ok := 0x10000 ≤ o ∧ o % 64 = 0 ∧ o + n ≤ 0x400000
    let img := ramGet s (hpAddr o) n
    (q = s.root.reqSeq → exec (.bootReq none) s = .next s) ∧
    (q ≠ s.root.reqSeq → ¬ok ∨ n < 3200 → Gives (.bootReq none) s fun t => ramNat t (hpAddr 0xC00) 4 = q ∧
      ramNat t (hpAddr 0xC04) 1 = 0x89 ∧ ramNat t (hpAddr 0xC05) 1 = 2 ∧ t.root.reqSeq = q ∧
      ((bootOrder s)[i + 1]? = none → fwState t = 5 ∧ rdF t rBootStatus 7 6 = 2 ∧ rdB t rSecLock 1 = true ∧
        rdB t rSecLock 2 = true ∧ rdB t rSecLock 0 = rdB s rSecLock 0 ∧ ramNat t (hpAddr 0xC) 1 = 1 ∧
        t.root.held = s.root.held)) ∧
    (∀ es, q ≠ s.root.reqSeq → ok → 3200 ≤ n → loadTable (img.take (n - 3200)) 0 (n - 3200) = some es →
      imageCheck s (img.drop (n - 3200)) (img.take (n - 3200)) n [0] = 0 → Gives (.bootReq none) s fun t =>
        ramNat t (hpAddr 0xC00) 4 = q ∧ ramNat t (hpAddr 0xC04) 1 = 0 ∧ rdF t rBootStatus 7 6 = 1 ∧ fwState t = 2 ∧
        t.root.held = false ∧ t.root.entry = leAt img 8 4 ∧ t.root.rootEntry = leAt img 12 4 ∧ t.root.idKey = true ∧
        rdB t rSecLock 0 = true ∧ rdB t rSecLock 1 = true ∧ rdB t rSecLock 3 = true ∧ rdB t rSecLock 2 = rdB s rSecLock 2 ∧
        t.root.tries = s.root.tries + 1 ∧ ramNat t (hpAddr 0xC) 1 = 4)) ∧
  (∀ (s : State),
    (s.root.src = none ∨ fwState s ≠ 1 → exec .bootSourceTimeout s = .next s) ∧
    (∀ i, s.root.src = some i → (bootOrder s)[i]? = some 2 → (bootOrder s).length ≤ i + 1 →
      exec .bootSourceTimeout s = .next s) ∧
    (s.root.src = some 0 → fwState s = 1 → rdF s rBootOrder 10 8 = 4 ∨ rdF s rBootOrder 10 8 = 6 →
      exec .bootSourceTimeout s = .next { s with root := { s.root with src := some 1 } })) ∧
  (∀ (s u : State) (r : Nat) (e : List Byte), Machine.Inv s → Asked s r 0x18 e u →
    (fwState s ≠ 5 → exec (.recoveryActivate r) s = .next s) ∧
    (fwState s = 5 → objOf s (arg e 0 2) = none → exec (.recoveryActivate r) s = .next (respond u (reqOf r e) 0xAF [])) ∧
    (∀ o, fwState s = 5 → objOf s (arg e 0 2) = some o →
      let good := o.closed = true ∧ o.kind = 0 ∧ o.cls = 0
      let img := (fabReads u whoRoot o.base o.total).1.data
      (¬good → exec (.recoveryActivate r) s = .next (respond u (reqOf r e) 0xAF [])) ∧
      (good → bitN s.root.revoke o.slot = true → exec (.recoveryActivate r) s = .next (respond u (reqOf r e) 0x88 [])) ∧
      (good → bitN s.root.revoke o.slot = false → o.version < s.root.rb.getD 0 0 →
        exec (.recoveryActivate r) s = .next (respond u (reqOf r e) 0x8B [])) ∧
      (good → bitN s.root.revoke o.slot = false → s.root.rb.getD 0 0 ≤ o.version → (∀ x ∈ bootOrder s, 2 ≤ x) →
        Gives (.recoveryActivate r) s fun t => (PageSafe s 6 2 → rgnOf s (hpAddr 6) ≠ some 61 → fwState t = 2) ∧
          t.root.held = false ∧ t.root.entry = leAt img 8 4 ∧
          rdB t rSecLock 0 = true ∧ rdB t rSecLock 2 = rdB s rSecLock 2 ∧ t.fw.neg = [] ∧
          t.root.inUse = s.root.inUse.set 0 (some ⟨o.slot, o.version, o.digest⟩)) ∧
      (∀ x aA nA aB nB, good → bitN s.root.revoke o.slot = false → s.root.rb.getD 0 0 ≤ o.version →
        (bootOrder s).find? (fun x => decide (x < 2)) = some x →
        mwf (Config.flashByte (x == 1)) (if x = 1 then s.root.emmc else s.root.nor) = true → partOf s (x == 1) 1 = some (aA, nA) →
        partOf s (x == 1) 2 = some (aB, nB) → 8192 ≤ aA → 8192 ≤ aB → aA + nA ≤ aB ∨ aB + nB ≤ aA →
        img.length ≤ nA → img.length ≤ nB → Gives (.recoveryActivate r) s fun t => flashGet t (x == 1) aA img.length = img ∧
          flashGet t (x == 1) aB img.length = img ∧ t.root.held = true ∧ rdF t rBootStatus 7 6 = 0))) ∧
  (∀ (s u : State) (r : Nat) (e : List Byte), Machine.Inv s → Asked s r 0x18 e u →
    (fwState s ≠ 3 ∨ s.root.held = false ∨ s.root.lockCnt = 0 → exec (.restartActivate r) s = .next s) ∧
    (fwState s = 3 → s.root.held = true → 2 ≤ s.root.lockCnt →
      exec (.restartActivate r) s = .next (respond u (reqOf r e) 0x97 [])) ∧
    (∀ o, fwState s = 3 → s.root.held = true → s.root.lockCnt = 1 → objOf s (arg e 0 2) = some o → o.closed = true →
      o.kind = 0 → o.cls = 1 → bitN s.root.revoke o.slot = false → s.root.rb.getD 1 0 ≤ o.version →
      let b := bankLoad u o
      (rdF s rPwrEmerg 3 0 ≠ 0 → exec (.restartActivate r) s = .next (respond u (reqOf r e) 0x84 [])) ∧
      (rdF s rPwrEmerg 3 0 = 0 → b.1 ≠ 0 → exec (.restartActivate r) s = .next (respond b.2 (reqOf r e) b.1 [])) ∧
      (rdF s rPwrEmerg 3 0 = 0 → b.1 = 0 → Gives (.restartActivate r) s fun t => (PageSafe s 6 2 → fwState t = 4) ∧ t.root.held = false ∧
        rdF t rSecBank 0 0 = 1 - rdF s rSecBank 0 0 ∧ bitN t.root.low 2 = false ∧ t.fw.neg = [] ∧
        t.root.inUse = s.root.inUse.set 1 (some ⟨o.slot, o.version, o.digest⟩)))) ∧
  (∀ (s : State) (srcs : List (Nat × Nat)) (rsrc rlen : Nat), Machine.Inv s →
    (fwState s ≠ 2 ∨ s.root.held = true → exec (.shallowsStart srcs rsrc rlen) s = .next s) ∧
    (fwState s = 2 → s.root.held = false → s.root.shal = none → exec (.shallowsStart srcs rsrc rlen) s =
      .next (if rdB s rMemCtl 0 = true then s else memTry s)) ∧
    (fwState s = 2 → s.root.held = false → rdB s rMemCtl 0 = true → s.root.shal ≠ none →
      (s.fw.prog ≠ none → exec (.shallowsStart srcs rsrc rlen) s = .next { s with root := { s.root with shal := none } }) ∧
      (s.fw.prog = none → Gives (.shallowsStart srcs rsrc rlen) s fun t => t.root.shal = none ∧
        ((∀ k, k < 8 → rdB s rRasQuar k = true ∨ (healthyPos s k).length < classCores (shapeClass s)) →
          t.fw.prog = none ∧ t.fw.jobs = s.fw.jobs))))

/-- POWER_ON_RESET, CHIP_RESET by the pin and CLK_LOST put the machine into its reset state and hold it there, each with
its cause; the waiting commands, the flash, the fuses and the straps as latched stay, and the trip record does unless
VDD_AON fell. RESET_DEASSERT without a low pin and REFCLK_RETURN without a lost clock do nothing; else, and at a
software CHIP_RESET, once nothing holds the reset, every PLL reads locked, TOP_RST_CAUSE holds the causes and the trip,
and the root core is out of reset unless TESTEN was latched high; while something still holds it, it stays.
PLL_LOCK_LOSS and PLL_RELOCK write their island's bit, and a relocked cluster of a running placement counts its held
beats as blocked. ISLAND_RESET, in a state with the invariant, of an island in a running placement is dropped with
CFG_WR_DROP; of islands 12 and 14 or a held island it does nothing; of a free cluster it sets HOLD and initialises
cores, registers, memories and tags of that cluster and no other memory; of the DDR island it leaves no DRAM contents
and keeps ENFORCE and the locked regions. ISLAND_RESET_RELEASE of a held island clears its bit, and quarantines it where
its epoch is stale. That a reset keeps the waiting commands is the model's choice (its log entry 1). The model's choices
in it, by entry of the assumption log: 1 (the queue); 8 (an event asserts that its time has come and does nothing where
its condition fails); 39 (what a DDR island reset keeps); 40 (the order of reset and release); 41 (an island in reset).
-/
def Obligations.ResetsInitialiseAndReleaseTheirScope : Prop :=
  (∀ (s : State) (aon : Bool),
    let cause (c : Nat) := if s.io.released then c else s.io.cause ||| c
    let q := s.root
    let kept : Root := { nor := q.nor, emmc := q.emmc, revoke := q.revoke, rb := q.rb, straps := q.straps }
    let gone (t : State) (io : Io) (trip : Bool) : Prop :=
      t = { State.reset with pending := s.pending, free := s.free, io := io, pwr := { tripRec := trip }, root := kept }
    let pins (p r l : Bool) (c : Nat) : Io := { porLow := p, rstLow := r, refLost := l, cause := cause c, testen := s.io.testen }
    (Gives (.powerOnReset aon) s fun t => gone t (pins true s.io.rstLow s.io.refLost 1) (aon && s.pwr.tripRec)) ∧
    (Gives (.chipReset true) s fun t => gone t (pins s.io.porLow true s.io.refLost 2) s.pwr.tripRec) ∧
    (Gives .clkLost s fun t => gone t (pins s.io.porLow s.io.rstLow true 8) s.pwr.tripRec)) ∧
  (∀ (s : State) (straps : Nat) (testen : Bool), straps < 8 →
    let causes (t : State) (c : Nat) (trip : Bool) : Prop := rd t rTopPllLock = 0x7FFF ∧ rdF t rTopRstCause 3 0 = c % 16 ∧
      rdB t rTopRstCause 4 = trip
    (s.io.porLow = false → s.io.rstLow = false → exec (.resetDeassert straps testen) s = .next s) ∧
    (s.io.porLow = true ∨ s.io.rstLow = true → Gives (.resetDeassert straps testen) s fun t => t.root.straps = straps ∧
      t.io.porLow = false ∧ t.io.rstLow = false ∧ t.io.testen = testen ∧ t.mem = s.mem ∧
      (s.io.refLost = true → t.io.released = s.io.released ∧ t.rf = s.rf) ∧
      (s.io.refLost = false → t.io.released = !testen ∧ causes t s.io.cause s.pwr.tripRec)) ∧
    (s.io.refLost = false → exec .refclkReturn s = .next s) ∧
    (s.io.refLost = true → Gives .refclkReturn s fun t => t.io.refLost = false ∧ t.mem = s.mem ∧
      (s.io.porLow = true ∨ s.io.rstLow = true → t.io.released = s.io.released ∧ t.rf = s.rf) ∧
      (s.io.porLow = false → s.io.rstLow = false → t.io.released = (!s.io.testen) ∧ causes t s.io.cause s.pwr.tripRec)) ∧
    (Gives (.chipReset false) s fun t => t.mem = {} ∧ t.cores = State.reset.cores ∧ t.clus = State.reset.clus ∧
      t.root.straps = s.root.straps ∧ t.fw = {} ∧
      (s.io.porLow = true ∨ s.io.rstLow = true ∨ s.io.refLost = true → t.io.released = false) ∧
      (s.io.porLow = false → s.io.rstLow = false → s.io.refLost = false → t.io.released = (!s.io.testen) ∧
        causes t (if s.io.released then 4 else s.io.cause ||| 4) s.pwr.tripRec))) ∧
  (∀ (s : State) (i n : Nat), Machine.Inv s → i < 15 →
    (Gives (.pllLockLoss i) s fun t => OnlyRegs s t [rTopPllLock] ∧ rd t rTopPllLock = setBit (rd s rTopPllLock) i false) ∧
    (rdB s rTopPllLock i = true → exec (.pllRelock i n) s = .next s) ∧
    (rdB s rTopPllLock i = false → Gives (.pllRelock i n) s fun t =>
      rd t rTopPllLock = setBit (rd s rTopPllLock) i true ∧
      if i < 8 ∧ rdB s rEngStatus 0 = true ∧ bitN (place s) i = true then
        OnlyRegs s t [rTopPllLock, rCluBlockedCnt i] ∧ rd t (rCluBlockedCnt i) = rd s (rCluBlockedCnt i) + BitVec.ofNat 32 n
      else OnlyRegs s t [rTopPllLock])) ∧
  (∀ (s : State) (i : Nat), Machine.Inv s → i < 15 → Reaches s rTopIslRst →
    (i = 12 ∨ i = 14 ∨ rdB s rTopIslRst i = true → exec (.islandReset (2 ^ i)) s = .next s) ∧
    (i < 8 → rdB s rTopIslRst i = false → rdB s rEngStatus 0 = true → bitN (place s) i = true →
      exec (.islandReset (2 ^ i)) s = .next (cfgDrop s 0)) ∧
    (rdB s rTopIslRst i = false → rdB s rEngStatus 0 = false → (∀ g, g < 16 → cgState s g ≠ 1 ∧ cgState s g ≠ 2) →
      (i < 8 → Gives (.islandReset (2 ^ i)) s fun t => rd t rTopIslRst = setBit (rd s rTopIslRst) i true ∧ clu t i = {} ∧
        (∀ n, coreOf t n = if n / 4 = i then {} else coreOf s n) ∧
        (∀ a, blkBase (0x10 + i) ≤ a → a < blkBase (0x10 + i) + 0x100000 → rd t a = regReset a) ∧
        (∀ p a, p < 4 → blkBase (0x20 + 4 * i + p) ≤ a → a < blkBase (0x20 + 4 * i + p) + 0x100000 → rd t a = regReset a) ∧
        (∀ j a, j < 5 → memBase (cluMem i j) ≤ a → a < memBase (cluMem i j) + 0x200000 → mget byte0 t.mem.sram a = 0 ∧
          poisGet t (a / 32) = false) ∧
        (∀ j k, j < 5 → k < 512 → slotGet t (512 * cluMem i j + k) = ⟨.empty, .loc, .none⟩) ∧
        (∀ a, (∀ j, j < 5 → a < memBase (cluMem i j) ∨ memBase (cluMem i j) + 0x200000 ≤ a) →
          a < bankBase i ∨ bankBase i + 0x100000 ≤ a → mget byte0 t.mem.sram a = mget byte0 s.mem.sram a)) ∧
      (i = 8 → Gives (.islandReset (2 ^ i)) s fun t => rd t rTopIslRst = setBit (rd s rTopIslRst) i true ∧ t.mem.dram = [] ∧
        t.mem.sram = s.mem.sram ∧ rdB t rMemFwCtl 0 = rdB s rMemFwCtl 0 ∧
        ∀ r, r < 64 → if rdB s (rMemRgnCtl r) 30 = true then rd t (rMemRgnCtl r) = rd s (rMemRgnCtl r) ∧
            rd t (rMemRgnMask r) = rd s (rMemRgnMask r)
          else rd t (rMemRgnCtl r) = regReset (rMemRgnCtl r))) ∧
    (rdB s rTopIslRst i = false → exec (.islandResetRelease i) s = .next s) ∧
    (rdB s rTopIslRst i = true → Gives (.islandResetRelease i) s fun t => rdB t rTopIslRst i = false ∧
      if rdF s (rRasIslEpoch i) 15 0 = rdF s rRasCfgEpoch 15 0 then OnlyRegs s t [rTopIslRst] else rdB t rRasQuar i = true))

/-- In a state with the invariant. SERVICE_CORE_START without a waiting activation does nothing; for an object that is
gone or whose header or payload cannot be copied, it answers the request with the code; otherwise it releases the 8
harts at the DST of entry 0, with a0 the hart and a1 the page, and records the image in use. SVC_IRQ_SET sets PEND
alone. TIM_STEP with SRC = LINK is dropped with CFG_WR_DROP, else adds the signed step to the time modulo 2^64, sets
STEPPED and counts, and every enabled endless output of mode SCHED is scheduled on its grid at least 1 microsecond
ahead. TSYNC_REQ where the servo does not run does nothing; without a route it sets HOLDOVER, with one it clears it; a
request still in flight is counted as skipped; to an ACTIVE parent it sends a new request, and otherwise counts a skip.
TSYNC_RSP of the response in flight: with an unchanged RETRY_CNT on an ACTIVE link it steps by a large offset or sets
RATE by the formula of R515; else it counts a skip and changes neither; another ID is discarded. The model's choices in
it, by entry of the assumption log: 8 (an event asserts that its time has come and does nothing where its condition
fails); 55 (halves of a nanosecond). -/
def Obligations.ServiceCoresAndTheSystemTimeFollowTheirRules : Prop :=
  (∀ (s : State), Machine.Inv s →
    (s.io.svc = none → exec .serviceCoreStart s = .next s) ∧
    (∀ q h, s.io.svc = some (q, h) →
      let u := { s with io := { s.io with svc := none } }
      (objOf s h = none → exec .serviceCoreStart s = .next (respond u q 0xAF [])) ∧
      (∀ o, objOf s h = some o →
        let hd := objBytes u o 0 256
        let es := (loadTable hd.1.1 2 (o.total - 3200)).getD []
        let p := payloadCopy hd.2 o es
        (hd.1.2 ≠ 0 → exec .serviceCoreStart s = .next (respond hd.2 q hd.1.2 [])) ∧
        (hd.1.2 = 0 → p.1 ≠ 0 → exec .serviceCoreStart s = .next (respond p.2 q p.1 [])) ∧
        (hd.1.2 = 0 → p.1 = 0 → s.io.harts.length = 8 → Gives .serviceCoreStart s fun t => t.io.svc = none ∧
          rdF t rEthSvcCtl 15 8 = 0xFF ∧ t.root.inUse = s.root.inUse.set 2 (some ⟨o.slot, o.version, o.digest⟩) ∧
          ∀ i, i < 8 → t.io.harts.getD i none =
            some ⟨(es.map fun e => e.dst).headD 0, i, 0x2300000000 + 64 * rdF s rCpSvcPage 19 6⟩))) ∧
    (Reaches s rEthSvcIrqSet → Gives .svcIrqSet s fun t => OnlyRegs s t [rEthSvcIrq] ∧
      rd t rEthSvcIrq = setBit (rd s rEthSvcIrq) 0 true)) ∧
  (∀ (s : State) (hi : Nat), Machine.Inv s → hi < 2 ^ 32 → Reaches s rTimStepHi →
    let v := sextN 64 (hi * 2 ^ 32 + (rd s rTimStepLo).toNat)
    (rdB s rTimCtl 1 = true → exec (.timStep hi) s = .next (cfgDrop s 0x7D)) ∧
    (rdB s rTimCtl 1 = false → Gives (.timStep hi) s fun t => (t.ns : Int) = ((s.ns : Int) + v) % 2 ^ 64 ∧ t.frac = s.frac ∧
      rdB t rTimStatus 0 = true ∧ rd t rTimStepCnt = rd s rTimStepCnt + 1 ∧ t.mem = s.mem ∧
      ∀ o, o < 24 → rdB s (rTrgOutCtl o) 31 = true → (outOf s o).closing = false → rdF s (rTrgOutCtl o) 30 29 = 1 →
        rd s (rTrgOutCount o) = 0 → rd s (rTrgOutPeriod o) ≠ 0 →
        let grid (k : Nat) := rd64 s (rTrgOutStartLo o) (rTrgOutStartHi o) + k * (rd s (rTrgOutPeriod o)).toNat
        ∃ k, (outOf t o).next = some (grid k) ∧ t.ns + 1000 ≤ grid k ∧ (k ≠ 0 → grid (k - 1) < t.ns + 1000))) ∧
  (∀ (s : State), Machine.Inv s →
    let runs := rdB s rTimCtl 0 = true ∧ rdB s rTimCtl 1 = true ∧ rdF s rDdlChip 31 30 = 2
    let c := rdF s rDdlChip 21 16
    let l := rdF s (rDdlRoute c) 2 0
    let route := rdB s (rDdlRoute c) 31 = true ∧ l < 6
    let skip (t : State) (n : Nat) : Prop := rd t rTimSyncSkipCnt = rd s rTimSyncSkipCnt + BitVec.ofNat 32 n
    let late : Nat := if s.io.sync.isSome then 1 else 0
    (¬runs → exec .tsyncReq s = .next s ∧ exec .tsyncRsp s = .next s) ∧
    (runs → s.io.rsp = none →
      (¬route → Gives .tsyncReq s fun t => rdB t rTimStatus 2 = true ∧ t.io.sync = none ∧ skip t late ∧
        rd t rTimRate = rd s rTimRate ∧ t.lk = s.lk) ∧
      (route → linkState s l ≠ 4 → Gives .tsyncReq s fun t => rdB t rTimStatus 2 = false ∧ t.io.sync = none ∧
        skip t (late + 1) ∧ rd t rTimRate = rd s rTimRate ∧ t.lk = s.lk) ∧
      (route → linkState s l = 4 → Gives .tsyncReq s fun t => rdB t rTimStatus 2 = false ∧ skip t late ∧
        t.io.sync = some ⟨(s.io.syncId + 1) % 2 ^ 32, l, none⟩ ∧ ∃ g : Seg, (lnk t l).txq = (lnk s l).txq ++ [g] ∧
          leAt g.data 0 1 = 9 ∧ leAt g.data 8 4 = (s.io.syncId + 1) % 2 ^ 32)) ∧
    (∀ r y, runs → s.io.rsp = some r → s.io.sync = some y →
      (r.id ≠ y.id → Gives .tsyncRsp s fun t => t = { s with io := { s.io with rsp := none } }) ∧
      (∀ t1 n, r.id = y.id → y.t1 = some (t1, n) →
        let th : Int := (((r.t2 : Int) - t1) - ((r.t4 : Int) - r.t3)) / 2
        let period : Int := max 1 (rdF s rTimLinkCfg 9 0)
        let done (t : State) : Prop := t.io.rsp = none ∧ t.io.sync = none
        (n ≠ r.retry ∨ linkState s y.link ≠ 4 → Gives .tsyncRsp s fun t => done t ∧ OnlyRegs { s with io := t.io } t [rTimSyncSkipCnt] ∧
          skip t 1) ∧
        (n = r.retry → linkState s y.link = 4 → th.natAbs ≤ rdF s rTimLinkCfg 31 16 → Gives .tsyncRsp s fun t => done t ∧
          t.ns = s.ns ∧ rd t rTimSyncCnt = rd s rTimSyncCnt + 1 ∧ (rd t rTimOffset).toInt = th ∧
          (rd t rTimRate).toInt = max (-1000000) (min ((rd s rTimRate).toInt + 250 * th / period) 1000000)) ∧
        (n = r.retry → linkState s y.link = 4 → rdF s rTimLinkCfg 31 16 < th.natAbs → Gives .tsyncRsp s fun t => done t ∧
          (t.ns : Int) = ((s.ns : Int) + th) % 2 ^ 64 ∧ rd t rTimRate = rd s rTimRate ∧
          rd t rTimStepCnt = rd s rTimStepCnt + 1 ∧ rd t rTimSyncCnt = rd s rTimSyncCnt + 1))))

/-- In a state with the invariant. ETH_LINK_CHANGE writes a port's two status bits. ETH_TX_DESCRIPTOR of a running port
with a waiting descriptor advances TAIL: a format error sends nothing; a poisoned buffer sends nothing and counts; else
the frame, changed in one step where asked, leaves with its FCS and is counted. ETH_RX_FRAME counts a bad FCS or a
missing buffer and nothing else; else the frame lies in its buffer of media SRAM, TAIL advances and the frame is
counted. TRIGGER_INPUT_EDGE writes the level; an edge that the input takes adds its record, and each linked output gets
a pulse due, or, while a pulse is active, counts it busy. TRIGGER_PULSE drives the pulse whose time has come, with its
WIDTH, counts it and sets the next; before its time it does nothing; a pulse that has ended lets a waiting EN := 0 take
effect. TRIGGER_OUTPUT_ENABLE begins the check of an output, whose end sets EN and schedules an endless one on its grid;
it disables an idle one at once and an active one after its pulse. SIO_START, SIO_WRITE, SIO_READ and SIO_STOP carry out
the oldest command of their kind; an I2C failure and I2C_TIMEOUT set their flag, drop the commands up to the next START,
and issue STOP. The model's choices in it, by entry of the assumption log: 8 (an event asserts that its time has come
and does nothing where its condition fails); 13 (what comes from outside is an operand); 51 (offsets of PTP fields); 52
(corners of the Ethernet ports); 53 (serial wires); 54 (corners of trigger outputs). -/
def Obligations.PortsTriggersAndSerialControllersAct : Prop :=
  (∀ (s : State) (p : Nat), Machine.Inv s → p < 2 → s.io.tx.length = 2 →
    let live := rdB s rEthCtl 0 = true ∧ rdB s (rEthPCtl p) 31 = true ∧ rdB s (rEthPStatus p) 0 = true
    let n (cfg : Nat) : Nat := [16, 64, 256, 1024].getD (rdF s cfg 1 0) 0
    let tt := rdF s (rEthPTxTail p) 9 0
    let rt := rdF s (rEthPRxTail p) 9 0
    (∀ up, Gives (.ethLinkChange p up) s fun t => OnlyRegs s t [rEthPStatus p] ∧
      rdB t (rEthPStatus p) 0 = (up && rdB s rEthCtl 0 && rdB s (rEthPCtl p) 31 && rdF s (rEthPCtl p) 25 24 != 3) ∧
      rdB t (rEthPStatus p) 1 = (rdB t (rEthPStatus p) 0 && rdF s (rEthPCtl p) 25 24 == 2)) ∧
    (¬live → exec (.ethTxDescriptor p) s = .next s ∧ ∀ f bad ago, exec (.ethRxFrame p f bad ago) s = .next s) ∧
    (live → rdF s (rEthPTxHead p) 9 0 % n (rEthPTxCfg p) = tt → exec (.ethTxDescriptor p) s = .next s) ∧
    (live → rdF s (rEthPTxHead p) 9 0 % n (rEthPTxCfg p) ≠ tt →
      let d := ethRead s (2 ^ 32 * rdF s (rEthPTxBaseHi p) 13 0 + 64 * rdF s (rEthPTxBaseLo p) 31 6 + 32 * tt) 32
      let len := leAt d.1.data 8 2
      let flags := leAt d.1.data 12 4
      let mtu := max 64 (min (rdF s (rEthPCtl p) 13 0) 9216)
      let bad := flags % 2 ^ 16 / 8 ≠ 0 ∨ leAt d.1.data 0x18 8 ≠ 0 ∨ len + 4 < 64 ∨ mtu < len + 4
      let b := (ethRead d.2 (leAt d.1.data 0 8) len).1
      let step := oneStep b.data (leAt d.1.data 10 2) (bitN flags 2) s.ns (leAt d.1.data 16 8)
      let sent (t : State) (f : List Byte) : Prop := t.io.tx.getD p [] = f ++ leBytes 4 (crc32 f) ∧
        rd t (rEthPTxCnt p) = rd s (rEthPTxCnt p) + 1
      Gives (.ethTxDescriptor p) s fun t => rdF t (rEthPTxTail p) 9 0 = (tt + 1) % n (rEthPTxCfg p) ∧
        (bad → t.io = s.io) ∧
        (¬bad → b.pois.any id = true → t.io = s.io ∧ rd t (rEthPTxPoisonCnt p) = rd s (rEthPTxPoisonCnt p) + 1) ∧
        (¬bad → b.pois.any id = false → (bitN flags 1 = false → sent t b.data) ∧
          (bitN flags 1 = true → (step = none → t.io = s.io) ∧ ∀ f, step = some f → sent t f))) ∧
    (∀ f ago, live → Gives (.ethRxFrame p f true ago) s fun t => OnlyRegs s t [rEthPFcsCnt p] ∧
      rd t (rEthPFcsCnt p) = rd s (rEthPFcsCnt p) + 1) ∧
    (∀ f ago, live → rdF s (rEthPRxHead p) 9 0 % n (rEthPRxCfg p) = rt → Gives (.ethRxFrame p f false ago) s fun t =>
      OnlyRegs s t [rEthPNobufCnt p] ∧ rd t (rEthPNobufCnt p) = rd s (rEthPNobufCnt p) + 1) ∧
    (∀ f ago, live → rdF s (rEthPRxHead p) 9 0 % n (rEthPRxCfg p) ≠ rt →
      let g := 2 ^ 32 * rdF s (rEthPRxBaseHi p) 13 0 + 64 * rdF s (rEthPRxBaseLo p) 31 6 + 32 * rt
      let d := (ethRead s g 32).1.data
      let buf := leAt d 0 8 % 2 ^ 40
      Gives (.ethRxFrame p f false ago) s fun t => t.io = s.io ∧ rd t (rEthPRxCnt p) = rd s (rEthPRxCnt p) + 1 ∧
        rdF t (rEthPRxTail p) 9 0 = (rt + 1) % n (rEthPRxCfg p) ∧
        (leAt d 0 8 / 2 ^ 40 = ownChip s → f.length ≤ leAt d 8 2 → buf + f.length ≤ g % 2 ^ 40 ∨ g % 2 ^ 40 + 32 ≤ buf →
          (∀ a, buf ≤ a → a < buf + f.length → regionOf a = some .media ∧ accessCode s whoEth true a = 0 ∧
            barred s whoEth true a = false) → ramGet t buf f.length = f))) ∧
  (∀ (s : State) (i ago : Nat) (rising : Bool), Machine.Inv s → i < 24 → ago ≤ s.ns →
    let cfg := rdF s (rTrgInCfg i) 30 29
    let takes := rdB s rTrgCtl 0 = true ∧ rdB s (rTrgInCfg i) 31 = true ∧ (cfg = 2 ∨ cfg = (if rising = true then 0 else 1))
    let t0 := s.ns - ago
    (¬takes → Gives (.triggerInputEdge i rising ago) s fun t => OnlyRegs s t [rTrgInLevel] ∧
      rd t rTrgInLevel = setBit (rd s rTrgInLevel) i rising) ∧
    (takes → fifoFull 256 s.io.trg = false → Gives (.triggerInputEdge i rising ago) s fun t =>
      rd t rTrgInLevel = setBit (rd s rTrgInLevel) i rising ∧ t.mem = s.mem ∧
      t.io.trg.ents = s.io.trg.ents ++ [[BitVec.ofNat 32 (i + if rising = true then 256 else 0), BitVec.ofNat 32 t0,
        BitVec.ofNat 32 (t0 / 2 ^ 32)]] ∧
      ∀ o, o < 24 → let x := outOf s o
        if rdB s (rTrgOutCtl o) 31 = true ∧ rdF s (rTrgOutCtl o) 30 29 = 2 ∧ rdF s (rTrgOutCtl o) 20 16 = i ∧ x.closing = false then
          if x.ends = none then outOf t o = { x with due := x.due ++ [t0 + (rd s (rTrgOutDelay o)).toNat] } ∧
            rd t (rTrgOutBusyCnt o) = rd s (rTrgOutBusyCnt o)
          else outOf t o = x ∧ rd t (rTrgOutBusyCnt o) = rd s (rTrgOutBusyCnt o) + 1
        else outOf t o = x ∧ rd t (rTrgOutBusyCnt o) = rd s (rTrgOutBusyCnt o))) ∧
  (∀ (s : State) (o : Nat), Machine.Inv s → o < 24 →
    let x := outOf s o
    let mode := rdF s (rTrgOutCtl o) 30 29
    let endless := rd s (rTrgOutCount o) = 0 ∧ rd s (rTrgOutPeriod o) ≠ 0
    let grid (k : Nat) := rd64 s (rTrgOutStartLo o) (rTrgOutStartHi o) + k * (rd s (rTrgOutPeriod o)).toNat
    let pulse (t : State) (next : Option Nat) (k : Nat) (due : List Nat) : Prop :=
      outOf t o = ⟨next, k, due, some (s.ns + max 10 (rdF s (rTrgOutWidth o) 23 0)), false⟩ ∧
      OnlyRegs { s with io := t.io } t [rTrgOutPulseCnt o] ∧ rd t (rTrgOutPulseCnt o) = rd s (rTrgOutPulseCnt o) + 1
    (rdB s (rTrgOutCtl o) 31 = true → x.closing = false → x.ends = none →
      (rdB s rTrgCtl 0 = false → exec (.triggerPulse o) s = .next s) ∧
      (∀ t0, mode = 1 → x.next = some t0 → s.ns < t0 → exec (.triggerPulse o) s = .next s) ∧
      (∀ t0, rdB s rTrgCtl 0 = true → mode = 1 → x.next = some t0 → t0 ≤ s.ns → endless →
        Gives (.triggerPulse o) s fun t => pulse t (some (grid (x.k + 1))) (x.k + 1) x.due) ∧
      (∀ t0 ts, rdB s rTrgCtl 0 = true → mode = 2 → x.due = t0 :: ts → t0 ≤ s.ns →
        Gives (.triggerPulse o) s fun t => pulse t x.next x.k ts)) ∧
    (∀ e, x.ends = some e → e ≤ s.ns → x.closing = true → Gives (.triggerPulse o) s fun t =>
      OnlyRegs { s with io := t.io } t [rTrgOutCtl o] ∧ rdB t (rTrgOutCtl o) 31 = false ∧ outOf t o = {}) ∧
    (Reaches s (rTrgOutCtl o) →
      (rdB s (rTrgOutCtl o) 31 = false → mode = 1 → endless → Gives (.triggerOutputEnable o true) s fun t =>
        rdB t (rTrgOutCtl o) 31 = false ∧ chkBusy t 0x7E = true ∧ t.io = s.io ∧
        (s.rf.held = [] → rdB s rRasQuar 12 = false → Gives (.consistencyCheckEnd 0x7E) t fun u =>
          rdB u (rTrgOutCtl o) 31 = true ∧ chkBusy u 0x7E = false ∧ ∃ k, outOf u o = { next := some (grid k), k := k } ∧
            s.ns + 1000 ≤ grid k ∧ (k ≠ 0 → grid (k - 1) < s.ns + 1000))) ∧
      (rdB s (rTrgOutCtl o) 31 = true → x.ends = none → Gives (.triggerOutputEnable o false) s fun t =>
        OnlyRegs { s with io := t.io } t [rTrgOutCtl o] ∧ rdB t (rTrgOutCtl o) 31 = false ∧ outOf t o = {}) ∧
      (rdB s (rTrgOutCtl o) 31 = true → x.ends ≠ none → Gives (.triggerOutputEnable o false) s fun t =>
        rd t (rTrgOutCtl o) = rd s (rTrgOutCtl o) ∧ outOf t o = { x with next := none, due := [], closing := true }))) ∧
  (∀ (s : State) (ch : Nat) (w : Word) (es : List (List Word)), Machine.Inv s → ch < 8 → rdB s rSioCtl 0 = true →
    rdB s (serBase ch) 31 = true → (serOf s ch).cmd.ents = [w] :: es →
    let op := fld w 31 28
    let x := serOf s ch
    let ran : Ser := { x with cmd := { x.cmd with ents := es, rd := 0 }, bus := some w }
    let one (t : State) (y : Ser) : Prop := serOf t ch = y ∧ ∀ c, c ≠ ch → serOf t c = serOf s c
    let fails (t : State) (flag : Nat) (q : List (List Word)) : Prop :=
      OnlyRegs { s with io := t.io } t [serBase ch + 0x14] ∧ rdB t (serBase ch + 0x14) flag = true ∧ (serOf t ch).isOpen = false ∧
      (serOf t ch).bus = some 0x30000000 ∧ (serOf t ch).cmd.ents = q.dropWhile fun e => fld (e.headD 0) 31 28 != 0
    (op ≠ 0 → ∀ e, exec (.sioStart ch e) s = .next s) ∧ (op ≠ 1 → ∀ e, exec (.sioWrite ch e) s = .next s) ∧
    (op ≠ 2 → ∀ b e, exec (.sioRead ch b e) s = .next s) ∧ (op ≠ 3 → exec (.sioStop ch) s = .next s) ∧
    (op = 0 → Gives (.sioStart ch none) s fun t => t.rf = s.rf ∧ one t { ran with isOpen := true }) ∧
    (op = 1 → Gives (.sioWrite ch none) s fun t => t.rf = s.rf ∧ one t ran) ∧
    (op = 2 → ∀ b, Gives (.sioRead ch b none) s fun t => t.rf = s.rf ∧ (serOf t ch).cmd.ents = es ∧
      (serOf t ch).rx.ents = if fifoFull Config.sioRxDepth x.rx = true then x.rx.ents else x.rx.ents ++ [[b.setWidth 32]]) ∧
    (op = 3 → Gives (.sioStop ch) s fun t => t.rf = s.rf ∧ one t { ran with isOpen := false }) ∧
    (∀ e, ch < 6 → e < 2 → (op = 0 → Gives (.sioStart ch (some e)) s fun t => fails t e es) ∧
      (op = 1 → Gives (.sioWrite ch (some e)) s fun t => fails t e es) ∧
      (op = 2 → ∀ b, Gives (.sioRead ch b (some e)) s fun t => fails t e es ∧ (serOf t ch).rx = x.rx)) ∧
    (ch < 6 → x.isOpen = true → Gives (.i2cTimeout ch) s fun t => fails t 2 ([w] :: es)) ∧
    (x.isOpen = false → exec (.i2cTimeout ch) s = .next s))
end

