-- ==== Sys2Proof/Laws/Bits.lean ====
section
/-! SUPPORT. What a field or a bit of a register reads as after it, or another one, has been written. -/

namespace Sys2Proof.Machine

theorem bit_eq (w : Word) (i : Nat) : bit w i = w.getLsbD i := by
  simp only [bit, BitVec.getLsbD, Nat.testBit_eq_decide_div_mod_eq]
  rfl

/-- Replacing the digit of weight 2^lo and width k in a number. -/
theorem field_split (n v lo k : Nat) : n - n / 2 ^ lo % 2 ^ k * 2 ^ lo + v % 2 ^ k * 2 ^ lo =
    2 ^ lo * (2 ^ k * (n / 2 ^ lo / 2 ^ k) + v % 2 ^ k) + n % 2 ^ lo := by
  have h1 := Nat.div_add_mod n (2 ^ lo)
  have h2 := Nat.div_add_mod (n / 2 ^ lo) (2 ^ k)
  have h3 : n / 2 ^ lo % 2 ^ k * 2 ^ lo ≤ n := by
    calc n / 2 ^ lo % 2 ^ k * 2 ^ lo ≤ n / 2 ^ lo * 2 ^ lo := Nat.mul_le_mul_right _ (Nat.mod_le _ _)
      _ ≤ n := Nat.div_mul_le_self _ _
  have h4 : 2 ^ lo * (n / 2 ^ lo) = 2 ^ lo * (2 ^ k * (n / 2 ^ lo / 2 ^ k)) + 2 ^ lo * (n / 2 ^ lo % 2 ^ k) := by
    rw [← Nat.mul_add, h2]
  rw [Nat.mul_add, Nat.mul_comm (n / 2 ^ lo % 2 ^ k), Nat.mul_comm (v % 2 ^ k)]
  rw [Nat.mul_comm] at h3
  omega

theorem setFld_toNat (w : Word) {hi lo : Nat} (v : Nat) (h : lo ≤ hi) (hh : hi < 32) :
    (setFld w hi lo v).toNat = 2 ^ lo * (2 ^ (hi + 1 - lo) * (w.toNat / 2 ^ lo / 2 ^ (hi + 1 - lo)) + v % 2 ^ (hi + 1 - lo)) +
      w.toNat % 2 ^ lo := by
  have hp : (2:Nat) ^ 32 = 2 ^ lo * 2 ^ (hi + 1 - lo) * 2 ^ (31 - hi) := by rw [← Nat.pow_add, ← Nat.pow_add]; congr 1; omega
  have hw := w.isLt
  simp only [setFld, BitVec.toNat_ofNat, field_split]
  apply Nat.mod_eq_of_lt
  have ha : w.toNat / 2 ^ lo / 2 ^ (hi + 1 - lo) < 2 ^ (31 - hi) := by
    rw [Nat.div_div_eq_div_mul]
    apply Nat.div_lt_of_lt_mul
    rw [← hp]; exact hw
  have hb : w.toNat % 2 ^ lo < 2 ^ lo := Nat.mod_lt _ (Nat.two_pow_pos _)
  have hc : v % 2 ^ (hi + 1 - lo) < 2 ^ (hi + 1 - lo) := Nat.mod_lt _ (Nat.two_pow_pos _)
  rw [hp]
  calc _ < 2 ^ lo * (2 ^ (hi + 1 - lo) * (w.toNat / 2 ^ lo / 2 ^ (hi + 1 - lo)) + v % 2 ^ (hi + 1 - lo)) + 2 ^ lo := by omega
    _ = 2 ^ lo * (2 ^ (hi + 1 - lo) * (w.toNat / 2 ^ lo / 2 ^ (hi + 1 - lo)) + v % 2 ^ (hi + 1 - lo) + 1) := by
      rw [Nat.mul_add _ _ 1, Nat.mul_one]
    _ ≤ 2 ^ lo * (2 ^ (hi + 1 - lo) * (w.toNat / 2 ^ lo / 2 ^ (hi + 1 - lo) + 1)) := by
      apply Nat.mul_le_mul_left
      rw [Nat.mul_add]; omega
    _ ≤ 2 ^ lo * (2 ^ (hi + 1 - lo) * 2 ^ (31 - hi)) := Nat.mul_le_mul_left _ (Nat.mul_le_mul_left _ ha)
    _ = _ := by rw [Nat.mul_assoc]

/-- A field reads as the value written to it, cut to its width. -/
theorem fld_setFld (w : Word) {hi lo : Nat} (v : Nat) (h : lo ≤ hi) (hh : hi < 32) :
    fld (setFld w hi lo v) hi lo = v % 2 ^ (hi + 1 - lo) := by
  have hb : w.toNat % 2 ^ lo < 2 ^ lo := Nat.mod_lt _ (Nat.two_pow_pos _)
  rw [fld, setFld_toNat w v h hh, Nat.mul_add_div (Nat.two_pow_pos _), Nat.div_eq_of_lt hb, Nat.add_zero,
    Nat.mul_add_mod, Nat.mod_mod]

/-- A bit of a register after one field of it has been written. -/
theorem getLsbD_setFld (w : Word) {hi lo : Nat} (v i : Nat) (h : lo ≤ hi) (hh : hi < 32) :
    (setFld w hi lo v).getLsbD i = if lo ≤ i ∧ i ≤ hi then v.testBit (i - lo) else w.getLsbD i := by
  have hb : w.toNat % 2 ^ lo < 2 ^ lo := Nat.mod_lt _ (Nat.two_pow_pos _)
  have hc : v % 2 ^ (hi + 1 - lo) < 2 ^ (hi + 1 - lo) := Nat.mod_lt _ (Nat.two_pow_pos _)
  simp only [BitVec.getLsbD, setFld_toNat w v h hh, Nat.testBit_two_pow_mul_add _ hb, Nat.testBit_two_pow_mul_add _ hc,
    Nat.testBit_mod_two_pow, Nat.testBit_div_two_pow]
  by_cases h1 : i < lo
  · rw [if_pos h1, if_neg (by omega)]
    simp [h1]
  · rw [if_neg h1]
    by_cases h2 : i ≤ hi
    · rw [if_pos (by omega), if_pos (by omega)]
      simp; intro; omega
    · rw [if_neg (by omega), if_neg (by omega)]
      congr 1
      omega

/-- A bit reads as the value written to it. -/
theorem bit_setBit (w : Word) {i : Nat} (b : Bool) (h : i < 32) : bit (setBit w i b) i = b := by
  rw [bit_eq, setBit, getLsbD_setFld _ _ _ (Nat.le_refl i) h]
  cases b <;> simp [b2n]

/-- The other bits keep their values. -/
theorem bit_setBit_ne (w : Word) {i j : Nat} (b : Bool) (h : i < 32) (hj : j ≠ i) : bit (setBit w i b) j = bit w j := by
  rw [bit_eq, bit_eq, setBit, getLsbD_setFld _ _ _ (Nat.le_refl i) h, if_neg (by omega)]

end Sys2Proof.Machine
end

