-- ==== Sys2Proof/Laws/SMap.lean ====
section
/-! SUPPORT. Laws of sparse data: reading after writing, and that every operation keeps the canonical form. -/

namespace Sys2Proof.Machine

variable {α : Type} [DecidableEq α] {d : Nat → α}

theorem mwfAbove_mono {m : Sparse α} {b c : Nat} (h : mwfAbove d c m = true) (hb : b ≤ c) : mwfAbove d b m = true := by
  cases m with
  | nil => rfl
  | cons e m =>
    obtain ⟨k, v⟩ := e
    simp only [mwfAbove, Bool.and_eq_true, decide_eq_true_eq] at h ⊢
    exact ⟨⟨by omega, h.1.2⟩, h.2⟩

/-- Below every key of a canonical list, a read gives the default. -/
theorem mget_below {m : Sparse α} {b k : Nat} (h : mwfAbove d b m = true) (hk : k < b) : mget d m k = d k := by
  induction m generalizing b with
  | nil => rfl
  | cons e m ih =>
    obtain ⟨k', v⟩ := e
    simp only [mwfAbove, Bool.and_eq_true, decide_eq_true_eq] at h
    have : k ≠ k' := by omega
    simp [mget, this, ih h.2 (by omega)]

theorem mput_wfAbove {m : Sparse α} {b k : Nat} (v : α) (h : mwfAbove d b m = true) (hk : b ≤ k) :
    mwfAbove d b (mput d k v m) = true := by
  induction m generalizing b with
  | nil => by_cases hv : v = d k <;> simp [mput, mwfAbove, hv, hk]
  | cons e m ih =>
    obtain ⟨k', v'⟩ := e
    have h' := h
    simp only [mwfAbove, Bool.and_eq_true, decide_eq_true_eq] at h
    simp only [mput]
    split
    · split
      · exact h'
      · rename_i hv
        simp only [mwfAbove, Bool.and_eq_true, decide_eq_true_eq, bne_iff_ne, ne_eq, hv, not_false_iff, and_true, hk, true_and]
        exact ⟨⟨by omega, by simpa using h.1.2⟩, h.2⟩
    · split
      · subst k'
        split
        · exact mwfAbove_mono h.2 (by omega)
        · rename_i hv
          simp [mwfAbove, hv, h.2, hk]
      · simp only [mwfAbove, Bool.and_eq_true, decide_eq_true_eq]
        exact ⟨h.1, ih h.2 (by omega)⟩

/-- Writing a key keeps the canonical form. -/
theorem mput_wf {m : Sparse α} (k : Nat) (v : α) (h : mwf d m = true) : mwf d (mput d k v m) = true :=
  mput_wfAbove v h (Nat.zero_le k)

theorem mputs_wf {m : Sparse α} (kvs : List (Nat × α)) (h : mwf d m = true) : mwf d (mputs d kvs m) = true := by
  induction kvs generalizing m with
  | nil => exact h
  | cons e kvs ih => exact ih (mput_wf e.1 e.2 h)

theorem mputRun_wf {m : Sparse α} (k : Nat) (vs : List α) (h : mwf d m = true) : mwf d (mputRun d k vs m) = true := by
  induction vs generalizing m k with
  | nil => exact h
  | cons v vs ih => exact ih (k + 1) (mput_wf k v h)

theorem mfill_wf {m : Sparse α} (k : Nat) (v : α) (n : Nat) (h : mwf d m = true) : mwf d (mfill d k v n m) = true := by
  induction n generalizing m k with
  | zero => exact h
  | succ n ih => exact ih (k + 1) (mput_wf k v h)

theorem filter_wfAbove {m : Sparse α} {b : Nat} (p : Nat × α → Bool) (h : mwfAbove d b m = true) :
    mwfAbove d b (m.filter p) = true := by
  induction m generalizing b with
  | nil => rfl
  | cons e m ih =>
    obtain ⟨k, v⟩ := e
    simp only [mwfAbove, Bool.and_eq_true, decide_eq_true_eq] at h
    simp only [List.filter]
    split
    · simp only [mwfAbove, Bool.and_eq_true, decide_eq_true_eq]
      exact ⟨h.1, ih h.2⟩
    · exact mwfAbove_mono (ih h.2) (by omega)

/-- Clearing a range keeps the canonical form. -/
theorem mclear_wf {m : Sparse α} (lo hi : Nat) (h : mwf d m = true) : mwf d (mclear lo hi m) = true :=
  filter_wfAbove _ h

/-- Changing values in place, to values that are not the default, keeps the canonical form. -/
theorem map_wfAbove {m : Sparse α} {b : Nat} (f : Nat × α → Nat × α) (hk : ∀ e, (f e).1 = e.1)
    (hv : ∀ e, e.2 ≠ d e.1 → (f e).2 ≠ d e.1) (h : mwfAbove d b m = true) : mwfAbove d b (m.map f) = true := by
  induction m generalizing b with
  | nil => rfl
  | cons e m ih =>
    obtain ⟨k, v⟩ := e
    simp only [mwfAbove, Bool.and_eq_true, decide_eq_true_eq, bne_iff_ne, ne_eq] at h
    have e1 := hk (k, v)
    have e2 := hv (k, v) h.1.2
    generalize hf : f (k, v) = g at e1 e2
    obtain ⟨k', v'⟩ := g
    simp only at e1 e2
    subst k'
    simp only [List.map, hf, mwfAbove, Bool.and_eq_true, decide_eq_true_eq, bne_iff_ne, ne_eq]
    exact ⟨⟨h.1.1, e2⟩, ih h.2⟩

theorem mget_mput_above {m : Sparse α} {b k : Nat} (v : α) (h : mwfAbove d b m = true) : mget d (mput d k v m) k = v := by
  induction m generalizing b with
  | nil =>
    simp only [mput]
    split
    · simp_all [mget]
    · simp [mget]
  | cons e m ih =>
    obtain ⟨k', v'⟩ := e
    have h' := h
    simp only [mwfAbove, Bool.and_eq_true, decide_eq_true_eq] at h
    simp only [mput]
    split
    · split
      · rename_i hk hv
        have : k ≠ k' := by omega
        simp [mget, this, hv, mget_below h.2 (show k < k' + 1 by omega)]
      · simp [mget]
    · split
      · subst k'
        split
        · rename_i hv
          simp [hv, mget_below h.2]
        · simp [mget]
      · rename_i hk
        simp [mget, hk, ih h.2]

/-- A read after a write of the same key gives the value written. -/
theorem mget_mput_same {m : Sparse α} (k : Nat) (v : α) (h : mwf d m = true) : mget d (mput d k v m) k = v :=
  mget_mput_above v h

/-- A write leaves every other key alone. -/
theorem mget_mput_ne (m : Sparse α) {k j : Nat} (v : α) (hj : j ≠ k) : mget d (mput d k v m) j = mget d m j := by
  induction m with
  | nil =>
    simp only [mput]
    split <;> simp [mget, hj]
  | cons e m ih =>
    obtain ⟨k', v'⟩ := e
    simp only [mput]
    split
    · split <;> simp [mget, hj]
    · split
      · subst k'
        split <;> simp [mget, hj]
      · simp [mget, ih]

/-- A run of writes leaves every key outside the run alone. -/
theorem mget_mputRun_out (m : Sparse α) (k : Nat) (vs : List α) {j : Nat} (hj : j < k ∨ k + vs.length ≤ j) :
    mget d (mputRun d k vs m) j = mget d m j := by
  induction vs generalizing m k with
  | nil => rfl
  | cons v vs ih =>
    simp only [List.length_cons] at hj
    simp only [mputRun]
    rw [ih _ _ (by omega), mget_mput_ne _ _ (by omega)]

/-- A run of writes gives the keys of the run their values. -/
theorem mget_mputRun_in {m : Sparse α} (k : Nat) (vs : List α) (h : mwf d m = true) {i : Nat} (hi : i < vs.length) :
    mget d (mputRun d k vs m) (k + i) = vs[i] := by
  induction vs generalizing m k i with
  | nil => simp at hi
  | cons v vs ih =>
    simp only [mputRun]
    cases i with
    | zero => rw [mget_mputRun_out _ _ _ (by omega)]; simpa using mget_mput_same k v h
    | succ i =>
      have := ih (k + 1) (m := mput d k v m) (mput_wf k v h) (i := i) (by simpa using hi)
      simpa [Nat.add_assoc, Nat.add_comm 1] using this

/-- Writes leave every key that none of them names alone. -/
theorem mget_mputs_out (m : Sparse α) (kvs : List (Nat × α)) {j : Nat} (hj : ∀ e ∈ kvs, e.1 ≠ j) :
    mget d (mputs d kvs m) j = mget d m j := by
  induction kvs generalizing m with
  | nil => rfl
  | cons e kvs ih =>
    simp only [mputs]
    rw [ih _ (fun x hx => hj x (List.mem_cons_of_mem _ hx)), mget_mput_ne]
    exact fun h => hj e List.mem_cons_self h.symm

omit [DecidableEq α] in
/-- A cleared key reads as the default. -/
theorem mget_mclear_in (m : Sparse α) {lo hi k : Nat} (h1 : lo ≤ k) (h2 : k < hi) : mget d (mclear lo hi m) k = d k := by
  induction m with
  | nil => rfl
  | cons e m ih =>
    obtain ⟨k', v⟩ := e
    simp only [mclear, List.filter] at ih ⊢
    split
    · rename_i hk
      simp only [Bool.or_eq_true, decide_eq_true_eq] at hk
      have : k ≠ k' := by omega
      simp only [mget, this, if_false]
      exact ih
    · exact ih

omit [DecidableEq α] in
/-- A key outside a cleared range keeps its value. -/
theorem mget_mclear_out (m : Sparse α) {lo hi k : Nat} (h : k < lo ∨ hi ≤ k) : mget d (mclear lo hi m) k = mget d m k := by
  induction m with
  | nil => rfl
  | cons e m ih =>
    obtain ⟨k', v⟩ := e
    simp only [mclear, List.filter] at ih ⊢
    split
    · simp only [mget]
      split
      · rfl
      · exact ih
    · rename_i hk
      have : k ≠ k' := by
        intro e
        subst e
        rcases h with h | h <;> simp [h] at hk
      simp only [mget, this, if_false]
      exact ih

end Sys2Proof.Machine
end

