-- ==== Sys2Proof/Laws/Orderly.lean ====
section
/-! SUPPORT. What every operation of the model does to the whole machine: it leaves the queue alone, never draws a free value
again, and keeps the invariant. -/

namespace Sys2Proof.Machine
set_option Elab.async false
open Sys2Proof

/-- From s to t the queue is untouched, the count of free values does not fall, and the invariant is kept. -/
def Orderly (s t : State) : Prop := t.pending = s.pending ∧ s.free ≤ t.free ∧ (Inv s → Inv t)

theorem orderly_refl (s : State) : Orderly s s := ⟨rfl, Nat.le_refl _, id⟩

theorem orderly_trans {s t u : State} (h : Orderly s t) (g : Orderly t u) : Orderly s u :=
  ⟨g.1.trans h.1, Nat.le_trans h.2.1 g.2.1, fun i => g.2.2 (h.2.2 i)⟩

theorem ite_orderly {s t u : State} {c : Prop} [Decidable c] (h : Orderly s t) (g : Orderly s u) :
    Orderly s (if c then t else u) := by
  split
  · exact h
  · exact g

theorem ite_orderly' {α : Type} {s : State} {t u : α × State} {c : Prop} [Decidable c] (h : Orderly s t.2) (g : Orderly s u.2) :
    Orderly s (if c then t else u).2 := by
  split
  · exact h
  · exact g

/-- The invariant in terms of what it reads. -/
def InvView (m : Mem) (r : Sparse Word) (cores clus dma links ports strs fgs ses qs ser outs ns frac : Nat) : Prop :=
  Memory.wf m = true ∧ mwf regReset r = true ∧ cores = 32 ∧ clus = 8 ∧ dma = 8 ∧ links = 6 ∧ ports = 12 ∧ strs = 48 ∧
    fgs = 17 ∧ ses = 32 ∧ qs = 64 ∧ ser = 10 ∧ outs = 24 ∧ ns < 2 ^ 64 ∧ frac < 2 ^ 32

theorem inv_view (s : State) : Inv s ↔ InvView s.mem s.rf.val s.cores.length s.clus.length s.dma.length s.lk.l.length
    s.csi.ports.length s.csi.strs.length s.csi.fgs.length s.vid.ses.length s.vid.qs.length s.io.ser.length
    s.io.outs.length s.ns s.frac :=
  ⟨fun ⟨a, b, ⟨c, d, e, f, g, i, j, k, l, n, o⟩, p, q⟩ => ⟨a, b, c, d, e, f, g, i, j, k, l, n, o, p, q⟩,
   fun ⟨a, b, c, d, e, f, g, i, j, k, l, n, o, p, q⟩ => ⟨a, b, ⟨c, d, e, f, g, i, j, k, l, n, o⟩, p, q⟩⟩

theorem foldS_orderly {α : Type} (f : State → α → State) (h : ∀ s a, Orderly s (f s a)) (l : List α) (s : State) :
    Orderly s (foldS f l s) := by
  induction l generalizing s with
  | nil => exact orderly_refl s
  | cons a l ih => exact orderly_trans (h s a) (ih _)

theorem iterS_orderly (f : State → State) (h : ∀ s, Orderly s (f s)) (n : Nat) (s : State) : Orderly s (iterS f n s) := by
  induction n generalizing s with
  | zero => exact orderly_refl s
  | succ n ih => exact orderly_trans (h s) (ih _)

theorem foldl_orderly {α : Type} (f : State → α → State) (h : ∀ s a, Orderly s (f s a)) (l : List α) (s : State) :
    Orderly s (l.foldl f s) := by
  induction l generalizing s with
  | nil => exact orderly_refl s
  | cons a l ih => exact orderly_trans (h s a) (ih _)

theorem foldl2_orderly {α β : Type} (f : β × State → α → β × State) (h : ∀ b a, Orderly b.2 (f b a).2) (l : List α)
    (b : β × State) : Orderly b.2 (l.foldl f b).2 := by
  induction l generalizing b with
  | nil => exact orderly_refl b.2
  | cons a l ih => exact orderly_trans (h b a) (ih _)

theorem mem_wf_iff (m : Mem) : Memory.wf m = true ↔ mwf byte0 m.sram = true ∧ mwf flag0 m.pois = true ∧
    mwf flag0 m.barPois = true ∧ mwf nat0 m.ecc = true ∧ mwf nat0 m.barEcc = true ∧ mwf slot0 m.slots = true ∧
    mwf dram0 m.dram = true := by simp [Memory.wf, and_assoc]

/-- Every memory operation keeps the canonical form: a change of the memories alone. -/
theorem orderly_mem {s : State} (m : Mem) (h : Memory.wf s.mem = true → Memory.wf m = true) :
    Orderly s { s with mem := m } :=
  ⟨rfl, Nat.le_refl _, fun ⟨a, b, ⟨c, d, e, f, g, i, j, k, l, n, o⟩, p, q⟩ => ⟨h a, b, ⟨c, d, e, f, g, i, j, k, l, n, o⟩, p, q⟩⟩

/-- A change of the register file alone. -/
theorem orderly_rf {s : State} (r : RegFile) (h : mwf regReset s.rf.val = true → mwf regReset r.val = true) :
    Orderly s { s with rf := r } :=
  ⟨rfl, Nat.le_refl _, fun ⟨a, b, ⟨c, d, e, f, g, i, j, k, l, n, o⟩, p, q⟩ => ⟨a, h b, ⟨c, d, e, f, g, i, j, k, l, n, o⟩, p, q⟩⟩

theorem onOk_orderly {α : Type} {s t : State} {x : Except Fault α} {f : α → Out} (h : ∀ a, f a = .next t → Orderly s t) :
    onOk x f = .next t → Orderly s t := by
  cases x with
  | error e => intro g; cases g
  | ok a => exact h a

theorem next_orderly {s t u : State} (h : Orderly s u) : (.next u : Out) = .next t → Orderly s t := by
  intro g
  cases g
  exact h

theorem some_orderly {s t u : State} (h : Orderly s u) : some u = some t → Orderly s t := by
  intro g
  cases g
  exact h

theorem iteSome_orderly {s : State} {c : Prop} [Decidable c] {x y : Option State} (h : ∀ t, x = some t → Orderly s t)
    (g : ∀ t, y = some t → Orderly s t) (t : State) : (if c then x else y) = some t → Orderly s t := by
  by_cases hc : c
  · rw [if_pos hc]
    exact h t
  · rw [if_neg hc]
    exact g t

theorem map_orderly {s : State} (i : Option Nat) (f : Nat → State) (h : ∀ k, Orderly s (f k)) (t : State) :
    i.map f = some t → Orderly s t := by
  cases i with
  | none => intro g; cases g
  | some k => exact some_orderly (h k)

theorem orElse_orderly {s : State} {x y : Option State} (h : ∀ t, x = some t → Orderly s t)
    (g : ∀ t, y = some t → Orderly s t) (t : State) : (x <|> y) = some t → Orderly s t := by
  cases x with
  | none => exact g t
  | some u => exact h t

theorem truncI_lt (n : Nat) (x : Int) : truncI n x < 2 ^ n := by
  have h : (0 : Int) < (2 ^ n : Nat) := by exact_mod_cast Nat.two_pow_pos n
  have := Int.emod_lt_of_pos x h
  have := Int.emod_nonneg x (Int.ne_of_gt h)
  simp only [truncI]
  omega

/-! ### Leaves -/

theorem wr_orderly (s : State) (a : Nat) (v : Word) : Orderly s (wr s a v) := orderly_rf _ (mput_wf a v)

theorem holdWrite_orderly (s : State) (a : Nat) (v : Word) : Orderly s (holdWrite s a v) := orderly_rf _ id

theorem setCore_orderly (s : State) (n : Nat) (c : Core) : Orderly s (setCore s n c) :=
  ⟨rfl, Nat.le_refl _, fun ⟨a, b, ⟨c, d, e, f, g, i, j, k, l, n, o⟩, p, q⟩ =>
    ⟨a, b, ⟨by simpa [setCore] using c, d, e, f, g, i, j, k, l, n, o⟩, p, q⟩⟩

theorem updCore_orderly (s : State) (n : Nat) (f : Core → Core) : Orderly s (updCore s n f) := setCore_orderly ..

theorem setClu_orderly (s : State) (n : Nat) (c : Cluster) : Orderly s (setClu s n c) :=
  ⟨rfl, Nat.le_refl _, fun ⟨a, b, ⟨c, d, e, f, g, i, j, k, l, n, o⟩, p, q⟩ =>
    ⟨a, b, ⟨c, by simpa [setClu] using d, e, f, g, i, j, k, l, n, o⟩, p, q⟩⟩

theorem updClu_orderly (s : State) (n : Nat) (f : Cluster → Cluster) : Orderly s (updClu s n f) := setClu_orderly ..

theorem freeW_orderly (s : State) : Orderly s (freeW s).2 := by
  simp [Orderly, inv_view, freeW]

theorem freeN_orderly (s : State) : Orderly s (freeN s).2 := by
  simp [Orderly, inv_view, freeN]

theorem slotPut_orderly (s : State) (k : Nat) (v : Slot) : Orderly s (slotPut s k v) := by
  apply orderly_mem
  simp only [mem_wf_iff]
  rintro ⟨a, b, c, d, e, f, g⟩
  exact ⟨a, b, c, d, e, mput_wf k v f, g⟩

theorem ramPut_orderly (s : State) (a : Nat) (bs : List Byte) : Orderly s (ramPut s a bs) := by
  apply orderly_mem
  simp only [mem_wf_iff]
  rintro ⟨x, b, c, d, e, f, g⟩
  exact ⟨mputRun_wf a bs x, b, c, d, e, f, g⟩

theorem poisPut_orderly (s : State) (w : Nat) (b : Bool) : Orderly s (poisPut s w b) := by
  apply orderly_mem
  simp only [mem_wf_iff]
  rintro ⟨x, y, c, d, e, f, g⟩
  exact ⟨x, mput_wf w b y, c, d, e, f, g⟩

theorem eccPut_orderly (s : State) (w n : Nat) : Orderly s (eccPut s w n) := by
  apply orderly_mem
  simp only [mem_wf_iff]
  rintro ⟨x, y, c, d, e, f, g⟩
  exact ⟨x, y, c, mput_wf w n d, e, f, g⟩

theorem linePut_orderly (s : State) (l : Nat) (v : DLine) : Orderly s (linePut s l v) := by
  apply orderly_mem
  simp only [mem_wf_iff]
  rintro ⟨x, y, c, d, e, f, g⟩
  exact ⟨x, y, c, d, e, f, mput_wf l (some v) g⟩

theorem barUpset_orderly (s : State) (x : Nat × Nat) : Orderly s (barUpset s x) := by
  apply orderly_mem
  simp only [mem_wf_iff]
  rintro ⟨x, y, c, d, e, f, g⟩
  exact ⟨x, y, c, d, mput_wf _ _ e, f, g⟩

theorem memZero_orderly (s : State) (m : Nat) : Orderly s (memZero s m) := by
  apply orderly_mem
  simp only [mem_wf_iff]
  rintro ⟨x, y, c, d, e, f, g⟩
  exact ⟨mclear_wf _ _ x, mclear_wf _ _ y, c, mclear_wf _ _ d, e, f, g⟩

theorem sramZero_orderly (s : State) (a b : Nat) : Orderly s (sramZero s a b) := by
  apply orderly_mem
  simp only [mem_wf_iff]
  rintro ⟨x, y, c, d, e, f, g⟩
  exact ⟨mclear_wf _ _ x, mclear_wf _ _ y, mclear_wf _ _ c, mclear_wf _ _ d, mclear_wf _ _ e, f, g⟩

theorem trashTop_orderly (s : State) : Orderly s (trashTop s) := by
  apply orderly_mem
  simp only [mem_wf_iff]
  rintro ⟨x, y, c, d, e, f, g⟩
  exact ⟨x, y, c, d, e, f, mclear_wf _ _ g⟩

theorem deliver_orderly (s : State) (bs : List Byte) (ps : List Bool) : Orderly s (deliver s bs ps) :=
  orderly_mem _ (by simp only [mem_wf_iff]; exact id)

theorem slotsStop_orderly (s : State) (k : Nat) : Orderly s (slotsStop s k) := by
  apply orderly_mem
  simp only [mem_wf_iff]
  rintro ⟨x, y, c, d, e, f, g⟩
  refine ⟨x, y, c, d, e, map_wfAbove _ ?_ ?_ f, g⟩
  · intro e
    split <;> rfl
  · intro e he
    split
    · simp [slot0]
    · exact he

/-- Slots of a range become as after reset. -/
theorem slotsClear_orderly (s : State) (lo hi : Nat) :
    Orderly s { s with mem := { s.mem with slots := mclear lo hi s.mem.slots } } := by
  apply orderly_mem
  simp only [mem_wf_iff]
  rintro ⟨x, y, c, d, e, f, g⟩
  exact ⟨x, y, c, d, e, mclear_wf _ _ f, g⟩

/-- The hold stores are no sparse data. -/
theorem holds_orderly (s : State) (hs : List Held) : Orderly s { s with mem := { s.mem with holds := hs } } :=
  orderly_mem _ (by simp only [mem_wf_iff]; exact id)

/-- A change of the state of the links that leaves the links themselves. -/
theorem lk_orderly (s : State) (k : Links) (h : k.l = s.lk.l) : Orderly s { s with lk := k } := by
  simp [Orderly, inv_view, h]

/-- A change of firmware's state alone. -/
theorem fw_orderly (s : State) (f : Fw) : Orderly s { s with fw := f } := by simp [Orderly, inv_view]

theorem wb_orderly (s : State) (l : List Nat) : Orderly s { s with mem := { s.mem with wb := l } } :=
  orderly_mem _ (by simp only [mem_wf_iff]; exact id)

theorem sramPuts_orderly (s : State) (kvs : List (Nat × Byte)) :
    Orderly s { s with mem := { s.mem with sram := mputs byte0 kvs s.mem.sram } } := by
  apply orderly_mem
  simp only [mem_wf_iff]
  rintro ⟨x, b, c, d, e, f, g⟩
  exact ⟨mputs_wf kvs x, b, c, d, e, f, g⟩

theorem blkReset_orderly (s : State) (k : Nat) : Orderly s (blkReset s k) := orderly_rf _ (mclear_wf _ _)

end Sys2Proof.Machine
end

