-- ==== Sys2Proof/Laws/OrderlyCore.lean ====
section
/-! SUPPORT. That the shared operations, the memories and the beat leave the queue alone, draw fresh free values and keep the invariant. -/

namespace Sys2Proof.Machine
set_option Elab.async false
open Sys2Proof

/-! ### Ops -/

theorem wrF_orderly (s : State) a2 a3 a4 a5 : Orderly s (wrF s a2 a3 a4 a5) := by
  grind only [Orderly, wrF, wr_orderly]

theorem wrB_orderly (s : State) a2 a3 a4 : Orderly s (wrB s a2 a3 a4) := by
  grind only [Orderly, wrB, wr_orderly]

theorem incr_orderly (s : State) a2 : Orderly s (incr s a2) := by
  grind only [Orderly, incr, wr_orderly]

theorem incrBy_orderly (s : State) a2 a3 : Orderly s (incrBy s a2 a3) := by
  grind only [Orderly, incrBy, wr_orderly]

theorem cfgDrop_orderly (s : State) a2 : Orderly s (cfgDrop s a2) := by
  grind only [Orderly, cfgDrop, wrB_orderly]

theorem wr64_orderly (s : State) a2 a3 a4 : Orderly s (wr64 s a2 a3 a4) := by
  grind only [Orderly, wr64, wr_orderly]

theorem freeSkip_orderly (s : State) a2 : Orderly s (freeSkip s a2) := by
  simp [Orderly, inv_view, freeSkip]

theorem slotTag_orderly (s : State) a2 a3 : Orderly s (slotTag s a2 a3) := by
  grind only [Orderly, slotTag, slotPut_orderly]

theorem ramPutNat_orderly (s : State) a2 a3 a4 : Orderly s (ramPutNat s a2 a3 a4) := by
  grind only [Orderly, ramPutNat, ramPut_orderly]

theorem attnSet_orderly (s : State) a2 : Orderly s (attnSet s a2) := by
  grind only [Orderly, attnSet, wrB_orderly]

theorem refuseCnt_orderly (s : State) a2 : Orderly s (refuseCnt s a2) := by
  grind only [Orderly, refuseCnt, incr_orderly]

theorem logPut_orderly (s : State) a2 a3 : Orderly s (logPut s a2 a3) := by
  grind only [Orderly, logPut, ramPut_orderly, refuseCnt_orderly]

theorem logRec_orderly (s : State) a2 a3 a4 a5 a6 a7 : Orderly s (logRec s a2 a3 a4 a5 a6 a7) := by
  grind only [Orderly, logRec, ramPut_orderly, ramPutNat_orderly, attnSet_orderly, logPut_orderly]

theorem logMsg_orderly (s : State) a2 a3 a4 : Orderly s (logMsg s a2 a3 a4) := by
  grind only [Orderly, logMsg, freeN_orderly, logRec_orderly]

theorem logRefusal_orderly (s : State) a2 a3 a4 a5 a6 : Orderly s (logRefusal s a2 a3 a4 a5 a6) := by
  grind only [Orderly, logRefusal, logRec_orderly]

theorem rasPost_orderly (s : State) a2 a3 a4 a5 a6 a7 a8 a9 : Orderly s (rasPost s a2 a3 a4 a5 a6 a7 a8 a9) := by
  grind only [Orderly, rasPost, inv_view, freeW_orderly, incr_orderly]

theorem sramEvent_orderly (s : State) a2 a3 a4 : Orderly s (sramEvent s a2 a3 a4) := by
  grind only [Orderly, sramEvent, rasPost_orderly]

theorem consume_orderly (s : State) a2 a3 a4 a5 a6 : Orderly s (consume s a2 a3 a4 a5 a6) := by
  grind only [Orderly, consume, logRec_orderly, incr_orderly]

/-! ### Sram -/

theorem cluIncr_orderly (s : State) a2 a3 : Orderly s (cluIncr s a2 a3) := by
  grind only [Orderly, cluIncr, incr_orderly]

theorem wordFresh_orderly (s : State) a2 : Orderly s (wordFresh s a2) := by
  grind only [Orderly, wordFresh, inv_view, InvView, mem_wf_iff, mput_wf, mputs_wf, mclear_wf, eccPut_orderly]

theorem wordRead_orderly (s : State) a2 : Orderly s (wordRead s a2).2 := by
  grind only [Orderly, wordRead, inv_view, InvView, mem_wf_iff, mput_wf, mputs_wf, mclear_wf, cluIncr_orderly,
      sramEvent_orderly, freeSkip_orderly, wordFresh_orderly, ramPut_orderly, poisPut_orderly]

theorem wordsRead_orderly (s : State) a2 a3 : Orderly s (wordsRead s a2 a3).2 := by
  induction a3 generalizing s a2 <;> grind only [Orderly, wordsRead, wordRead_orderly]

theorem sramRead_orderly (s : State) a2 a3 : Orderly s (sramRead s a2 a3).2 := by
  grind only [Orderly, sramRead, wordsRead_orderly]

theorem wordParity_orderly (s : State) a2 : Orderly s (wordParity s a2) := by
  grind only [Orderly, wordParity, inv_view, InvView, mem_wf_iff, mput_wf, mputs_wf, mclear_wf, sramEvent_orderly,
      cluIncr_orderly, poisPut_orderly]

theorem wordWrite_orderly (s : State) a2 a3 : Orderly s (wordWrite s a2 a3) := by
  grind only [Orderly, wordWrite, inv_view, InvView, mem_wf_iff, mput_wf, mputs_wf, mclear_wf, wordRead_orderly,
      wordFresh_orderly, poisPut_orderly, wordParity_orderly]

theorem sramWrite_orderly (s : State) a2 : Orderly s (sramWrite s a2) := by
  grind only [Orderly, sramWrite, foldS_orderly, wordWrite_orderly]

theorem parityHit_orderly (s : State) a2 : Orderly s (parityHit s a2) := by
  grind only [Orderly, parityHit, foldS_orderly, sramEvent_orderly, cluIncr_orderly, poisPut_orderly]

theorem stall_orderly (s : State) a2 a3 a4 : Orderly s (stall s a2 a3 a4) := by
  grind only [Orderly, stall, incr_orderly]

theorem blockedCnt_orderly (s : State) a2 : Orderly s (blockedCnt s a2) := by
  grind only [Orderly, blockedCnt, incr_orderly]

theorem eccReplay_orderly (s : State) a2 a3 : Orderly s (eccReplay s a2 a3) := by
  grind only [Orderly, eccReplay, stall_orderly, blockedCnt_orderly]

theorem actMem_orderly (s : State) a2 a3 : Orderly s (actMem s a2 a3) := by
  grind only [Orderly, actMem, incrBy_orderly]

theorem useWords_orderly (s : State) a2 a3 : Orderly s (useWords s a2 a3) := by
  grind only [Orderly, useWords, inv_view, updCore_orderly]

theorem barRead_orderly (s : State) a2 a3 a4 : Orderly s (barRead s a2 a3 a4).2 := by
  grind only [Orderly, barRead, sramRead_orderly, actMem_orderly, eccReplay_orderly, useWords_orderly]

theorem wordsList_orderly (s : State) a2 : Orderly s (wordsList s a2).2 := by
  induction a2 generalizing s <;> grind only [Orderly, wordsList, wordRead_orderly]

theorem barReadRuns_orderly (s : State) a2 a3 : Orderly s (barReadRuns s a2 a3).2 := by
  grind only [Orderly, barReadRuns, wordsList_orderly, actMem_orderly, eccReplay_orderly, useWords_orderly]

/-! ### Flags -/

theorem applyFl_orderly (s : State) a2 a3 : Orderly s (applyFl s a2 a3) := by
  grind only [Orderly, applyFl, incrBy_orderly, wrB_orderly]

theorem resMismatch_orderly (s : State) a2 a3 a4 a5 a6 : Orderly s (resMismatch s a2 a3 a4 a5 a6) := by
  grind only [Orderly, resMismatch, wr_orderly, wrB_orderly, incr_orderly, rasPost_orderly]

theorem padTaps_orderly (s : State) a2 a3 : Orderly s (padTaps s a2 a3) := by
  grind only [Orderly, padTaps, incrBy_orderly, wrB_orderly]

theorem winMisses_orderly (s : State) a2 a3 : Orderly s (winMisses s a2 a3) := by
  grind only [Orderly, winMisses, incrBy_orderly, wrB_orderly]

theorem oobLanes_orderly (s : State) a2 a3 a4 : Orderly s (oobLanes s a2 a3 a4) := by
  grind only [Orderly, oobLanes, incrBy_orderly, wrB_orderly]

theorem tagBad_orderly (s : State) a2 a3 : Orderly s (tagBad s a2 a3) := by
  grind only [Orderly, tagBad, incr_orderly, wrB_orderly]

theorem act_orderly (s : State) a2 a3 a4 : Orderly s (act s a2 a3 a4) := by
  grind only [Orderly, act, incrBy_orderly]

/-! ### Mx -/

theorem rowRead_orderly (s : State) a2 a3 : Orderly s (rowRead s a2 a3).2 := by
  cases a3 with
  | pad bs miss tap => grind only [Orderly, rowRead, winMisses_orderly, padTaps_orderly, barRead_orderly]
  | mem runs =>
    simp only [rowRead]
    refine foldl2_orderly _ (fun b r => ?_) runs _
    exact barRead_orderly b.2 a2 r.1 r.2

theorem mxRead_orderly (s : State) a2 a3 a4 : Orderly s (mxRead s a2 a3 a4).2 := by
  grind only [Orderly, mxRead, barRead_orderly, rowRead_orderly]

theorem intElem_orderly (s : State) a2 a3 a4 a5 a6 a7 : Orderly s (intElem s a2 a3 a4 a5 a6 a7) := by
  grind only [Orderly, intElem, applyFl_orderly, setCore_orderly, resMismatch_orderly]

theorem fpElem_orderly (s : State) a2 a3 a4 a5 a6 a7 : Orderly s (fpElem s a2 a3 a4 a5 a6 a7) := by
  grind only [Orderly, fpElem, applyFl_orderly, setCore_orderly]

theorem rowLand_orderly (s : State) a2 a3 a4 : Orderly s (rowLand s a2 a3 a4) := by
  grind only [Orderly, rowLand, foldS_orderly, updCore_orderly, applyFl_orderly, setCore_orderly, intElem_orderly,
      fpElem_orderly]

/-! ### Beat -/

theorem refill_orderly (s : State) a2 : Orderly s (refill s a2) := by
  grind only [Orderly, refill, updClu_orderly]

theorem drecLand_orderly (s : State) a2 a3 a4 : Orderly s (drecLand s a2 a3 a4) := by
  grind only [Orderly, drecLand, updCore_orderly, wrB_orderly]

theorem barWrite_orderly (s : State) a2 a3 : Orderly s (barWrite s a2 a3) := by
  grind only [Orderly, barWrite, inv_view, updCore_orderly, eccReplay_orderly, sramWrite_orderly, act_orderly]

theorem landMem_orderly (s : State) a2 a3 a4 : Orderly s (landMem s a2 a3 a4) := by
  grind only [Orderly, landMem, foldS_orderly, sramWrite_orderly, act_orderly, barWrite_orderly]

theorem mxBeat_orderly (s : State) a2 a3 : Orderly s (mxBeat s a2 a3) := by
  unfold mxBeat
  dsimp only
  split
  · exact orderly_refl s
  · refine orderly_trans (t := (List.foldl _ (([] : List MxFlight), s) (coreOf s a2).mx).2) ?_ (updCore_orderly _ _ _)
    refine foldl2_orderly _ (fun b f => ?_) _ _
    exact mxRead_orderly b.2 a2 f (a3 - f.issue)

theorem mxLand_orderly (s : State) a2 a3 : Orderly s (mxLand s a2 a3) := by
  grind only [Orderly, mxLand, foldS_orderly, rowLand_orderly, updCore_orderly]

theorem blockBeat_orderly (s : State) a2 a3 a4 : Orderly s (blockBeat s a2 a3 a4) := by
  grind only [Orderly, blockBeat, refill_orderly, updClu_orderly, stall_orderly, blockedCnt_orderly]

theorem pend_orderly (s : State) a2 a3 a4 : Orderly s (pend s a2 a3 a4) := by
  induction a4 generalizing s a2 a3 <;> grind only [Orderly, pend, updCore_orderly]

theorem through_orderly (s : State) a2 a3 : Orderly s (through s a2 a3) := by
  grind only [Orderly, through, inv_view, updClu_orderly]

theorem freeCode_orderly (s : State) : Orderly s (freeCode s).2 := by
  grind only [Orderly, freeCode, freeN_orderly]

theorem scrubRead_orderly (s : State) a2 : Orderly s (scrubRead s a2) := by
  grind only [Orderly, scrubRead, wordRead_orderly, cluIncr_orderly, sramEvent_orderly]

theorem acted_orderly (s : State) a2 a3 : Orderly s (acted s a2 a3) := by
  grind only [Orderly, acted, inv_view, updClu_orderly]

end Sys2Proof.Machine
end

