-- ==== Sys2Proof/Laws/OrderlyEngine.lean ====
section
/-! SUPPORT. That the engine, the fabric, transfers and the mailbox leave the queue alone, draw fresh free values and keep the invariant. -/

namespace Sys2Proof.Machine
set_option Elab.async false
open Sys2Proof

/-! ### Fabric -/

theorem refuse_orderly (s : State) a2 a3 a4 : Orderly s (refuse s a2 a3 a4) := by
  grind only [Orderly, refuse, incr_orderly, logRefusal_orderly, refuseCnt_orderly]

theorem fwPut_orderly (s : State) a2 a3 : Orderly s (fwPut s a2 a3) := by
  grind only [Orderly, fwPut, ramPut_orderly, refuse_orderly]

theorem setFwState_orderly (s : State) a2 : Orderly s (setFwState s a2) := by
  grind only [Orderly, setFwState, attnSet_orderly, ramPutNat_orderly, fwPut_orderly]

theorem tagParity_orderly (s : State) a2 : Orderly s (tagParity s a2) := by
  grind only [Orderly, tagParity, wrB_orderly, slotTag_orderly, sramEvent_orderly]

theorem tagSee_orderly (s : State) a2 : Orderly s (tagSee s a2) := by
  grind only [Orderly, tagSee, tagParity_orderly]

theorem scommit_orderly (s : State) a2 a3 : Orderly s (scommit s a2 a3) := by
  grind only [Orderly, scommit, slotPut_orderly, slotTag_orderly, tagBad_orderly, tagSee_orderly]

theorem land_orderly (s : State) a2 a3 : Orderly s (land s a2 a3) := by
  unfold land
  (repeat' split) <;> grind only [Orderly, land, updCore_orderly, drecLand_orderly, scommit_orderly]

theorem landDue_orderly (s : State) a2 a3 : Orderly s (landDue s a2 a3) := by
  grind only [Orderly, landDue, foldS_orderly, setCore_orderly, landMem_orderly, land_orderly, pend_orderly]

theorem coreBeat_orderly (s : State) a2 a3 : Orderly s (coreBeat s a2 a3) := by
  grind only [Orderly, coreBeat, mxLand_orderly, landDue_orderly, mxBeat_orderly]

/-! ### Program -/

theorem causeHit_orderly (s : State) a2 a3 : Orderly s (causeHit s a2 a3) := by
  grind only [Orderly, causeHit, foldS_orderly, stall_orderly]

theorem blockedBeat_orderly (s : State) a2 a3 : Orderly s (blockedBeat s a2 a3) := by
  grind only [Orderly, blockedBeat, foldS_orderly, refill_orderly, updClu_orderly, causeHit_orderly, blockedCnt_orderly]

theorem conflictBeats_orderly (s : State) a2 a3 a4 : Orderly s (conflictBeats s a2 a3 a4) := by
  induction a4 generalizing s a2 a3 <;> grind only [Orderly, conflictBeats, blockedBeat_orderly, incr_orderly]

theorem bankConflicts_orderly (s : State) a2 : Orderly s (bankConflicts s a2) := by
  grind only [Orderly, bankConflicts, inv_view, conflictBeats_orderly, foldS_orderly, setCore_orderly]

theorem coresBeat_orderly (s : State) a2 : Orderly s (coresBeat s a2) := by
  grind only [Orderly, coresBeat, bankConflicts_orderly, foldS_orderly, coreBeat_orderly]

theorem tick_orderly (s : State) a2 : Orderly s (tick s a2) := by
  grind only [Orderly, tick, foldS_orderly, coreBeat_orderly, updClu_orderly, incr_orderly, refill_orderly,
      coresBeat_orderly, acted_orderly]

theorem adv_orderly (s : State) a2 a3 : Orderly s (adv s a2 a3) := by
  exact iterS_orderly _ (fun s => ite_orderly (tick_orderly s a2) (orderly_refl s)) _ _

/-! ### LinkSend -/

theorem updLnk_orderly (s : State) a2 a3 : Orderly s (updLnk s a2 a3) := by
  grind [Orderly, updLnk, inv_view]

theorem enqueue_orderly (s : State) a2 a3 : Orderly s (enqueue s a2 a3) := by
  grind only [Orderly, enqueue, updLnk_orderly]

theorem segSend_orderly (s : State) a2 : Orderly s (segSend s a2).2 := by
  grind only [Orderly, segSend, enqueue_orderly, incr_orderly]

theorem newRop_orderly (s : State) a2 : Orderly s (newRop s a2) := by
  grind only [Orderly, newRop, inv_view]

theorem goLone_orderly (s : State) : Orderly s (goLone s) := by
  grind only [Orderly, goLone, inv_view, wr_orderly]

theorem loneDue_orderly (s : State) : Orderly s (loneDue s) := by
  grind only [Orderly, loneDue, goLone_orderly]

theorem updDma_orderly (s : State) a2 a3 : Orderly s (updDma s a2 a3) := by
  grind [Orderly, updDma, inv_view]

theorem ackTo_orderly (s : State) a2 a3 a4 a5 a6 a7 a8 : Orderly s (ackTo s a2 a3 a4 a5 a6 a7 a8) := by
  unfold ackTo
  (repeat' split) <;> grind only [Orderly, ackTo, updClu_orderly, updDma_orderly, segSend_orderly]

/-! ### Firm -/

theorem traceRec_orderly (s : State) a2 a3 : Orderly s (traceRec s a2 a3) := by
  grind only [Orderly, traceRec, logRec_orderly, freeSkip_orderly]

theorem mboxSend_orderly (s : State) a2 a3 : Orderly s (mboxSend s a2 a3) := by
  grind only [Orderly, mboxSend, segSend_orderly]

theorem rspWrite_orderly (s : State) a2 a3 : Orderly s (rspWrite s a2 a3) := by
  unfold rspWrite
  dsimp only
  split
  · exact mboxSend_orderly ..
  · split
    · exact orderly_trans (orderly_trans (fwPut_orderly ..) (fwPut_orderly ..)) (attnSet_orderly ..)
    · exact orderly_trans (fwPut_orderly ..) (fwPut_orderly ..)

theorem postEntry_orderly (s : State) a2 a3 : Orderly s (postEntry s a2 a3) := by
  grind only [Orderly, postEntry, inv_view, rspWrite_orderly]

theorem flushPair_orderly (s : State) a2 a3 : Orderly s (flushPair s a2 a3) := by
  induction a3 generalizing s with
  | zero => exact orderly_refl s
  | succ n ih => unfold flushPair; split <;> grind only [Orderly, inv_view, rspWrite_orderly]

theorem respond_orderly (s : State) a2 a3 a4 : Orderly s (respond s a2 a3 a4) := by
  grind only [Orderly, respond, traceRec_orderly, postEntry_orderly]

theorem postEvent_orderly (s : State) a2 a3 a4 a5 a6 : Orderly s (postEvent s a2 a3 a4 a5 a6) := by
  grind only [Orderly, postEvent, postEntry_orderly]

theorem cgUpd_orderly (s : State) a2 a3 : Orderly s (cgUpd s a2 a3) := by
  grind only [Orderly, cgUpd, inv_view]

theorem cgSetState_orderly (s : State) a2 a3 : Orderly s (cgSetState s a2 a3) := by
  grind only [Orderly, cgSetState, wrF_orderly]

theorem cgOutcome_orderly (s : State) a2 a3 a4 a5 a6 : Orderly s (cgOutcome s a2 a3 a4 a5 a6) := by
  grind only [Orderly, cgOutcome, postEvent_orderly, logRec_orderly]

theorem cgAbortOne_orderly (s : State) a2 a3 a4 : Orderly s (cgAbortOne s a2 a3 a4) := by
  grind only [Orderly, cgAbortOne, inv_view, wrF_orderly, cgSetState_orderly, incr_orderly, wr64_orderly,
      respond_orderly, cgUpd_orderly, cgOutcome_orderly]

theorem cgAbort_orderly (s : State) a2 a3 a4 : Orderly s (cgAbort s a2 a3 a4) := by
  grind only [Orderly, cgAbort, inv_view, wrF_orderly, cgSetState_orderly, incr_orderly, wr64_orderly, respond_orderly,
      cgUpd_orderly, cgOutcome_orderly, cgAbortOne_orderly, freeCode_orderly, foldS_orderly]

theorem cgSignal_orderly (s : State) a2 a3 : Orderly s (cgSignal s a2 a3) := by
  grind only [Orderly, cgSignal, foldS_orderly, cgUpd_orderly]

theorem cgEngineStop_orderly (s : State) : Orderly s (cgEngineStop s) := by
  grind only [Orderly, cgEngineStop, foldS_orderly, cgAbort_orderly]

theorem xfersStop_orderly (s : State) a2 : Orderly s (xfersStop s a2) := by
  grind only [Orderly, xfersStop, inv_view, InvView, mem_wf_iff, mput_wf, mputs_wf, mclear_wf, foldS_orderly,
      updClu_orderly, ackTo_orderly]

theorem qpopStop_orderly (s : State) a2 : Orderly s (qpopStop s a2) := by
  simp [Orderly, inv_view, qpopStop]

theorem cluStop_orderly (s : State) a2 : Orderly s (cluStop s a2) := by
  grind only [Orderly, cluStop, slotsStop_orderly, updClu_orderly, xfersStop_orderly, qpopStop_orderly]

theorem engineStop_orderly (s : State) : Orderly s (engineStop s) := by
  grind only [Orderly, engineStop, inv_view, foldS_orderly, cluStop_orderly, wrB_orderly, loneDue_orderly, cgEngineStop_orderly]

theorem engineFault_orderly (s : State) a2 a3 a4 : Orderly s (engineFault s a2 a3 a4) := by
  grind only [Orderly, engineFault, engineStop_orderly, wrB_orderly, wr_orderly]

theorem fetchMore_orderly (s : State) a2 : Orderly s (fetchMore s a2) := by
  grind only [Orderly, fetchMore, setClu_orderly]

theorem fetchAt_orderly (s : State) a2 a3 : Orderly s (fetchAt s a2 a3) := by
  grind only [Orderly, fetchAt, updClu_orderly]

theorem slotTake_orderly (s : State) a2 a3 : Orderly s (slotTake s a2 a3) := by
  grind only [Orderly, slotTake, updCore_orderly]

theorem barCe1_orderly (s : State) a2 a3 : Orderly s (barCe1 s a2 a3) := by
  grind only [Orderly, barCe1, rasPost_orderly, incr_orderly]

theorem barCe_orderly (s : State) a2 a3 a4 : Orderly s (barCe s a2 a3 a4) := by
  grind only [Orderly, barCe, rasPost_orderly, foldS_orderly, barCe1_orderly]

theorem fetchFollow_orderly (s : State) a2 a3 : Orderly s (fetchFollow s a2 a3) := by
  grind only [Orderly, fetchFollow, inv_view, updClu_orderly]

theorem barTake_orderly (s : State) a2 : Orderly s (barTake s a2) := by
  grind only [Orderly, barTake, foldS_orderly, setClu_orderly, slotTake_orderly, fetchAt_orderly, updClu_orderly,
      acted_orderly, fetchFollow_orderly]

theorem barWord_orderly (s : State) a2 a3 a4 : Orderly s (barWord s a2 a3 a4) := by
  grind only [Orderly, barWord, inv_view, InvView, mem_wf_iff, mput_wf, mputs_wf, mclear_wf]

theorem bankWrite_orderly (s : State) a2 a3 a4 : Orderly s (bankWrite s a2 a3 a4) := by
  grind only [Orderly, bankWrite, inv_view, InvView, mem_wf_iff, mput_wf, mputs_wf, mclear_wf, foldS_orderly,
      ramPut_orderly, wrB_orderly, barWord_orderly]

theorem passStart_orderly (s : State) : Orderly s (passStart s) := by
  grind only [Orderly, passStart, incr_orderly, wr64_orderly]

theorem coreStart_orderly (s : State) a2 : Orderly s (coreStart s a2) := by
  grind only [Orderly, coreStart, inv_view, updCore_orderly]

theorem cluStart_orderly (s : State) a2 : Orderly s (cluStart s a2) := by
  grind only [Orderly, cluStart, updClu_orderly, fetchAt_orderly, foldS_orderly, coreStart_orderly, acted_orderly]

theorem cluGo_orderly (s : State) a2 a3 : Orderly s (cluGo s a2 a3) := by
  grind only [Orderly, cluGo, updClu_orderly, wrB_orderly]

theorem scanStart_orderly (s : State) : Orderly s (scanStart s) := by
  grind only [Orderly, scanStart, inv_view, wrB_orderly]

theorem scanDone_orderly a1 (s : State) : Orderly s (scanDone a1 s) := by
  grind only [Orderly, scanDone, inv_view, wrF_orderly, wr_orderly]

theorem mappingChanged_orderly (s : State) a2 : Orderly s (mappingChanged s a2) := by
  grind only [Orderly, mappingChanged, inv_view, wrB_orderly]

theorem engineOn_orderly (s : State) : Orderly s (engineOn s) := by
  grind only [Orderly, engineOn, inv_view, foldS_orderly, wrB_orderly, updCore_orderly, passStart_orderly]

theorem engineTry_orderly (s : State) : Orderly s (engineTry s) := by
  grind only [Orderly, engineTry, wrF_orderly, engineOn_orderly]

theorem engineOff_orderly (s : State) a2 : Orderly s (engineOff s a2) := by
  grind only [Orderly, engineOff, inv_view, foldS_orderly, wrB_orderly, cgAbort_orderly, cgUpd_orderly, engineStop_orderly]

theorem stopClear_orderly (s : State) : Orderly s (stopClear s) := by
  grind only [Orderly, stopClear, foldS_orderly, wrB_orderly, updClu_orderly]

theorem truncHit_orderly (s : State) a2 a3 a4 : Orderly s (truncHit s a2 a3 a4) := by
  grind only [Orderly, truncHit, wrF_orderly, incr_orderly, wrB_orderly]

theorem emptyHit_orderly (s : State) a2 a3 : Orderly s (emptyHit s a2 a3) := by
  grind only [Orderly, emptyHit, wrF_orderly, incr_orderly, wrB_orderly]

theorem ddValue_orderly (s : State) a2 : Orderly s (ddValue s a2).2 := by
  grind only [Orderly, ddValue, freeW_orderly]

theorem lineUe_orderly (s : State) a2 a3 a4 a5 a6 : Orderly s (lineUe s a2 a3 a4 a5 a6) := by
  grind only [Orderly, lineUe, linePut_orderly, incr_orderly, wr_orderly, wr64_orderly, rasPost_orderly]

theorem lineCe_orderly (s : State) a2 a3 : Orderly s (lineCe s a2 a3) := by
  grind only [Orderly, lineCe, foldS_orderly, incr_orderly, rasPost_orderly]

theorem lineFree_orderly (s : State) a2 : Orderly s (lineFree s a2).2 := by
  grind only [Orderly, lineFree, freeSkip_orderly, lineUe_orderly, linePut_orderly, lineCe_orderly]

theorem lineGet_orderly (s : State) a2 : Orderly s (lineGet s a2).2 := by
  grind only [Orderly, lineGet, lineFree_orderly]

theorem lineRead_orderly (s : State) a2 : Orderly s (lineRead s a2).2 := by
  grind only [Orderly, lineRead, lineGet_orderly]

theorem lineWrite_orderly (s : State) a2 a3 a4 a5 : Orderly s (lineWrite s a2 a3 a4 a5) := by
  grind only [Orderly, lineWrite, consume_orderly, linePut_orderly, lineRead_orderly]

theorem dramAct_orderly (s : State) a2 : Orderly s (dramAct s a2) := by
  grind only [Orderly, dramAct, act_orderly]

theorem hostWrite_orderly (s : State) a2 a3 : Orderly s (hostWrite s a2 a3) := by
  grind only [Orderly, hostWrite, inv_view, InvView, mem_wf_iff, mput_wf, mputs_wf, mclear_wf, foldS_orderly,
      incr_orderly, consume_orderly]

theorem fabRead_orderly (s : State) a2 a3 a4 : Orderly s (fabRead s a2 a3 a4).2 := by
  grind only [Orderly, fabRead, refuse_orderly, lineRead_orderly, dramAct_orderly, incr_orderly, actMem_orderly,
      sramRead_orderly]

theorem bankStore_orderly (s : State) a2 a3 a4 : Orderly s (bankStore s a2 a3 a4) := by
  grind only [Orderly, bankStore, cfgDrop_orderly, bankWrite_orderly]

theorem fabWrite_orderly (s : State) a2 a3 a4 a5 : Orderly s (fabWrite s a2 a3 a4 a5).2 := by
  grind only [Orderly, fabWrite, refuse_orderly, lineWrite_orderly, dramAct_orderly, hostWrite_orderly, cfgDrop_orderly,
      bankWrite_orderly, incr_orderly, actMem_orderly, sramWrite_orderly, bankStore_orderly]

theorem fabReads_orderly (s : State) a2 a3 a4 : Orderly s (fabReads s a2 a3 a4).2 := by
  unfold fabReads
  refine foldl2_orderly _ (fun b p => ?_) _ _
  exact fabRead_orderly b.2 a2 p.2.1 p.2.2

theorem fabWrites_orderly (s : State) a2 a3 a4 a5 : Orderly s (fabWrites s a2 a3 a4 a5).2 := by
  unfold fabWrites
  refine foldl2_orderly _ (fun b p => ?_) _ _
  exact fabWrite_orderly b.2 a2 p.2.1 _ _

theorem fabStore_orderly (s : State) a2 a3 a4 a5 : Orderly s (fabStore s a2 a3 a4 a5) := by
  exact fabWrites_orderly ..

/-! ### Mailbox -/

theorem takeEntry_orderly (s : State) a2 a3 a4 : Orderly s (takeEntry s a2 a3 a4) := by
  grind only [Orderly, takeEntry, inv_view, traceRec_orderly, respond_orderly]

theorem takeNew_orderly (s : State) a2 a3 : Orderly s (takeNew s a2 a3) := by
  induction a3 generalizing s a2 <;> grind only [Orderly, takeNew, takeEntry_orderly, ramPutNat_orderly, fwPut_orderly]

theorem pollPair_orderly (s : State) a2 : Orderly s (pollPair s a2) := by
  unfold pollPair
  have h := flushPair_orderly s a2 s.fw.wait.length
  generalize flushPair s a2 s.fw.wait.length = u at h
  dsimp only
  refine ite_orderly h (ite_orderly (orderly_trans h (refuse_orderly ..)) (ite_orderly (orderly_trans h (refuse_orderly ..))
    (ite_orderly (ite_orderly h ?_) ?_)))
  · exact orderly_trans (orderly_trans h (fw_orderly _ _)) (respond_orderly ..)
  · exact orderly_trans (orderly_trans h (fw_orderly _ _)) (takeNew_orderly ..)

theorem pollLinks_orderly (s : State) a2 : Orderly s (pollLinks s a2) := by
  induction a2 generalizing s with
  | zero => exact orderly_refl s
  | succ n ih => unfold pollLinks; split <;> grind only [Orderly, inv_view, takeEntry_orderly]

theorem takeReq_orderly (s : State) a2 a3 : Orderly s (takeReq s a2 a3).2 := by
  grind only [Orderly, takeReq, inv_view]

theorem onReq_orderly (s : State) a2 a3 (a4 : State → Rq → List Byte → State) (h : ∀ s q e, Orderly s (a4 s q e)) : Orderly s (onReq s a2 a3 a4) := by
  unfold onReq
  have := takeReq_orderly s a2 a3
  split <;> grind only [Orderly, takeReq_orderly]

theorem negotiate_orderly (s : State) a2 a3 : Orderly s (negotiate s a2 a3) := by
  grind only [Orderly, negotiate, inv_view, respond_orderly, logMsg_orderly]

/-! ### Transfer -/

theorem staleHit_orderly (s : State) a2 : Orderly s (staleHit s a2) := by
  grind only [Orderly, staleHit, incr_orderly, wrB_orderly]

theorem commitSlots_orderly (s : State) a2 a3 a4 : Orderly s (commitSlots s a2 a3 a4) := by
  unfold commitSlots
  (repeat' split) <;> grind only [Orderly, commitSlots, foldS_orderly, staleHit_orderly, slotTag_orderly, tagSee_orderly]

theorem releaseSlots_orderly (s : State) a2 a3 : Orderly s (releaseSlots s a2 a3) := by
  unfold releaseSlots
  (repeat' split) <;> grind only [Orderly, releaseSlots, foldS_orderly, staleHit_orderly, slotTag_orderly, tagSee_orderly]

theorem arrive_orderly (s : State) a2 a3 a4 : Orderly s (arrive s a2 a3 a4).2 := by
  grind only [Orderly, arrive, inv_view, InvView, mem_wf_iff, mput_wf, mputs_wf, mclear_wf, staleHit_orderly,
      slotPut_orderly, actMem_orderly, sramWrite_orderly, incr_orderly, wrB_orderly, tagSee_orderly]

theorem heldLand_orderly (s : State) a2 : Orderly s (heldLand s a2) := by
  grind only [Orderly, heldLand, actMem_orderly, ackTo_orderly, sramWrite_orderly]

theorem holdLand_orderly (s : State) a2 : Orderly s (holdLand s a2) := by
  unfold holdLand
  dsimp only
  split
  · exact tagSee_orderly s _
  · exact orderly_trans (tagSee_orderly s _)
      (orderly_trans (orderly_trans (holds_orderly _ _) (slotPut_orderly _ _ _)) (foldS_orderly _ heldLand_orderly _ _))

theorem slotSeg_orderly (s : State) a2 a3 a4 a5 a6 a7 a8 : Orderly s (slotSeg s a2 a3 a4 a5 a6 a7 a8) := by
  grind only [Orderly, slotSeg, segSend_orderly]

theorem releaseSrc_orderly (s : State) a2 a3 : Orderly s (releaseSrc s a2 a3) := by
  grind only [Orderly, releaseSrc, inv_view, foldS_orderly, releaseSlots_orderly, slotSeg_orderly]

theorem commitDst_orderly (s : State) a2 a3 a4 : Orderly s (commitDst s a2 a3 a4) := by
  grind only [Orderly, commitDst, inv_view, foldS_orderly, commitSlots_orderly, slotSeg_orderly]

theorem parReport_orderly (s : State) a2 a3 : Orderly s (parReport s a2 a3) := by
  grind only [Orderly, parReport, foldS_orderly, sramEvent_orderly, cluIncr_orderly]

theorem writeLocal_orderly (s : State) a2 a3 a4 a5 a6 a7 a8 a9 : Orderly s (writeLocal s a2 a3 a4 a5 a6 a7 a8 a9).2 := by
  grind only [Orderly, writeLocal, refuse_orderly, arrive_orderly, parReport_orderly, fabWrite_orderly]

theorem writeRemote_orderly (s : State) a2 a3 a4 a5 a6 : Orderly s (writeRemote s a2 a3 a4 a5 a6).2.2 := by
  unfold writeRemote
  (repeat' split) <;> grind only [Orderly, writeRemote, consume_orderly, refuse_orderly, segSend_orderly,
      logRefusal_orderly, act_orderly, newRop_orderly]

theorem readRemote_orderly (s : State) a2 a3 a4 : Orderly s (readRemote s a2 a3 a4).2.2 := by
  grind only [Orderly, readRemote, refuse_orderly, segSend_orderly, logRefusal_orderly, newRop_orderly]

theorem updXfer_orderly (s : State) a2 a3 a4 : Orderly s (updXfer s a2 a3 a4) := by
  grind only [Orderly, updXfer, updClu_orderly]

theorem updOp_orderly (s : State) a2 a3 a4 a5 : Orderly s (updOp s a2 a3 a4 a5) := by
  grind only [Orderly, updOp, updClu_orderly]

theorem srcReady_orderly (s : State) a2 : Orderly s (srcReady s a2).2 := by
  grind only [Orderly, srcReady, foldS_orderly, tagSee_orderly, freeN_orderly]

theorem readsDone_orderly (s : State) a2 a3 : Orderly s (readsDone s a2 a3) := by
  grind only [Orderly, readsDone, releaseSrc_orderly, updXfer_orderly, srcReady_orderly]

theorem xfersDone_orderly (s : State) a2 : Orderly s (xfersDone s a2) := by
  grind only [Orderly, xfersDone, updClu_orderly]

theorem opData_orderly (s : State) a2 a3 a4 a5 a6 : Orderly s (opData s a2 a3 a4 a5 a6) := by
  grind only [Orderly, opData, updOp_orderly, xfersDone_orderly, readsDone_orderly, updXfer_orderly]

theorem opAck_orderly (s : State) a2 a3 a4 : Orderly s (opAck s a2 a3 a4) := by
  grind only [Orderly, opAck, xfersDone_orderly, ackTo_orderly]

theorem opRefused_orderly (s : State) a2 a3 a4 a5 : Orderly s (opRefused s a2 a3 a4 a5) := by
  grind only [Orderly, opRefused, inv_view, xfersDone_orderly, readsDone_orderly, updXfer_orderly]

theorem opIssue_orderly (s : State) a2 a3 : Orderly s (opIssue s a2 a3) := by
  unfold opIssue
  (repeat' split) <;> grind only [Orderly, opIssue, updXfer_orderly, updClu_orderly, opData_orderly, readRemote_orderly,
      xfersDone_orderly, readsDone_orderly, srcReady_orderly, opRefused_orderly, refuse_orderly]

theorem opRead_orderly (s : State) a2 a3 a4 : Orderly s (opRead s a2 a3 a4) := by
  grind only [Orderly, opRead, sramRead_orderly, actMem_orderly, opData_orderly, fabReads_orderly]

theorem opDenied_orderly (s : State) a2 a3 a4 a5 a6 : Orderly s (opDenied s a2 a3 a4 a5 a6) := by
  grind only [Orderly, opDenied, opAck_orderly, updXfer_orderly]

theorem opWrite_orderly (s : State) a2 a3 a4 a5 : Orderly s (opWrite s a2 a3 a4 a5) := by
  unfold opWrite
  (repeat' split) <;> grind only [Orderly, opWrite, writeLocal_orderly, updOp_orderly, opAck_orderly,
      writeRemote_orderly, opDenied_orderly]

theorem xferCommit_orderly (s : State) a2 a3 : Orderly s (xferCommit s a2 a3) := by
  grind only [Orderly, xferCommit, updClu_orderly, commitDst_orderly]

/-! ### Operands -/

theorem vxDo_orderly op (a : At) x (s : State) (f : State → Out) (h : ∀ u t, f u = .next t → Orderly u t) t : vxDo op a x s f = .next t → Orderly s t := by
  unfold vxDo
  dsimp only
  have h1 := adv_orderly s (a.core / 4) a.dt
  generalize adv s (a.core / 4) a.dt = u at h1
  split
  · simp
  · split
    · rintro ⟨⟩
      exact h1
    · exact fun e => orderly_trans (orderly_trans h1 (orderly_trans (acted_orderly _ _ _) (act_orderly _ _ _ _))) (h _ _ e)

theorem vxLanes_orderly (s : State) a2 a3 a4 a5 a6 : Orderly s (vxLanes s a2 a3 a4 a5 a6) := by
  grind only [Orderly, vxLanes, applyFl_orderly, pend_orderly]

theorem loadLanes_orderly (s : State) a2 a3 a4 a5 a6 a7 a8 a9 : Orderly s (loadLanes s a2 a3 a4 a5 a6 a7 a8 a9) := by
  grind only [Orderly, loadLanes, barReadRuns_orderly, pend_orderly]

theorem convLanes_orderly (s : State) a2 a3 a4 a5 : Orderly s (convLanes s a2 a3 a4 a5).2 := by
  grind only [Orderly, convLanes, applyFl_orderly]

/-! ### Movement -/

theorem enterXfer_orderly (s : State) a2 a3 : Orderly s (enterXfer s a2 a3) := by
  grind only [Orderly, enterXfer, incr_orderly, setClu_orderly, xfersDone_orderly, readsDone_orderly]

theorem passed_orderly (s : State) a2 a3 a4 : Orderly s (passed s a2 a3 a4) := by
  grind only [Orderly, passed, through_orderly, acted_orderly]

theorem kslotPass_orderly (s : State) a2 a3 : Orderly s (kslotPass s a2 a3).2 := by
  grind only [Orderly, kslotPass, passed_orderly]

theorem enterAll_orderly (s : State) a2 a3 t : (enterAll s a2 a3) = .next t → Orderly s t := by
  grind only [Orderly, enterAll, foldS_orderly, blockBeat_orderly, enterXfer_orderly, kslotPass_orderly]

theorem firstTouch_orderly (s : State) a2 : Orderly s (firstTouch s a2).2 := by
  grind only [Orderly, firstTouch, inv_view, fabReads_orderly, incr_orderly]

theorem dmaCode_orderly (s : State) a2 a3 : Orderly s (dmaCode s a2 a3) := by
  grind only [Orderly, dmaCode, updDma_orderly]

theorem dmaData_orderly (s : State) a2 a3 a4 a5 : Orderly s (dmaData s a2 a3 a4 a5) := by
  grind only [Orderly, dmaData, updDma_orderly, releaseSrc_orderly]

theorem dmaRefused_orderly (s : State) a2 a3 : Orderly s (dmaRefused s a2 a3) := by
  grind only [Orderly, dmaRefused, inv_view, ackTo_orderly, dmaCode_orderly, updDma_orderly, refuse_orderly]

theorem dmaOpRead_orderly (s : State) a2 a3 : Orderly s (dmaOpRead s a2 a3) := by
  grind only [Orderly, dmaOpRead, firstTouch_orderly, updDma_orderly, dmaCode_orderly, fabReads_orderly,
      dmaData_orderly, readRemote_orderly, dmaRefused_orderly]

theorem dmaDenied_orderly (s : State) a2 a3 a4 a5 : Orderly s (dmaDenied s a2 a3 a4 a5) := by
  grind only [Orderly, dmaDenied, inv_view, ackTo_orderly, updDma_orderly]

theorem dmaOpWrite_orderly (s : State) a2 a3 : Orderly s (dmaOpWrite s a2 a3) := by
  grind only [Orderly, dmaOpWrite, updDma_orderly, writeLocal_orderly, ackTo_orderly, dmaCode_orderly,
      writeRemote_orderly, dmaDenied_orderly]

theorem dmaRun_orderly (s : State) a2 : Orderly s (dmaRun s a2) := by
  grind only [Orderly, dmaRun, foldS_orderly, dmaOpRead_orderly, dmaOpWrite_orderly, srcReady_orderly]

/-! ### MemFx -/

theorem setTrain_orderly (s : State) a2 : Orderly s (setTrain s a2) := by
  grind only [Orderly, setTrain, wrF_orderly]

theorem memOn_orderly (s : State) : Orderly s (memOn s) := by
  grind only [Orderly, memOn, wrF_orderly, setTrain_orderly]

theorem fullTrain_orderly (s : State) : Orderly s (fullTrain s) := by
  grind only [Orderly, fullTrain, setTrain_orderly, wrB_orderly]

theorem memOff_orderly (s : State) : Orderly s (memOff s) := by
  grind only [Orderly, memOff, wrB_orderly, trashTop_orderly, wrF_orderly, setTrain_orderly]

theorem memTry_orderly (s : State) : Orderly s (memTry s) := by
  grind only [Orderly, memTry, wrF_orderly, memOn_orderly, wrB_orderly]

theorem fullEnd_orderly (s : State) : Orderly s (fullEnd s) := by
  grind only [Orderly, fullEnd, setFwState_orderly]

theorem lineReadErr_orderly (s : State) a2 a3 : Orderly s (lineReadErr s a2 a3).2 := by
  grind only [Orderly, lineReadErr, lineGet_orderly, lineCe_orderly, linePut_orderly, freeN_orderly, lineUe_orderly]

theorem pscanStart_orderly (s : State) : Orderly s (pscanStart s) := by
  unfold pscanStart
  dsimp only
  split
  · exact orderly_refl s
  · split
    · exact orderly_trans (wr_orderly ..) (wr_orderly ..)
    · exact orderly_trans (wr_orderly ..) (wr_orderly ..)

theorem pscanWord_orderly (s : State) a2 : Orderly s (pscanWord s a2).2 := by
  grind only [Orderly, pscanWord, refuse_orderly, lineRead_orderly, wordRead_orderly]

theorem pscanGo_orderly (s : State) a2 a3 a4 a5 : Orderly s (pscanGo s a2 a3 a4 a5).2 := by
  induction a5 generalizing s a2 a3 a4 <;> grind only [Orderly, pscanGo, pscanWord_orderly]

theorem pscanEnd_orderly (s : State) : Orderly s (pscanEnd s) := by
  grind only [Orderly, pscanEnd, pscanGo_orderly, wr_orderly, wr64_orderly]

theorem rgnLock_orderly (s : State) a2 : Orderly s (rgnLock s a2) := by
  grind only [Orderly, rgnLock, wrB_orderly, cfgDrop_orderly]

theorem scrubStep_orderly a2 (s : State) a3 : Orderly s (scrubStep a2 s a3) := by
  grind only [Orderly, scrubStep, inv_view, updClu_orderly, scrubRead_orderly]

theorem dmaEnd_orderly (s : State) a2 : Orderly s (dmaEnd s a2) := by
  grind only [Orderly, dmaEnd, traceRec_orderly, updDma_orderly, incr_orderly, wrF_orderly]

theorem dmaParse_orderly (s : State) a2 a3 : Orderly s (dmaParse s a2 a3) := by
  grind only [Orderly, dmaParse, inv_view, updDma_orderly, dmaRun_orderly]

theorem sideScrub_orderly (s : State) a2 : Orderly s (sideScrub s a2) := by
  grind only [Orderly, sideScrub, inv_view, InvView, mem_wf_iff, mput_wf, mputs_wf, mclear_wf, scrubRead_orderly]

theorem upset_orderly a2 (s : State) a3 : Orderly s (upset a2 s a3) := by
  grind only [Orderly, upset, inv_view, InvView, mem_wf_iff, mput_wf, mputs_wf, mclear_wf, eccPut_orderly, sideScrub_orderly]

theorem winShut_orderly (s : State) a2 : Orderly s (winShut s a2) := by
  unfold winShut
  split
  · exact orderly_trans (wrB_orderly ..) (lk_orderly _ _ rfl)
  · exact orderly_refl s

theorem dmaTake_orderly (s : State) a2 : Orderly s (dmaTake s a2) := by
  grind only [Orderly, dmaTake, fabReads_orderly, dmaParse_orderly, readRemote_orderly, updDma_orderly]

theorem dmaCome_orderly (s : State) a2 : Orderly s (dmaCome s a2) := by
  grind only [Orderly, dmaCome, dmaParse_orderly, updDma_orderly]

theorem patrolStep_orderly (s : State) a2 : Orderly s (patrolStep s a2) := by
  grind only [Orderly, patrolStep, inv_view, InvView, mem_wf_iff, mput_wf, mputs_wf, mclear_wf, incr_orderly, wrF_orderly]

theorem mvActed_orderly (s : State) a2 : Orderly s (mvActed s a2) := by
  grind only [Orderly, mvActed, acted_orderly]

theorem dmaFlags_orderly (s : State) a2 a3 : Orderly s (dmaFlags s a2 a3).2 := by
  grind only [Orderly, dmaFlags, inv_view, fabStore_orderly, writeRemote_orderly, updDma_orderly]

theorem quiesceBeat_orderly (s : State) a2 : Orderly s (quiesceBeat s a2) := by
  grind only [Orderly, quiesceBeat, inv_view, blockedBeat_orderly, updClu_orderly, coresBeat_orderly]

end Sys2Proof.Machine
end

