-- ==== Sys2Proof/Laws/OrderlyFirmware.lean ====
section
/-! SUPPORT. That objects, programs, jobs, links and the service island leave the queue alone, draw fresh free values and keep the invariant. -/

namespace Sys2Proof.Machine
set_option Elab.async false
open Sys2Proof

/-! ### Root -/

theorem updRoot_orderly (s : State) a2 : Orderly s (updRoot s a2) := by
  grind only [Orderly, updRoot, inv_view]

theorem flashPut_orderly (s : State) a2 a3 a4 : Orderly s (flashPut s a2 a3 a4) := by
  grind only [Orderly, flashPut, updRoot_orderly]

theorem loadCopy_orderly (s : State) a2 a3 a4 : Orderly s (loadCopy s a2 a3 a4) := by
  grind only [Orderly, loadCopy, foldS_orderly, updRoot_orderly, ramPut_orderly, sramWrite_orderly]

theorem segOpen_orderly (s : State) a2 : Orderly s (segOpen s a2) := by
  grind only [Orderly, segOpen, updRoot_orderly, flashPut_orderly]

theorem segSeal_orderly (s : State) : Orderly s (segSeal s) := by
  grind only [Orderly, segSeal, flashPut_orderly, updRoot_orderly]

theorem journalPut_orderly (s : State) a2 : Orderly s (journalPut s a2) := by
  grind only [Orderly, journalPut, segOpen_orderly, flashPut_orderly, updRoot_orderly, logMsg_orderly]

/-! ### Objects -/

theorem updObj_orderly (s : State) a2 a3 : Orderly s (updObj s a2 a3) := by
  grind only [Orderly, updObj, inv_view]

theorem objOpen_orderly (s : State) a2 a3 a4 : Orderly s (objOpen s a2 a3 a4) := by
  grind only [Orderly, objOpen, inv_view, respond_orderly]

theorem objWrite_orderly (s : State) a2 a3 : Orderly s (objWrite s a2 a3) := by
  grind only [Orderly, objWrite, respond_orderly, fabReads_orderly, fabWrites_orderly, updObj_orderly, wr_orderly]

theorem objPin_orderly (s : State) a2 a3 : Orderly s (objPin s a2 a3).2 := by
  grind only [Orderly, objPin, wr_orderly, wrB_orderly, updObj_orderly, wrF_orderly]

theorem fwClose_orderly (s : State) a2 a3 a4 : Orderly s (fwClose s a2 a3 a4) := by
  grind only [Orderly, fwClose, respond_orderly, objPin_orderly, updObj_orderly]

theorem objClose_orderly (s : State) a2 a3 : Orderly s (objClose s a2 a3) := by
  grind only [Orderly, objClose, respond_orderly, fabReads_orderly, fwClose_orderly, objPin_orderly, updObj_orderly]

theorem objFree_orderly (s : State) a2 a3 : Orderly s (objFree s a2 a3) := by
  grind only [Orderly, objFree, inv_view, respond_orderly, wr_orderly, wrF_orderly]

theorem flashRead_orderly (s : State) a2 a3 : Orderly s (flashRead s a2 a3) := by
  grind only [Orderly, flashRead, respond_orderly, fabWrites_orderly]

theorem rollback_orderly (s : State) a2 a3 : Orderly s (rollback s a2 a3) := by
  grind only [Orderly, rollback, respond_orderly, updRoot_orderly]

theorem keyRevoke_orderly (s : State) a2 a3 : Orderly s (keyRevoke s a2 a3) := by
  grind only [Orderly, keyRevoke, respond_orderly, updRoot_orderly]

theorem attest_orderly (s : State) a2 a3 : Orderly s (attest s a2 a3) := by
  grind only [Orderly, attest, respond_orderly, fabWrites_orderly]

theorem debugGrant_orderly (s : State) a2 a3 : Orderly s (debugGrant s a2 a3) := by
  grind only [Orderly, debugGrant, respond_orderly, wrB_orderly]

theorem debugSnapshot_orderly (s : State) a2 a3 : Orderly s (debugSnapshot s a2 a3) := by
  grind only [Orderly, debugSnapshot, respond_orderly, fabReads_orderly, fabWrites_orderly]

/-! ### Programs -/

theorem objGot_orderly (s : State) a2 a3 a4 : Orderly s (objGot s a2 a3 a4).2 := by
  unfold objGot
  have h : ∀ (l : List Nat) (b : Bool × State), Orderly b.2 (l.foldl (fun (a : Bool × State) i =>
      let (k, s) := firstTouch a.2 (a2.base + 65536 * (a3 / 65536 + i))
      (a.1 && k, s)) b).2 := foldl2_orderly _ fun b i => firstTouch_orderly b.2 _
  have h := h (upto (if a4 = 0 then 0 else (a3 + a4 - 1) / 65536 + 1 - a3 / 65536)) (true, s)
  revert h
  generalize List.foldl _ _ _ = r
  obtain ⟨ok, u⟩ := r
  intro h
  dsimp only at h ⊢
  split
  · exact h
  · exact orderly_trans h (fabReads_orderly u whoFwDma (a2.base + a3) a4)

theorem objBytes_orderly (s : State) a2 a3 a4 : Orderly s (objBytes s a2 a3 a4).2 := by
  grind only [Orderly, objBytes, objGot_orderly]

theorem sectBytes_orderly (s : State) a2 a3 a4 a5 : Orderly s (sectBytes s a2 a3 a4 a5).2 := by
  grind only [Orderly, sectBytes, objBytes_orderly]

theorem bankClean_orderly (s : State) a2 a3 : Orderly s (bankClean s a2 a3) := by
  grind only [Orderly, bankClean, bankStore_orderly]

theorem sectGot_orderly (s : State) a2 a3 a4 a5 : Orderly s (sectGot s a2 a3 a4 a5).2 := by
  grind only [Orderly, sectGot, objGot_orderly]

theorem loadBank_orderly (s : State) a2 a3 a4 a5 a6 a7 : Orderly s (loadBank s a2 a3 a4 a5 a6 a7) := by
  grind only [Orderly, loadBank, sectBytes_orderly, bankWrite_orderly, sectGot_orderly, bankStore_orderly, bankClean_orderly]

theorem loadTables_orderly (s : State) a2 a3 : Orderly s (loadTables s a2 a3) := by
  grind only [Orderly, loadTables, foldS_orderly, wr_orderly]

theorem setEpochs_orderly (s : State) a2 a3 : Orderly s (setEpochs s a2 a3) := by
  grind only [Orderly, setEpochs, foldS_orderly, wr_orderly]

theorem tagsSet_orderly (s : State) a2 a3 : Orderly s (tagsSet s a2 a3) := by
  grind only [Orderly, tagsSet, inv_view, InvView, mem_wf_iff, mput_wf, mputs_wf, mclear_wf, foldS_orderly, slotPut_orderly]

theorem setArgs_orderly (s : State) a2 a3 : Orderly s (setArgs s a2 a3) := by
  grind only [Orderly, setArgs, foldS_orderly, wr_orderly]

theorem unitsOn_orderly (s : State) a2 : Orderly s (unitsOn s a2) := by
  grind only [Orderly, unitsOn, foldS_orderly, wrB_orderly]

theorem startEmpty_orderly (s : State) a2 : Orderly s (startEmpty s a2).2 := by
  grind only [Orderly, startEmpty, foldS_orderly, wr_orderly, setArgs_orderly, engineTry_orderly, tagsSet_orderly,
      unitsOn_orderly]

theorem loadVariant_orderly (s : State) a2 a3 a4 a5 a6 a7 a8 a9 a10 : Orderly s (loadVariant s a2 a3 a4 a5 a6 a7 a8 a9 a10).2 := by
  unfold loadVariant
  dsimp only
  split
  · exact orderly_refl s
  · have h1 := sectBytes_orderly s a2 a3 20 a5
    generalize sectBytes s a2 a3 20 a5 = r at h1
    obtain ⟨sh, s1⟩ := r
    dsimp only at h1 ⊢
    have h2 : ∀ (l : List Nat) (b : List (Nat × List Byte) × State), Orderly b.2 (l.foldl (fun a k =>
        let (bs, s) := sectBytes a.2 a2 a3 0x11 (8 * a5 + k)
        (a.1 ++ [(k, bs)], s)) b).2 := foldl2_orderly _ fun b k => sectBytes_orderly b.2 a2 a3 _ _
    have h2 := h2 (bitList 8 (leAt a4 (64 * a5 + 4) 4 % 256)) ([], s1)
    revert h2
    generalize List.foldl _ _ _ = r
    obtain ⟨descs, s2⟩ := r
    intro h2
    have h2 := orderly_trans h1 h2
    dsimp only at h2 ⊢
    split
    · exact h2
    · have h3 := sectBytes_orderly s2 a2 a3 19 a5
      generalize sectBytes s2 a2 a3 19 a5 = r at h3
      obtain ⟨tp, s3⟩ := r
      have h3 := orderly_trans h2 h3
      dsimp only at h3 ⊢
      have h4 := orderly_trans (orderly_trans h3 (foldS_orderly _ (fun s k =>
        loadBank_orderly s a2 a3 a5 k (leAt a4 (64 * a5) 4) (leAt a4 (64 * a5 + 8) 4))
        (bitList 8 (leAt a4 (64 * a5 + 4) 4 % 256)) s3)) (foldS_orderly _ (fun s k => loadTables_orderly s sh k) (upto 8) _)
      have h5 := orderly_trans (orderly_trans h4 (wrF_orderly _ rEngCtl 15 8 (leAt a4 (64 * a5 + 4) 4 % 256)))
        (setEpochs_orderly _ (leAt a4 (64 * a5 + 4) 4 % 256) (nextEpoch (foldS (fun s k => loadTables s sh k) (upto 8)
          (foldS (fun s k => loadBank s a2 a3 a5 k (leAt a4 (64 * a5) 4) (leAt a4 (64 * a5 + 8) 4))
            (bitList 8 (leAt a4 (64 * a5 + 4) 4 % 256)) s3))))
      have d := scanDone_orderly (List.map (fun t => t.bar) (ptRecs tp (leAt a4 (64 * a5 + 16) 4)))
      have h6 := orderly_trans (orderly_trans (orderly_trans h5 (d _)) (scanStart_orderly _)) (d _)
      split
      · exact h6
      · exact h6

theorem loadBundle_orderly (s : State) a2 a3 a4 a5 a6 : Orderly s (loadBundle s a2 a3 a4 a5 a6).2 := by
  grind only [Orderly, loadBundle, objBytes_orderly, logMsg_orderly, sectBytes_orderly, loadVariant_orderly]

theorem progSet_orderly (s : State) a2 a3 : Orderly s (progSet s a2 a3) := by
  grind only [Orderly, progSet, inv_view, updObj_orderly, updRoot_orderly]

theorem progGo_orderly (s : State) a2 a3 : Orderly s (progGo s a2 a3).2 := by
  grind only [Orderly, progGo, progSet_orderly, startEmpty_orderly]

theorem skerryStart_orderly (s : State) a2 a3 a4 : Orderly s (skerryStart s a2 a3 a4) := by
  grind only [Orderly, skerryStart, inv_view, mboxSend_orderly]

theorem programStart_orderly a1 (s : State) a3 a4 : Orderly s (programStart a1 s a3 a4) := by
  unfold programStart
  (repeat' split) <;> grind only [Orderly, programStart, inv_view, foldS_orderly, respond_orderly, loadBundle_orderly,
      progGo_orderly, skerryStart_orderly, progSet_orderly]

/-! ### LinkMgmt -/

theorem setLink_orderly (s : State) a2 a3 : Orderly s (setLink s a2 a3) := by
  grind only [Orderly, setLink, wrF_orderly]

theorem mgmtSeg_orderly (s : State) a2 a3 a4 : Orderly s (mgmtSeg s a2 a3 a4) := by
  unfold mgmtSeg
  (repeat' split) <;> grind only [Orderly, mgmtSeg, enqueue_orderly, segSend_orderly]

theorem mgmtSend_orderly (s : State) a2 a3 a4 : Orderly s (mgmtSend s a2 a3 a4) := by
  grind only [Orderly, mgmtSend, inv_view, mgmtSeg_orderly]

theorem mgmtTake_orderly (s : State) a2 : Orderly s (mgmtTake s a2).2 := by
  grind only [Orderly, mgmtTake, inv_view]

theorem mgmtAck_orderly (s : State) a2 a3 a4 : Orderly s (mgmtAck s a2 a3 a4) := by
  grind only [Orderly, mgmtAck, mgmtSeg_orderly]

theorem updPeers_orderly (s : State) a2 : Orderly s (updPeers s a2) := by
  grind only [Orderly, updPeers, inv_view]

theorem identIn_orderly (s : State) a2 : Orderly s (identIn s a2) := by
  grind only [Orderly, identIn, updPeers_orderly, mgmtAck_orderly]

theorem assignOut_orderly (s : State) a2 : Orderly s (assignOut s a2) := by
  grind only [Orderly, assignOut, inv_view, logMsg_orderly, updPeers_orderly, mgmtSend_orderly]

theorem assignIn_orderly (s : State) a2 : Orderly s (assignIn s a2) := by
  grind only [Orderly, assignIn, foldS_orderly, mgmtAck_orderly, wr_orderly, setLink_orderly]

theorem routesWrite_orderly (s : State) a2 : Orderly s (routesWrite s a2) := by
  grind only [Orderly, routesWrite, foldS_orderly, wr_orderly]

theorem routesOut_orderly (s : State) a2 a3 : Orderly s (routesOut s a2 a3) := by
  grind only [Orderly, routesOut, inv_view, routesWrite_orderly, mgmtSend_orderly]

theorem winGrant_orderly (s : State) a2 a3 a4 a5 : Orderly s (winGrant s a2 a3 a4 a5).2 := by
  unfold winGrant
  dsimp only
  split
  · exact orderly_refl s
  · split
    · exact wr_orderly ..
    · split
      · exact freeN_orderly s
      · refine ite_orderly (orderly_trans ?_ (wrB_orderly ..)) ?_
        · exact orderly_trans (orderly_trans (wr_orderly ..) (wr_orderly ..)) (wr_orderly ..)
        · exact orderly_trans (orderly_trans (wr_orderly ..) (wr_orderly ..)) (wr_orderly ..)

theorem winRevoke_orderly (s : State) a2 a3 a4 a5 : Orderly s (winRevoke s a2 a3 a4 a5).2 := by
  grind only [Orderly, winRevoke, wr_orderly]

theorem winEnable_orderly (s : State) a2 a3 a4 a5 a6 : Orderly s (winEnable s a2 a3 a4 a5 a6).2 := by
  grind only [Orderly, winEnable, freeN_orderly, wr_orderly, wrB_orderly, freeCode_orderly]

theorem winDisable_orderly (s : State) a2 a3 a4 : Orderly s (winDisable s a2 a3 a4).2 := by
  grind only [Orderly, winDisable, wrB_orderly, winShut_orderly]

theorem winSet_orderly (s : State) a2 a3 : Orderly s (winSet s a2 a3) := by
  simp [Orderly, inv_view, winSet]

theorem winLocal_orderly (s : State) a2 a3 : Orderly s (winLocal s a2 a3).2 := by
  unfold winLocal
  (repeat' split) <;> grind only [Orderly, winLocal, winGrant_orderly, winEnable_orderly, winDisable_orderly, winRevoke_orderly]

theorem winNote_orderly (s : State) a2 a3 : Orderly s (winNote s a2 a3) := by
  grind only [Orderly, winNote, inv_view]

theorem winGo_orderly (s : State) a2 a3 a4 : Orderly s (winGo s a2 a3 a4) := by
  induction a4 generalizing s a2 a3 <;> grind only [Orderly, winGo, winSet_orderly, mgmtSend_orderly, winLocal_orderly,
      winNote_orderly]

theorem winAck_orderly (s : State) a2 a3 : Orderly s (winAck s a2 a3) := by
  grind only [Orderly, winAck, winSet_orderly, winGo_orderly, winNote_orderly]

theorem winOpenIn_orderly (s : State) a2 : Orderly s (winOpenIn s a2) := by
  grind only [Orderly, winOpenIn, winGrant_orderly, winEnable_orderly, mgmtAck_orderly, wr_orderly]

theorem assignAck_orderly (s : State) a2 a3 : Orderly s (assignAck s a2 a3) := by
  grind only [Orderly, assignAck, updPeers_orderly, setLink_orderly]

theorem ackedBy_orderly (s : State) a2 a3 : Orderly s (ackedBy s a2 a3) := by
  grind only [Orderly, ackedBy, assignAck_orderly, winAck_orderly]

theorem chipDepart_orderly (s : State) a2 : Orderly s (chipDepart s a2) := by
  grind only [Orderly, chipDepart, inv_view, foldS_orderly, updPeers_orderly, routesOut_orderly, winSet_orderly,
      winGo_orderly, logRec_orderly]

theorem joinAs_orderly (s : State) a2 a3 : Orderly s (joinAs s a2 a3) := by
  grind only [Orderly, joinAs, inv_view, wrF_orderly, setLink_orderly]

theorem takeIn_orderly (s : State) a2 a3 : Orderly s (takeIn s a2 a3) := by
  grind only [Orderly, takeIn, setLink_orderly, updPeers_orderly]

theorem elect_orderly (s : State) a2 a3 : Orderly s (elect s a2 a3) := by
  unfold elect
  dsimp only
  refine ite_orderly (ite_orderly ?_ (joinAs_orderly ..)) ?_
  · refine orderly_trans (orderly_trans (wrF_orderly s rDdlChip 31 30 1) ?h) (takeIn_orderly ..)
    exact lk_orderly _ _ rfl
  · refine ite_orderly (joinAs_orderly ..) (ite_orderly (takeIn_orderly ..) (ite_orderly (setLink_orderly ..) ?_))
    exact orderly_trans (orderly_trans (orderly_trans (setLink_orderly ..) (wrB_orderly ..)) (wrF_orderly ..)) (logMsg_orderly ..)

/-! ### Links -/

theorem opDrop_orderly (s : State) a2 a3 a4 : Orderly s (opDrop s a2 a3 a4) := by
  grind only [Orderly, opDrop, updXfer_orderly, opAck_orderly, readsDone_orderly]

theorem dmaDrop_orderly (s : State) a2 a3 : Orderly s (dmaDrop s a2 a3) := by
  grind only [Orderly, dmaDrop, updDma_orderly, ackTo_orderly]

theorem ropEnd_orderly (s : State) a2 a3 a4 a5 a6 : Orderly s (ropEnd s a2 a3 a4 a5 a6) := by
  unfold ropEnd
  (repeat' split) <;> grind only [Orderly, ropEnd, inv_view, InvView, mem_wf_iff, mput_wf, mputs_wf, mclear_wf,
      logRefusal_orderly, incr_orderly, wrB_orderly, opDrop_orderly, updOp_orderly, opData_orderly, opAck_orderly,
      dmaCode_orderly, dmaDrop_orderly, updDma_orderly, dmaData_orderly, ackTo_orderly, opDenied_orderly,
      dmaDenied_orderly]

theorem segRefuse_orderly (s : State) a2 a3 : Orderly s (segRefuse s a2 a3) := by
  grind only [Orderly, segRefuse, ropEnd_orderly, segSend_orderly]

theorem segForward_orderly (s : State) a2 : Orderly s (segForward s a2) := by
  grind only [Orderly, segForward, segRefuse_orderly, incr_orderly, enqueue_orderly]

theorem linkDown_orderly (s : State) a2 a3 : Orderly s (linkDown s a2 a3) := by
  grind only [Orderly, linkDown, foldS_orderly, wrF_orderly, incr_orderly, wrB_orderly, setLink_orderly, updLnk_orderly,
      logMsg_orderly, segRefuse_orderly]

theorem linkReplay_orderly (s : State) a2 : Orderly s (linkReplay s a2) := by
  grind only [Orderly, linkReplay, incrBy_orderly, wrB_orderly, incr_orderly, updLnk_orderly, linkDown_orderly]

theorem keyLoad_orderly (s : State) a2 a3 : Orderly s (keyLoad s a2 a3) := by
  grind only [Orderly, keyLoad, updLnk_orderly, wr_orderly]

theorem ctrlOf_orderly (s : State) a2 : Orderly s (ctrlOf s a2).2 := by
  grind only [Orderly, ctrlOf, freeN_orderly]

theorem flitOut_orderly (s : State) a2 a3 : Orderly s (flitOut s a2 a3) := by
  grind only [Orderly, flitOut, updLnk_orderly]

theorem stampT1_orderly (s : State) a2 a3 : Orderly s (stampT1 s a2 a3) := by
  grind only [Orderly, stampT1, inv_view]

/-! ### Service -/

theorem hartsHold_orderly (s : State) : Orderly s (hartsHold s) := by
  grind only [Orderly, hartsHold, inv_view, wrF_orderly, updIo]

theorem payloadCopy_orderly (s : State) a2 a3 : Orderly s (payloadCopy s a2 a3).2 := by
  induction a3 generalizing s a2 <;> grind only [Orderly, payloadCopy, objBytes_orderly, fabWrites_orderly]

theorem hartsGo_orderly (s : State) a2 : Orderly s (hartsGo s a2) := by
  grind only [Orderly, hartsGo, inv_view, wrF_orderly, updIo]

theorem updOut_orderly (s : State) a2 a3 : Orderly s (updOut s a2 a3) := by
  grind [Orderly, updOut, inv_view, updIo]

theorem outSched_orderly (s : State) a2 a3 : Orderly s (outSched s a2 a3) := by
  grind only [Orderly, outSched, updOut_orderly, incrBy_orderly]

theorem outOn_orderly (s : State) a2 : Orderly s (outOn s a2) := by
  grind only [Orderly, outOn, updOut_orderly, wrB_orderly, outSched_orderly]

theorem outOff_orderly (s : State) a2 : Orderly s (outOff s a2) := by
  grind only [Orderly, outOff, updOut_orderly, wrB_orderly]

theorem outStep_orderly a1 (s : State) a3 : Orderly s (outStep a1 s a3) := by
  grind only [Orderly, outStep, updOut_orderly, incrBy_orderly, outSched_orderly]

theorem pulseEnd_orderly (s : State) a2 : Orderly s (pulseEnd s a2) := by
  grind only [Orderly, pulseEnd, updOut_orderly, wrB_orderly]

theorem pulseGo_orderly (s : State) a2 : Orderly s (pulseGo s a2) := by
  grind only [Orderly, pulseGo, incr_orderly, updOut_orderly]

theorem linkedEdge_orderly a1 a2 (s : State) a4 : Orderly s (linkedEdge a1 a2 s a4) := by
  grind only [Orderly, linkedEdge, incr_orderly, updOut_orderly]

theorem idleCycle_orderly (s : State) : Orderly s (idleCycle s) := by
  unfold idleCycle
  refine ite_orderly (orderly_refl s) ?_
  refine ⟨rfl, Nat.le_refl _, ?_⟩
  simp only [inv_view, InvView]
  rintro ⟨a, b, c, d, e, f, g, i, j, k, l, n, o, p, q⟩
  exact ⟨a, b, c, d, e, f, g, i, j, k, l, n, o, Nat.mod_lt _ (by decide), Nat.mod_lt _ (by decide)⟩

theorem timeStep_orderly (s : State) a2 : Orderly s (timeStep s a2) := by
  unfold timeStep
  refine orderly_trans ?_ (orderly_trans (orderly_trans (wrB_orderly ..) (incr_orderly ..))
    (foldS_orderly _ (fun s a => outStep_orderly _ s a) _ _))
  refine ⟨rfl, Nat.le_refl _, ?_⟩
  simp only [inv_view, InvView]
  rintro ⟨a, b, c, d, e, f, g, i, j, k, l, n, o, p, q⟩
  exact ⟨a, b, c, d, e, f, g, i, j, k, l, n, o, truncI_lt _ _, q⟩

theorem timStepWrite_orderly (s : State) a2 : Orderly s (timStepWrite s a2) := by
  grind only [Orderly, timStepWrite, cfgDrop_orderly, timeStep_orderly]

theorem servo_orderly (s : State) a2 : Orderly s (servo s a2) := by
  grind only [Orderly, servo, timeStep_orderly, wr_orderly]

theorem syncUse_orderly (s : State) a2 a3 : Orderly s (syncUse s a2 a3) := by
  grind only [Orderly, syncUse, inv_view, wr_orderly, wrB_orderly, incr_orderly, updIo, servo_orderly]

theorem syncTake_orderly (s : State) : Orderly s (syncTake s) := by
  grind only [Orderly, syncTake, inv_view, updIo, incr_orderly, syncUse_orderly]

theorem ethRead_orderly (s : State) a2 a3 : Orderly s (ethRead s a2 a3).2 := by
  grind only [Orderly, ethRead, fabReads_orderly, refuse_orderly]

theorem ethWrite_orderly (s : State) a2 a3 : Orderly s (ethWrite s a2 a3) := by
  grind only [Orderly, ethWrite, fabStore_orderly, refuse_orderly]

theorem txDone_orderly (s : State) a2 a3 a4 a5 a6 : Orderly s (txDone s a2 a3 a4 a5 a6) := by
  unfold txDone
  (repeat' split) <;> grind only [Orderly, txDone, ethWrite_orderly, wrF_orderly]

theorem txTake_orderly (s : State) a2 : Orderly s (txTake s a2) := by
  unfold txTake
  dsimp only
  generalize ethTxDesc s a2 = g
  have h1 := ethRead_orderly s g 32
  generalize ethRead s g 32 = r at h1 ⊢
  obtain ⟨d, s1⟩ := r
  dsimp only at h1 ⊢
  refine ite_orderly (orderly_trans h1 (txDone_orderly ..)) ?_
  have h2 := orderly_trans h1 (ethRead_orderly s1 (leAt d.data 0 8) (leAt d.data 8 2))
  generalize ethRead s1 (leAt d.data 0 8) (leAt d.data 8 2) = r at h2 ⊢
  obtain ⟨b, s2⟩ := r
  dsimp only at h2 ⊢
  refine ite_orderly (orderly_trans h2 (orderly_trans (incr_orderly ..) (txDone_orderly ..))) ?_
  split
  · exact orderly_trans h2 (txDone_orderly ..)
  · refine orderly_trans (orderly_trans (orderly_trans h2 ?_) (incr_orderly ..)) (txDone_orderly ..)
    simp [Orderly, inv_view, updIo]

theorem rxTake_orderly (s : State) a2 a3 a4 : Orderly s (rxTake s a2 a3 a4) := by
  unfold rxTake
  dsimp only
  generalize ethRxDesc s a2 = g
  have h1 := ethRead_orderly s g 32
  generalize ethRead s g 32 = r at h1 ⊢
  obtain ⟨d, s1⟩ := r
  dsimp only at h1 ⊢
  exact orderly_trans h1 (orderly_trans (ethWrite_orderly ..) (orderly_trans (ethWrite_orderly ..)
    (orderly_trans (ethWrite_orderly ..) (orderly_trans (ethWrite_orderly ..) (orderly_trans (wrF_orderly ..) (incr_orderly ..))))))

theorem updSer_orderly (s : State) a2 a3 : Orderly s (updSer s a2 a3) := by
  grind [Orderly, updSer, inv_view, updIo]

theorem serFail_orderly (s : State) a2 a3 : Orderly s (serFail s a2 a3) := by
  grind only [Orderly, serFail, wrB_orderly, updSer_orderly]

theorem serTake_orderly (s : State) a2 a3 : Orderly s (serTake s a2 a3).2 := by
  grind only [Orderly, serTake, updSer_orderly]

theorem serErr_orderly (s : State) a2 a3 : Orderly s (serErr s a2 a3) := by
  unfold serErr
  (repeat' split) <;> grind only [Orderly, serErr, serFail_orderly]

/-! ### Energy -/

theorem energyRead_orderly (s : State) : Orderly s (energyRead s) := by
  grind only [Orderly, energyRead, inv_view, foldS_orderly]

theorem energyShare_orderly (s : State) : Orderly s (energyShare s) := by
  grind only [Orderly, energyShare, inv_view, foldl_orderly, foldl2_orderly]

/-! ### Jobs -/

theorem updJob_orderly (s : State) a2 a3 : Orderly s (updJob s a2 a3) := by
  grind only [Orderly, updJob, inv_view]

theorem jobLog_orderly (s : State) a2 a3 a4 : Orderly s (jobLog s a2 a3 a4) := by
  grind only [Orderly, jobLog, logRec_orderly]

theorem jobState_orderly (s : State) a2 a3 a4 : Orderly s (jobState s a2 a3 a4) := by
  grind only [Orderly, jobState, jobLog_orderly, updJob_orderly]

theorem unbind_orderly (s : State) a2 : Orderly s (unbind s a2) := by
  grind only [Orderly, unbind, foldS_orderly, wr_orderly, energyRead_orderly]

theorem jobEnd_orderly (s : State) a2 a3 a4 : Orderly s (jobEnd s a2 a3 a4) := by
  grind only [Orderly, jobEnd, inv_view, updJob_orderly, jobState_orderly, unbind_orderly, postEvent_orderly]

theorem jobAdmit_orderly (s : State) a2 : Orderly s (jobAdmit s a2) := by
  grind only [Orderly, jobAdmit, inv_view, jobLog_orderly]

theorem shadowAdmit_orderly (s : State) a2 : Orderly s (shadowAdmit s a2) := by
  grind only [Orderly, shadowAdmit, inv_view, jobAdmit_orderly]

theorem toSkerries_orderly (s : State) a2 : Orderly s (toSkerries s a2) := by
  grind only [Orderly, toSkerries, inv_view, foldS_orderly, mboxSend_orderly]

theorem askPark_orderly (s : State) : Orderly s (askPark s) := by
  grind only [Orderly, askPark, wrB_orderly]

theorem scrubStart_orderly (s : State) a2 a3 : Orderly s (scrubStart s a2 a3) := by
  grind only [Orderly, scrubStart, inv_view, foldS_orderly, slotTag_orderly, wrB_orderly, incr_orderly]

theorem ctrRead_orderly (s : State) : Orderly s (ctrRead s) := by
  grind only [Orderly, ctrRead, inv_view]

theorem jobCharge_orderly (s : State) a2 a3 : Orderly s (jobCharge s a2 a3) := by
  grind only [Orderly, jobCharge, updJob_orderly]

theorem arithClear_orderly (s : State) a2 : Orderly s (arithClear s a2) := by
  grind only [Orderly, arithClear, foldS_orderly, wr_orderly]

theorem resultScan_orderly (s : State) a2 a3 : Orderly s (resultScan s a2 a3).2 := by
  grind only [Orderly, resultScan, wr64_orderly, pscanStart_orderly, wr_orderly, pscanEnd_orderly]

theorem passEvent_orderly (s : State) a2 a3 a4 a5 : Orderly s (passEvent s a2 a3 a4 a5) := by
  grind only [Orderly, passEvent, postEvent_orderly]

theorem jobFinish_orderly (s : State) a2 : Orderly s (jobFinish s a2) := by
  grind only [Orderly, jobFinish, jobEnd_orderly]

theorem srcPick_orderly (s : State) : Orderly s (srcPick s).2 := by
  grind only [Orderly, srcPick, freeN_orderly]

theorem publish_orderly (s : State) a2 a3 a4 : Orderly s (publish s a2 a3 a4) := by
  grind only [Orderly, publish, inv_view, freeW_orderly, fabReads_orderly, ramPut_orderly, hostWrite_orderly,
      attnSet_orderly, ramPutNat_orderly, passEvent_orderly, jobFinish_orderly, srcPick_orderly, fwPut_orderly,
      fabStore_orderly]

theorem tryPublish_orderly (s : State) a2 : Orderly s (tryPublish s a2) := by
  grind only [Orderly, tryPublish, inv_view, jobEnd_orderly, askPark_orderly, updJob_orderly, publish_orderly]

theorem passLeave_orderly (s : State) a2 : Orderly s (passLeave s a2) := by
  grind only [Orderly, passLeave, jobEnd_orderly, jobFinish_orderly, updJob_orderly]

theorem seedWrite_orderly (s : State) a2 a3 : Orderly s (seedWrite s a2 a3) := by
  grind only [Orderly, seedWrite, sramWrite_orderly]

theorem cgFill_orderly (s : State) a2 a3 a4 : Orderly s (cgFill s a2 a3 a4) := by
  grind only [Orderly, cgFill, foldS_orderly, wr_orderly, wrF_orderly]

theorem regionRestore_orderly (s : State) a2 : Orderly s (regionRestore s a2) := by
  grind only [Orderly, regionRestore, wrF_orderly]

theorem idleInstall_orderly a1 (s : State) a3 : Orderly s (idleInstall a1 s a3) := by
  grind only [Orderly, idleInstall, foldS_orderly, wr_orderly, setArgs_orderly, seedWrite_orderly]

theorem idleRun_orderly a1 (s : State) a3 : Orderly s (idleRun a1 s a3) := by
  grind only [Orderly, idleRun, jobState_orderly, updJob_orderly, passStart_orderly]

theorem parkOn_orderly (s : State) a2 : Orderly s (parkOn s a2) := by
  grind only [Orderly, parkOn, wrB_orderly, stopClear_orderly]

theorem switchTake_orderly a2 (s : State) a3 : Orderly s (switchTake a2 s a3) := by
  grind only [Orderly, switchTake, inv_view, jobState_orderly, updJob_orderly, passStart_orderly]

end Sys2Proof.Machine
end

