-- ==== Sys2Proof/Laws/OrderlyUnits.lean ====
section
/-! SUPPORT. That cameras, codecs, reliability, power, reset and boot leave the queue alone, draw fresh free values and keep the invariant. -/

namespace Sys2Proof.Machine
set_option Elab.async false
open Sys2Proof

/-! ### Camera -/

theorem updStr_orderly (s : State) a2 a3 : Orderly s (updStr s a2 a3) := by
  grind [Orderly, updStr, inv_view]

theorem csiPut_orderly (s : State) a2 a3 a4 : Orderly s (csiPut s a2 a3 a4) := by
  grind only [Orderly, csiPut, fabStore_orderly]

theorem frameFlag_orderly (s : State) a2 a3 : Orderly s (frameFlag s a2 a3) := by
  grind only [Orderly, frameFlag, inv_view, updStr_orderly, wrB_orderly]

theorem setPort_orderly (s : State) a2 a3 : Orderly s (setPort s a2 a3) := by
  grind [Orderly, setPort, inv_view]

theorem pktLost_orderly (s : State) a2 a3 : Orderly s (pktLost s a2 a3) := by
  grind only [Orderly, pktLost, foldS_orderly, frameFlag_orderly]

theorem portDrop_orderly (s : State) a2 a3 : Orderly s (portDrop s a2 a3) := by
  grind only [Orderly, portDrop, incr_orderly, wrB_orderly]

theorem pktIn_orderly (s : State) a2 a3 : Orderly s (pktIn s a2 a3) := by
  grind only [Orderly, pktIn, portDrop_orderly, pktLost_orderly, incr_orderly, wrB_orderly, setPort_orderly]

theorem portFlush_orderly (s : State) a2 : Orderly s (portFlush s a2) := by
  grind only [Orderly, portFlush, wrB_orderly]

theorem portOff_orderly (s : State) a2 : Orderly s (portOff s a2) := by
  grind only [Orderly, portOff, inv_view, wrB_orderly]

theorem rawPut_orderly (s : State) a2 a3 a4 a5 : Orderly s (rawPut s a2 a3 a4 a5) := by
  unfold rawPut
  (repeat' split) <;> grind only [Orderly, rawPut, csiPut_orderly]

theorem padLines_orderly (s : State) a2 a3 a4 a5 : Orderly s (padLines s a2 a3 a4 a5) := by
  grind only [Orderly, padLines, foldS_orderly, rawPut_orderly]

theorem lineDrop_orderly (s : State) a2 : Orderly s (lineDrop s a2) := by
  grind only [Orderly, lineDrop, incr_orderly, frameFlag_orderly]

theorem stageBytes_orderly (s : State) a2 a3 : Orderly s (stageBytes s a2 a3).2 := by
  grind only [Orderly, stageBytes, freeSkip_orderly]

theorem stageLine_orderly (s : State) a2 a3 a4 : Orderly s (stageLine s a2 a3 a4) := by
  grind only [Orderly, stageLine, inv_view, incr_orderly, frameFlag_orderly, updStr_orderly, lineDrop_orderly,
      stageBytes_orderly, csiPut_orderly]

theorem lineIn_orderly (s : State) a2 a3 : Orderly s (lineIn s a2 a3) := by
  grind only [Orderly, lineIn, inv_view, incr_orderly, wrB_orderly, updStr_orderly, frameFlag_orderly, act_orderly,
      rawPut_orderly, stageLine_orderly]

theorem lineStart_orderly (s : State) a2 a3 : Orderly s (lineStart s a2 a3) := by
  grind only [Orderly, lineStart, inv_view, updStr_orderly, frameFlag_orderly, padLines_orderly]

theorem wrBack_orderly (s : State) a2 : Orderly s (wrBack s a2) := by
  grind only [Orderly, wrBack, inv_view, wrF_orderly, updStr_orderly, wr_orderly]

theorem frameClose_orderly (s : State) a2 a3 : Orderly s (frameClose s a2 a3) := by
  unfold frameClose
  (repeat' split) <;> grind only [Orderly, frameClose, inv_view, frameFlag_orderly, padLines_orderly, rasPost_orderly,
      incr_orderly, logMsg_orderly, wrB_orderly, wrBack_orderly, updStr_orderly]

theorem loadArmed_orderly (s : State) a2 : Orderly s (loadArmed s a2) := by
  grind only [Orderly, loadArmed, inv_view, wrB_orderly, updStr_orderly]

theorem frameStart_orderly (s : State) a2 a3 a4 : Orderly s (frameStart s a2 a3 a4) := by
  grind only [Orderly, frameStart, inv_view, frameClose_orderly, frameFlag_orderly, updStr_orderly, incr_orderly, wrB_orderly,
      wrF_orderly, csiPut_orderly, loadArmed_orderly, wr_orderly]

theorem frameEnd_orderly (s : State) a2 a3 : Orderly s (frameEnd s a2 a3) := by
  grind only [Orderly, frameEnd, inv_view, frameClose_orderly, updStr_orderly, incr_orderly, wrB_orderly]

theorem routed_orderly (s : State) a2 a3 (a4 : State → CsiPkt → Nat → State) (h : ∀ s k t, Orderly s (a4 s k t)) t : routed s a2 a3 a4 = .next t → Orderly s t := by
  unfold routed
  split
  · rintro ⟨⟩
    exact orderly_refl s
  · split
    · rintro ⟨⟩
      exact orderly_trans (setPort_orderly ..) (h _ _ _)
    · rintro ⟨⟩
      exact orderly_refl s

theorem embIn_orderly (s : State) a2 a3 : Orderly s (embIn s a2 a3) := by
  grind only [Orderly, embIn, inv_view, csiPut_orderly, updStr_orderly]

theorem putStats_orderly (s : State) a2 a3 a4 a5 a6 : Orderly s (putStats s a2 a3 a4 a5 a6) := by
  grind only [Orderly, putStats, csiPut_orderly]

theorem putFrame_orderly (s : State) a2 a3 : Orderly s (putFrame s a2 a3) := by
  unfold putFrame
  (repeat' split) <;> grind only [Orderly, putFrame, putStats_orderly, fabStore_orderly]

theorem updFg_orderly (s : State) a2 a3 : Orderly s (updFg s a2 a3) := by
  grind [Orderly, updFg, inv_view]

theorem postSet_orderly (s : State) a2 a3 : Orderly s (postSet s a2 a3) := by
  grind only [Orderly, postSet, inv_view, updFg_orderly, cgSignal_orderly, traceRec_orderly, incr_orderly]

theorem closeSet_orderly (s : State) a2 a3 : Orderly s (closeSet s a2 a3) := by
  grind only [Orderly, closeSet, inv_view, updFg_orderly, incr_orderly, postSet_orderly]

theorem nextSet_orderly (s : State) a2 : Orderly s (nextSet s a2).2 := by
  grind only [Orderly, nextSet, inv_view, updFg_orderly]

theorem joinSet_orderly (s : State) a2 a3 : Orderly s (joinSet s a2 a3).2 := by
  grind only [Orderly, joinSet, inv_view, updFg_orderly, nextSet_orderly, closeSet_orderly]

theorem fuse_orderly (s : State) a2 a3 : Orderly s (fuse s a2 a3).2 := by
  grind only [Orderly, fuse, joinSet_orderly, closeSet_orderly, nextSet_orderly, postSet_orderly, incr_orderly]

theorem arriveFg_orderly (s : State) a2 a3 : Orderly s (arriveFg s a2 a3).2 := by
  grind only [Orderly, arriveFg, freeW_orderly, freeN_orderly, nextSet_orderly, postSet_orderly, fuse_orderly]

theorem relWrite_orderly (s : State) a2 a3 : Orderly s (relWrite s a2 a3) := by
  grind only [Orderly, relWrite, wrB_orderly, wrF_orderly]

theorem ispArm_orderly a1 (s : State) a2 : Orderly s (ispArm a1 s a2) := by
  grind only [Orderly, ispArm, inv_view, wrF_orderly, wrB_orderly]

theorem streamOn_orderly (s : State) a2 : Orderly s (streamOn s a2) := by
  grind only [Orderly, streamOn, inv_view, updStr_orderly, wrB_orderly]

/-! ### Codec -/

theorem updSes_orderly (s : State) a2 a3 : Orderly s (updSes s a2 a3) := by
  grind [Orderly, updSes, inv_view]

theorem sessionOn_orderly (s : State) a2 : Orderly s (sessionOn s a2) := by
  grind only [Orderly, sessionOn, updSes_orderly, wrB_orderly]

theorem sessionOff_orderly (s : State) a2 : Orderly s (sessionOff s a2) := by
  grind only [Orderly, sessionOff, inv_view, updSes_orderly, wrB_orderly]

theorem vidRead_orderly (s : State) a2 a3 a4 : Orderly s (vidRead s a2 a3 a4).2 := by
  grind only [Orderly, vidRead, fabReads_orderly, refuse_orderly]

theorem takeUnit_orderly (s : State) a2 : Orderly s (takeUnit s a2).2 := by
  unfold takeUnit
  (repeat' split) <;> grind only [Orderly, takeUnit, vidRead_orderly, wrF_orderly]

theorem postRep_orderly (s : State) a2 a3 a4 : Orderly s (postRep s a2 a3 a4) := by
  grind only [Orderly, postRep, inv_view, updSes_orderly, wr_orderly, incr_orderly, traceRec_orderly]

theorem addSets_orderly (s : State) a2 a3 : Orderly s (addSets s a2 a3) := by
  grind only [Orderly, addSets, inv_view, foldS_orderly, updSes_orderly]

theorem flushOuts_orderly (s : State) a2 a3 : Orderly s (flushOuts s a2 a3) := by
  grind only [Orderly, flushOuts, inv_view, updSes_orderly]

theorem freePut_orderly (s : State) a2 a3 a4 a5 : Orderly s (freePut s a2 a3 a4 a5) := by
  grind only [Orderly, freePut, freeSkip_orderly, fabStore_orderly]

theorem picPut_orderly (s : State) a2 a3 a4 a5 a6 a7 : Orderly s (picPut s a2 a3 a4 a5 a6 a7) := by
  grind only [Orderly, picPut, freePut_orderly]

theorem unitDone_orderly (s : State) a2 a3 a4 a5 a6 a7 a8 : Orderly s (unitDone s a2 a3 a4 a5 a6 a7 a8) := by
  unfold unitDone
  (repeat' split) <;> grind only [Orderly, unitDone, inv_view, act_orderly, incrBy_orderly, updSes_orderly, freeSkip_orderly,
      picPut_orderly, flushOuts_orderly]

theorem outsRun_orderly (s : State) a2 a3 : Orderly s (outsRun s a2 a3) := by
  induction a3 generalizing s <;> grind only [Orderly, outsRun, inv_view, postRep_orderly, updSes_orderly]

theorem repIn_orderly (s : State) a2 a3 a4 a5 : Orderly s (repIn s a2 a3 a4 a5) := by
  grind only [Orderly, repIn, inv_view, updSes_orderly, outsRun_orderly, postRep_orderly]

theorem unitRefused_orderly (s : State) a2 a3 a4 a5 a6 a7 : Orderly s (unitRefused s a2 a3 a4 a5 a6 a7) := by
  grind only [Orderly, unitRefused, postRep_orderly, updSes_orderly, flushOuts_orderly, repIn_orderly]

theorem unitSkip_orderly (s : State) a2 a3 a4 : Orderly s (unitSkip s a2 a3 a4).2 := by
  grind only [Orderly, unitSkip, freeN_orderly]

theorem unitRun_orderly (s : State) a2 a3 a4 a5 : Orderly s (unitRun s a2 a3 a4 a5) := by
  grind only [Orderly, unitRun, inv_view, vidRead_orderly, addSets_orderly, unitRefused_orderly, postRep_orderly, updSes_orderly,
      unitDone_orderly, flushOuts_orderly, repIn_orderly, unitSkip_orderly]

theorem budgetHit_orderly (s : State) a2 : Orderly s (budgetHit s a2) := by
  grind only [Orderly, budgetHit, inv_view, incr_orderly]

theorem updSq_orderly (s : State) a2 a3 : Orderly s (updSq s a2 a3) := by
  grind [Orderly, updSq, inv_view]

theorem queueOn_orderly (s : State) a2 : Orderly s (queueOn s a2) := by
  grind only [Orderly, queueOn, updSq_orderly, wrB_orderly]

theorem queueEnds_orderly (s : State) a2 : Orderly s (queueEnds s a2) := by
  grind only [Orderly, queueEnds, inv_view, updSq_orderly]

theorem queueFlush_orderly (s : State) a2 : Orderly s (queueFlush s a2) := by
  grind only [Orderly, queueFlush, inv_view, updSq_orderly, queueEnds_orderly]

theorem queueOff_orderly (s : State) a2 : Orderly s (queueOff s a2) := by
  grind only [Orderly, queueOff, queueFlush_orderly, wrB_orderly]

theorem freeAdv_orderly (s : State) a2 : Orderly s (freeAdv s a2) := by
  grind only [Orderly, freeAdv, inv_view, updSq_orderly]

theorem putSample_orderly (s : State) a2 a3 a4 a5 a6 : Orderly s (putSample s a2 a3 a4 a5 a6) := by
  grind only [Orderly, putSample, inv_view, freeSkip_orderly, fabStore_orderly, incr_orderly, updSq_orderly]

/-! ### Lowwater -/

theorem linkLanes_orderly (s : State) a2 : Orderly s (linkLanes s a2) := by
  grind only [Orderly, linkLanes, wrF_orderly]

theorem linkOn_orderly (s : State) a2 : Orderly s (linkOn s a2) := by
  grind only [Orderly, linkOn, wrB_orderly, setLink_orderly]

theorem linkTry_orderly (s : State) a2 : Orderly s (linkTry s a2) := by
  grind only [Orderly, linkTry, linkLanes_orderly, logMsg_orderly, wrF_orderly, linkOn_orderly]

theorem linkStop_orderly (s : State) a2 : Orderly s (linkStop s a2) := by
  grind only [Orderly, linkStop, foldS_orderly, wrF_orderly, setLink_orderly, updLnk_orderly, segRefuse_orderly, incr_orderly]

theorem linkOff_orderly (s : State) a2 : Orderly s (linkOff s a2) := by
  grind only [Orderly, linkOff, linkStop_orderly, wrB_orderly]

theorem linkMode_orderly (s : State) a2 : Orderly s (linkMode s a2) := by
  grind only [Orderly, linkMode, setLink_orderly, linkStop_orderly]

theorem lowBlocks_orderly (s : State) : Orderly s (lowBlocks s) := by
  grind only [Orderly, lowBlocks, foldS_orderly, engineOff_orderly, wrB_orderly, memOff_orderly, sessionOff_orderly,
      queueOff_orderly, linkOff_orderly]

theorem lowEnter_orderly (s : State) a2 : Orderly s (lowEnter s a2) := by
  grind only [Orderly, lowEnter, inv_view, lowBlocks_orderly, updRoot_orderly]

theorem lowLeave_orderly (s : State) a2 : Orderly s (lowLeave s a2) := by
  grind only [Orderly, lowLeave, inv_view, updRoot_orderly]

/-! ### Reliability -/

theorem cfgEpochNext_orderly (s : State) : Orderly s (cfgEpochNext s) := by
  grind only [Orderly, cfgEpochNext, wrF_orderly]

theorem retireSet_orderly (s : State) a2 a3 : Orderly s (retireSet s a2 a3) := by
  grind only [Orderly, retireSet, foldS_orderly, wr_orderly, mappingChanged_orderly]

theorem tileRun_orderly (s : State) a2 a3 : Orderly s (tileRun s a2 a3) := by
  grind only [Orderly, tileRun, inv_view, updCore_orderly, incr_orderly]

theorem tileClean_orderly (s : State) a2 : Orderly s (tileClean s a2) := by
  grind only [Orderly, tileClean, inv_view, wrB_orderly]

theorem canaryOn_orderly (s : State) : Orderly s (canaryOn s) := by
  grind only [Orderly, canaryOn, inv_view, freeW_orderly, wrB_orderly]

theorem cmpStart_orderly (s : State) : Orderly s (cmpStart s) := by
  grind only [Orderly, cmpStart, wrB_orderly]

theorem cmpWord_orderly (s : State) a2 a3 : Orderly s (cmpWord s a2 a3).2.2 := by
  grind only [Orderly, cmpWord, fabRead_orderly]

theorem cmpGo_orderly (s : State) a2 a3 a4 a5 a6 a7 : Orderly s (cmpGo s a2 a3 a4 a5 a6 a7).2 := by
  induction a7 generalizing s a2 a3 a4 a5 a6 <;> grind only [Orderly, cmpGo, cmpWord_orderly]

theorem cmpRun_orderly (s : State) a2 : Orderly s (cmpRun s a2) := by
  grind only [Orderly, cmpRun, cmpGo_orderly, wrB_orderly, wr_orderly]

theorem dualHit_orderly (s : State) a2 : Orderly s (dualHit s a2) := by
  grind only [Orderly, dualHit, inv_view, rasPost_orderly, wrB_orderly]

theorem quarantine_orderly (s : State) a2 : Orderly s (quarantine s a2) := by
  grind only [Orderly, quarantine, foldS_orderly, rasPost_orderly, wrB_orderly, slotTag_orderly, cgAbort_orderly]

theorem islRejoin_orderly (s : State) a2 a3 : Orderly s (islRejoin s a2 a3) := by
  grind only [Orderly, islRejoin, quarantine_orderly]

theorem quarRelease_orderly (s : State) a2 : Orderly s (quarRelease s a2) := by
  grind only [Orderly, quarRelease, foldS_orderly, wrB_orderly]

theorem snapCopy_orderly (s : State) a2 a3 : Orderly s (snapCopy s a2 a3) := by
  have h := sramRead_orderly s (memBase a2) 0x200000
  unfold snapCopy
  generalize sramRead s (memBase a2) 0x200000 = r at h ⊢
  exact orderly_trans h (fabStore_orderly ..)

theorem fwLost_orderly (s : State) : Orderly s (fwLost s) := by
  grind only [Orderly, fwLost, inv_view]

theorem ctxBytes_orderly (s : State) a2 a3 : Orderly s (ctxBytes s a2 a3).2 := by
  grind only [Orderly, ctxBytes, fabReads_orderly, refuse_orderly, freeSkip_orderly]

theorem ctxSave_orderly (s : State) a2 : Orderly s (ctxSave s a2).2 := by
  unfold ctxSave
  refine foldl2_orderly _ (fun b t => ?_) _ _
  exact ctxBytes_orderly b.2 t.loc t.size

theorem ctxPut_orderly (s : State) a2 a3 a4 : Orderly s (ctxPut s a2 a3 a4) := by
  grind only [Orderly, ctxPut, inv_view, fabWrites_orderly, foldS_orderly, writeRemote_orderly]

theorem ctxRestore_orderly (s : State) a2 a3 t : (ctxRestore s a2 a3) = some t → Orderly s t := by
  induction a3 generalizing s a2 <;> grind only [Orderly, ctxRestore, fabWrites_orderly, ctxPut_orderly]

theorem epochEvents_orderly (s : State) : Orderly s (epochEvents s) := by
  grind only [Orderly, epochEvents, inv_view, foldS_orderly, postEvent_orderly, updJob_orderly]

theorem argsAgain_orderly (s : State) : Orderly s (argsAgain s) := by
  grind only [Orderly, argsAgain, foldS_orderly, setArgs_orderly]

/-! ### HostPort -/

theorem protoErr_orderly (s : State) a2 : Orderly s (protoErr s a2) := by
  grind only [Orderly, protoErr, attnSet_orderly, incr_orderly]

theorem attnAck_orderly (s : State) : Orderly s (attnAck s) := by
  grind only [Orderly, attnAck, wr_orderly]

theorem hostStore_orderly (s : State) a2 a3 a4 : Orderly s (hostStore s a2 a3 a4) := by
  grind only [Orderly, hostStore, ramPut_orderly, attnAck_orderly]

theorem modeShow_orderly (s : State) a2 : Orderly s (modeShow s a2) := by
  grind only [Orderly, modeShow, wr_orderly]

theorem mr4Follow_orderly (s : State) a2 : Orderly s (mr4Follow s a2) := by
  grind only [Orderly, mr4Follow, inv_view]

theorem modeReset_orderly (s : State) : Orderly s (modeReset s) := by
  grind only [Orderly, modeReset, inv_view, wr_orderly]

theorem attnSetWrite_orderly (s : State) a2 : Orderly s (attnSetWrite s a2) := by
  grind only [Orderly, attnSetWrite, wr_orderly]

theorem attnShow_orderly (s : State) : Orderly s (attnShow s) := by
  grind only [Orderly, attnShow, inv_view, ramPut_orderly]

theorem hptOn_orderly (s : State) : Orderly s (hptOn s) := by
  grind only [Orderly, hptOn, inv_view, wrB_orderly]

/-! ### Power -/

theorem updPwr_orderly (s : State) a2 : Orderly s (updPwr s a2) := by
  grind only [Orderly, updPwr, inv_view]

theorem throttleShow_orderly (s : State) : Orderly s (throttleShow s) := by
  grind only [Orderly, throttleShow, wrB_orderly]

theorem ddrMode_orderly (s : State) a2 : Orderly s (ddrMode s a2) := by
  grind only [Orderly, ddrMode, wrF_orderly]

theorem modeSet_orderly (s : State) a2 : Orderly s (modeSet s a2) := by
  grind only [Orderly, modeSet, inv_view, foldS_orderly, wrF_orderly, updPwr_orderly, throttleShow_orderly, ddrMode_orderly,
      linkMode_orderly, lowEnter_orderly, lowLeave_orderly]

theorem modeWrite_orderly (s : State) a2 : Orderly s (modeWrite s a2) := by
  grind only [Orderly, modeWrite, wrF_orderly, modeSet_orderly]

theorem emergTell_orderly (s : State) a2 : Orderly s (emergTell s a2) := by
  grind only [Orderly, emergTell, logRec_orderly, attnSet_orderly]

theorem emergLatch_orderly (s : State) a2 : Orderly s (emergLatch s a2) := by
  grind only [Orderly, emergLatch, inv_view, wrB_orderly, updPwr_orderly, emergTell_orderly]

theorem emergGone_orderly (s : State) a2 : Orderly s (emergGone s a2) := by
  grind only [Orderly, emergGone, inv_view, updPwr_orderly]

theorem emergClr_orderly (s : State) a2 : Orderly s (emergClr s a2) := by
  grind only [Orderly, emergClr, wrB_orderly, emergTell_orderly]

theorem thermMove_orderly (s : State) : Orderly s (thermMove s) := by
  grind only [Orderly, thermMove, inv_view, throttleShow_orderly, updPwr_orderly]

/-! ### Reset -/

theorem chipReset_orderly (s : State) a2 : Orderly s (chipReset s a2) := by
  refine ⟨rfl, Nat.le_refl _, fun _ => ?_⟩
  simp only [inv_view]
  exact ⟨rfl, rfl, rfl, rfl, rfl, rfl, rfl, rfl, rfl, rfl, rfl, rfl, rfl, Nat.two_pow_pos 64, Nat.two_pow_pos 32⟩

theorem resetRelease_orderly (s : State) : Orderly s (resetRelease s) := by
  grind only [Orderly, resetRelease, inv_view, foldS_orderly, wr_orderly, freeW_orderly, updIo]

theorem softReset_orderly (s : State) : Orderly s (softReset s) := by
  grind only [Orderly, softReset, resetRelease_orderly, chipReset_orderly]

theorem cluReset_orderly (s : State) a2 : Orderly s (cluReset s a2) := by
  grind only [Orderly, cluReset, inv_view, InvView, mem_wf_iff, mput_wf, mputs_wf, mclear_wf, foldS_orderly,
      blkReset_orderly, setCore_orderly, setClu_orderly, sramZero_orderly]

theorem ddrReset_orderly (s : State) : Orderly s (ddrReset s) := by
  unfold ddrReset
  dsimp only
  have h (a b c : State) (x : Nat) (y : Bool) (f : State → Nat → State) (hf : ∀ t r, Orderly t (f t r)) (h : Orderly a b) :
      Orderly a (foldS f (upto 64) (wrB b x 0 y)) :=
    orderly_trans h (orderly_trans (wrB_orderly ..) (foldS_orderly _ hf _ _))
  have h := h s (blkReset (blkReset s 0x40) 0x48) s rMemFwCtl (rdB s rMemFwCtl 0) (fun t r =>
    if rdB s (rMemRgnCtl r) 30 then
      foldS (fun t a => wr t a (rd s a)) [rMemRgnCtl r, rMemRgnBase r, rMemRgnSize r, rMemRgnMask r] t
    else t) (fun t r => ite_orderly (foldS_orderly _ (fun t a => wr_orderly ..) _ _) (orderly_refl t))
    (orderly_trans (blkReset_orderly ..) (blkReset_orderly ..))
  revert h
  generalize foldS _ (upto 64) _ = u
  intro h
  refine orderly_trans h ⟨rfl, Nat.le_refl _, ?_⟩
  simp only [inv_view, InvView, mem_wf_iff]
  rintro ⟨⟨x1, x2, x3, x4, x5, x6, _⟩, b, c, d, e, f, g, i, j, k, l, n, o, p, q⟩
  exact ⟨⟨x1, x2, x3, x4, x5, x6, rfl⟩, b, c, d, rfl, f, g, i, j, k, l, n, o, p, q⟩

theorem islInit_orderly (s : State) a2 : Orderly s (islInit s a2) := by
  unfold islInit
  have z (a b c : Nat) : Orderly s (sramZero (blkReset s a) b c) := orderly_trans (blkReset_orderly ..) (sramZero_orderly ..)
  have y (l : List Nat) (b c : Nat) : Orderly s (sramZero (foldS blkReset l s) b c) :=
    orderly_trans (foldS_orderly blkReset blkReset_orderly _ _) (sramZero_orderly ..)
  have hpO (u : State) (h : HostP) : Orderly u { u with hp := h } := by simp [Orderly, inv_view]
  have mdO (u : State) : Orderly u { u with csi := {}, vid := {}, mem := { u.mem with scrubM := 0 } } := by
    refine ⟨rfl, Nat.le_refl _, ?_⟩
    simp only [inv_view, InvView]
    rintro ⟨a, b, c, d, e, f, g, i, j, k, l, n, o, p, q⟩
    exact ⟨a, b, c, d, e, f, rfl, rfl, rfl, rfl, rfl, n, o, p, q⟩
  have lkO (u : State) : Orderly u { u with lk := { u.lk with l := List.replicate 6 {} } } := by
    refine ⟨rfl, Nat.le_refl _, ?_⟩
    simp only [inv_view, InvView]
    rintro ⟨a, b, c, d, e, f, g, i, j, k, l, n, o, p, q⟩
    exact ⟨a, b, c, d, e, rfl, g, i, j, k, l, n, o, p, q⟩
  have ioO (u : State) (f : Io → Io) (h : Orderly s u) (h1 : (f u.io).ser = u.io.ser) (h2 : (f u.io).outs = u.io.outs) :
      Orderly s (updIo u f) := orderly_trans h (by simp [Orderly, inv_view, updIo, h1, h2])
  refine ite_orderly (cluReset_orderly ..) (ite_orderly (ddrReset_orderly s) (ite_orderly (orderly_trans (z ..) (hpO _ _))
    (ite_orderly (orderly_trans (y ..) (mdO _)) (ite_orderly (orderly_trans (blkReset_orderly ..) (lkO _))
    (ite_orderly (ioO (blkReset s 0x7C) _ (blkReset_orderly ..) rfl rfl) (orderly_refl s))))))

theorem islHold_orderly (s : State) a2 : Orderly s (islHold s a2) := by
  grind only [Orderly, islHold, wrB_orderly, islInit_orderly, cfgDrop_orderly]

theorem islRelease_orderly (s : State) a2 : Orderly s (islRelease s a2) := by
  grind only [Orderly, islRelease, islRejoin_orderly, wrB_orderly]

theorem islRstWrite_orderly (s : State) a2 : Orderly s (islRstWrite s a2) := by
  grind only [Orderly, islRstWrite, foldS_orderly, islHold_orderly, islRelease_orderly]

/-! ### Boot -/

theorem bootRegion_orderly (s : State) a2 a3 a4 a5 a6 a7 : Orderly s (bootRegion s a2 a3 a4 a5 a6 a7) := by
  grind only [Orderly, bootRegion, wr_orderly]

theorem bootFirewall_orderly (s : State) : Orderly s (bootFirewall s) := by
  grind only [Orderly, bootFirewall, bootRegion_orderly, wrB_orderly]

theorem narrowMedia_orderly (s : State) : Orderly s (narrowMedia s) := by
  grind only [Orderly, narrowMedia, foldS_orderly, wr_orderly]

theorem narrowBoot_orderly (s : State) a2 : Orderly s (narrowBoot s a2) := by
  grind only [Orderly, narrowBoot, narrowMedia_orderly, wrF_orderly]

theorem romPage_orderly (s : State) : Orderly s (romPage s) := by
  grind only [Orderly, romPage, ramPutNat_orderly, setFwState_orderly, fwPut_orderly]

theorem pageRing_orderly (s : State) a2 a3 a4 a5 : Orderly s (pageRing s a2 a3 a4 a5) := by
  grind only [Orderly, pageRing, ramPut_orderly, fwPut_orderly]

theorem fwPage_orderly (s : State) a2 a3 : Orderly s (fwPage s a2 a3) := by
  grind only [Orderly, fwPage, foldS_orderly, pageRing_orderly, ramPut_orderly, freeN_orderly, fwPut_orderly]

theorem svcPage_orderly (s : State) : Orderly s (svcPage s) := by
  grind only [Orderly, svcPage, foldS_orderly, wr_orderly, pageRing_orderly]

theorem journalSet_orderly (s : State) a2 : Orderly s (journalSet s a2) := by
  grind only [Orderly, journalSet, inv_view, updRoot_orderly, retireSet_orderly]

theorem journalVerify_orderly (s : State) : Orderly s (journalVerify s) := by
  grind only [Orderly, journalVerify, inv_view, foldS_orderly, foldl_orderly, foldl2_orderly, journalSet_orderly, logMsg_orderly,
      segOpen_orderly, updRoot_orderly, segSeal_orderly]

theorem journalFind_orderly (s : State) : Orderly s (journalFind s) := by
  grind only [Orderly, journalFind, inv_view, updRoot_orderly]

theorem bootTry_orderly (s : State) a2 a3 a4 : Orderly s (bootTry s a2 a3 a4) := by
  grind only [Orderly, bootTry, inv_view, wr_orderly, wrF_orderly, updRoot_orderly]

theorem imageTry_orderly (s : State) a2 a3 a4 : Orderly s (imageTry s a2 a3 a4).2.2 := by
  grind only [Orderly, imageTry, bootTry_orderly, loadCopy_orderly]

theorem cpGo_orderly (s : State) a2 : Orderly s (cpGo s a2) := by
  grind only [Orderly, cpGo, inv_view, updRoot_orderly]

theorem handOver_orderly (s : State) a2 a3 a4 : Orderly s (handOver s a2 a3 a4) := by
  grind only [Orderly, handOver, inv_view, wrB_orderly, wr_orderly, updRoot_orderly, cpGo_orderly, setFwState_orderly, fwPage_orderly]

theorem bootMain_orderly (s : State) a2 a3 a4 a5 : Orderly s (bootMain s a2 a3 a4 a5) := by
  grind only [Orderly, bootMain, inv_view, narrowBoot_orderly, wrB_orderly, updRoot_orderly, wrF_orderly, journalVerify_orderly,
      handOver_orderly]

theorem bootRecovery_orderly (s : State) : Orderly s (bootRecovery s) := by
  grind only [Orderly, bootRecovery, wrF_orderly, wrB_orderly, setFwState_orderly, fwPage_orderly, logMsg_orderly,
      journalFind_orderly]

theorem sourceUp_orderly (s : State) a2 : Orderly s (sourceUp s a2) := by
  grind only [Orderly, sourceUp, foldS_orderly, linkTry_orderly, wrB_orderly]

theorem bootFrom_orderly (s : State) a2 a3 : Orderly s (bootFrom s a2 a3) := by
  induction a3 generalizing s a2 with
  | zero => exact bootRecovery_orderly s
  | succ n ih =>
    unfold bootFrom
    split
    · exact bootRecovery_orderly s
    · rename_i x _
      have h0 := updRoot_orderly s fun r => { r with src := some a2 }
      dsimp only
      generalize (updRoot s fun r => { r with src := some a2 }) = u at h0 ⊢
      refine ite_orderly (orderly_trans h0 (sourceUp_orderly ..)) ?_
      have h1 := orderly_trans h0 (imageTry_orderly u (flashImage u (x == 1) 0) x 0)
      generalize flashImage u (x == 1) 0 = f at h1 ⊢
      generalize imageTry u f x 0 = r at h1 ⊢
      split
      · exact orderly_trans h1 (bootMain_orderly ..)
      · rename_i v
        have h2 := orderly_trans h1 (imageTry_orderly v (flashImage v (x == 1) 1) x 1)
        generalize flashImage v (x == 1) 1 = g at h2 ⊢
        generalize imageTry v g x 1 = r at h2 ⊢
        split
        · exact orderly_trans h2 (bootMain_orderly ..)
        · exact orderly_trans h2 (ih _ _)

theorem tripLog_orderly (s : State) : Orderly s (tripLog s) := by
  grind only [Orderly, tripLog, inv_view, wrB_orderly, updPwr_orderly, logMsg_orderly]

theorem bootNext_orderly (s : State) : Orderly s (bootNext s) := by
  grind only [Orderly, bootNext, bootFrom_orderly]

theorem bootStat_orderly (s : State) a2 a3 a4 : Orderly s (bootStat s a2 a3 a4) := by
  grind only [Orderly, bootStat, ramPut_orderly, fwPut_orderly]

theorem bootTake_orderly (s : State) a2 a3 a4 : Orderly s (bootTake s a2 a3 a4) := by
  grind only [Orderly, bootTake, imageTry_orderly, bootStat_orderly, bootMain_orderly, bootNext_orderly]

theorem objAll_orderly (s : State) a2 : Orderly s (objAll s a2).2 := by
  grind only [Orderly, objAll, fabReads_orderly]

theorem copyWrite_orderly (s : State) a2 a3 a4 t : (copyWrite s a2 a3 a4) = some t → Orderly s t := by
  grind only [Orderly, copyWrite, flashPut_orderly]

theorem recoveryActivate_orderly (s : State) a2 a3 : Orderly s (recoveryActivate s a2 a3) := by
  unfold recoveryActivate
  split
  · exact respond_orderly ..
  · rename_i o _
    have h1 := objAll_orderly s o
    generalize objAll s o = r at h1 ⊢
    obtain ⟨img, u⟩ := r
    dsimp only at h1 ⊢
    split
    · split
      · exact orderly_trans h1 (respond_orderly ..)
      · rename_i e1
        have h2 := orderly_trans h1 (copyWrite_orderly _ _ _ _ _ e1)
        split
        · exact orderly_trans h2 (respond_orderly ..)
        · rename_i e2
          exact orderly_trans (orderly_trans h2 (copyWrite_orderly _ _ _ _ _ e2)) (orderly_trans (respond_orderly ..) (softReset_orderly _))
    · refine orderly_trans (orderly_trans h1 (respond_orderly u a2 0 [])) ?_
      generalize respond u a2 0 [] = v
      exact orderly_trans (orderly_trans (orderly_trans (orderly_trans (loadCopy_orderly ..) (wrB_orderly ..)) (narrowBoot_orderly ..))
        (fw_orderly ..)) (handOver_orderly ..)

theorem bankLoad_orderly (s : State) a2 : Orderly s (bankLoad s a2).2 := by
  unfold bankLoad
  have h1 := objBytes_orderly s a2 0 256
  generalize objBytes s a2 0 256 = r at h1 ⊢
  obtain ⟨⟨hd, c⟩, u⟩ := r
  dsimp only at h1 ⊢
  refine ite_orderly' h1 ?_
  have h2 (es : List LoadEnt) (b : Nat) (x : Nat × State) : Orderly x.2 (es.foldl (fun (a : Nat × State) e =>
      let ((bs, c), s) := objBytes a.2 a2 e.src e.size
      (if a.1 = 0 then c else a.1, if c = 0 then ramPut s (0x2300000000 + 0x60000 * b + e.dst) bs else s)) x).2 :=
    foldl2_orderly _ (fun y e => ite_orderly (orderly_trans (objBytes_orderly y.2 a2 e.src e.size) (ramPut_orderly ..))
      (objBytes_orderly y.2 a2 e.src e.size)) _ _
  have h2 := orderly_trans h1 (h2 (((loadTable hd 1 (a2.total - 3200)).getD []).filter fun e => e.dest == 1)
    (1 - rdF u rSecBank 0 0) (0, u))
  revert h2
  generalize List.foldl _ _ _ = r
  intro h2
  refine ite_orderly' h2 ?_
  exact orderly_trans h2 (orderly_trans (wr_orderly ..) (cpGo_orderly ..))

theorem svcRuns_orderly (s : State) a2 : Orderly s (svcRuns s a2) := by
  grind only [Orderly, svcRuns, inv_view, updObj_orderly, updRoot_orderly, setFwState_orderly, svcPage_orderly]

theorem restartActivate_orderly (s : State) a2 a3 : Orderly s (restartActivate s a2 a3) := by
  grind only [Orderly, restartActivate, respond_orderly, bankLoad_orderly, lowLeave_orderly, svcRuns_orderly]

theorem shalVariants_orderly (s : State) a2 : Orderly s (shalVariants s a2).2 := by
  grind only [Orderly, shalVariants, objBytes_orderly, sectBytes_orderly]

theorem shalGo_orderly (s : State) a2 a3 a4 a5 : Orderly s (shalGo s a2 a3 a4 a5) := by
  grind only [Orderly, shalGo, inv_view, progGo_orderly, logMsg_orderly, passStart_orderly]

theorem shalStart_orderly (s : State) a2 a3 a4 a5 a6 : Orderly s (shalStart s a2 a3 a4 a5 a6) := by
  grind only [Orderly, shalStart, shalVariants_orderly, logMsg_orderly, loadBundle_orderly, shalGo_orderly]

/-! ### Fifos -/

theorem portPut_orderly (s : State) a2 a3 : Orderly s (portPut s a2 a3) := by
  unfold portPut
  (repeat' split) <;> grind only [Orderly, portPut, inv_view, updFg_orderly, updSes_orderly, updIo, updSer_orderly]

theorem portOver_orderly (s : State) a2 : Orderly s (portOver s a2) := by
  unfold portOver
  (repeat' split) <;> grind only [Orderly, portOver, incr_orderly]

theorem portWrite_orderly (s : State) a2 a3 a4 a5 : Orderly s (portWrite s a2 a3 a4 a5) := by
  grind only [Orderly, portWrite, portPut_orderly, portOver_orderly]

theorem delivered_orderly (s : State) a2 : Orderly s (delivered s a2) := by
  grind only [Orderly, delivered, inv_view]

theorem portTrace_orderly (s : State) a2 : Orderly s (portTrace s a2) := by
  cases a2 <;> first | exact traceRec_orderly .. | exact orderly_refl s

theorem stallGive_orderly (s : State) a2 a3 : Orderly s (stallGive s a2 a3) := by
  grind only [Orderly, stallGive, delivered_orderly, deliver_orderly]

theorem stallPop_orderly (s : State) a : ∀ x, stallPop s a = some x → Orderly s x.2 := by
  unfold stallPop
  intro x h
  split at h
  · cases h
    exact orderly_rf _ id
  · split at h
    · cases h
      exact orderly_rf _ id
    · cases h

theorem stallZero1_orderly (s : State) a2 : Orderly s (stallZero1 s a2) := by
  unfold stallZero1
  have h := stallPop_orderly s a2
  split
  · exact orderly_trans (h _ ‹_›) (orderly_trans (stallGive_orderly ..) (portPut_orderly ..))
  · exact orderly_trans (h _ ‹_›) (stallGive_orderly ..)
  · exact orderly_refl s

theorem stallZero_orderly (s : State) a2 : Orderly s (stallZero s a2) := by
  grind only [Orderly, stallZero, inv_view, delivered_orderly, portPut_orderly, foldS_orderly, stallZero1_orderly]

theorem turnNext_orderly (s : State) a2 : Orderly s (turnNext s a2) := by
  grind only [Orderly, turnNext, inv_view]

theorem frameLost_orderly (s : State) a2 a3 : Orderly s (frameLost s a2 a3) := by
  grind only [Orderly, frameLost, inv_view, incr_orderly, wrB_orderly, wrBack_orderly, updStr_orderly]

theorem encRef_orderly (s : State) a2 a3 a4 : Orderly s (encRef s a2 a3 a4) := by
  grind only [Orderly, encRef, inv_view, updSes_orderly, picPut_orderly]

theorem hostChunk_orderly (s : State) a2 a3 a4 a5 : Orderly s (hostChunk s a2 a3 a4 a5) := by
  grind only [Orderly, hostChunk, hostStore_orderly]

end Sys2Proof.Machine
end

