-- ==== Sys2Proof/Laws/OrderlyRegs.lean ====
section
/-! SUPPORT. That registers, commit groups, the vector unit and received flits leave the queue alone, draw fresh free values and keep the invariant. -/

namespace Sys2Proof.Machine
set_option Elab.async false
open Sys2Proof

theorem cgCancel_orderly (s : State) a2 : Orderly s (cgCancel s a2) := by
  grind only [Orderly, cgCancel, freeN_orderly, cgAbort_orderly, freeCode_orderly]

theorem switchDrop_orderly (s : State) a2 : Orderly s (switchDrop s a2) := by
  grind only [Orderly, switchDrop, inv_view, foldS_orderly, cgCancel_orderly]

theorem cgPrepare_orderly (s : State) a2 : Orderly s (cgPrepare s a2) := by
  grind only [Orderly, cgPrepare, inv_view, foldS_orderly, wrF_orderly, cgSetState_orderly, traceRec_orderly, cgUpd_orderly]

theorem switchGroup_orderly (s : State) a2 a3 a4 : Orderly s (switchGroup s a2 a3 a4) := by
  grind only [Orderly, switchGroup, foldS_orderly, cgFill_orderly, wr_orderly, wrF_orderly, cgSetState_orderly,
      incr_orderly, wr64_orderly, cgOutcome_orderly, cgUpd_orderly, cgPrepare_orderly]

theorem switchMake_orderly a2 (s : State) a3 a4 : Orderly s (switchMake a2 s a3 a4) := by
  grind only [Orderly, switchMake, inv_view, seedWrite_orderly, foldS_orderly, switchGroup_orderly]

theorem switchPart_orderly a2 (s : State) a3 : Orderly s (switchPart a2 s a3) := by
  grind only [Orderly, switchPart, switchMake_orderly, switchDrop_orderly]

theorem switchesGo_orderly (s : State) : Orderly s (switchesGo s) := by
  grind only [Orderly, switchesGo, foldS_orderly, switchPart_orderly]

theorem jobSubmit_orderly (s : State) a2 a3 : Orderly s (jobSubmit s a2 a3) := by
  unfold jobSubmit
  (repeat' split) <;> grind only [Orderly, jobSubmit, respond_orderly, fabReads_orderly, shadowAdmit_orderly,
      jobAdmit_orderly, toSkerries_orderly, switchesGo_orderly]

theorem jobStop_orderly (s : State) a2 a3 : Orderly s (jobStop s a2 a3) := by
  grind only [Orderly, jobStop, inv_view, jobEnd_orderly, switchesGo_orderly, askPark_orderly, updJob_orderly]

theorem jobAbort_orderly (s : State) a2 a3 : Orderly s (jobAbort s a2 a3) := by
  grind only [Orderly, jobAbort, respond_orderly, toSkerries_orderly, jobEnd_orderly, askPark_orderly, updJob_orderly,
      switchesGo_orderly, jobStop_orderly]

theorem busWrite_orderly (s : State) a v (act : State → State) (h : Orderly s (act s)) : Orderly s (busWrite s a v act) :=
  ite_orderly (orderly_refl s) (ite_orderly (holdWrite_orderly ..) (ite_orderly (cfgDrop_orderly ..) h))

theorem jobBind_orderly (s : State) a2 a3 : Orderly s (jobBind s a2 a3) := by
  have b (a : Nat) (v : Word) : Orderly s (busWrite s a v fun s => wr (energyRead s) a v) :=
    busWrite_orderly _ _ _ _ (orderly_trans (energyRead_orderly s) (wr_orderly ..))
  unfold jobBind
  (repeat' split) <;> first | exact respond_orderly .. | skip
  all_goals grind only [Orderly, respond_orderly]

theorem jobKill_orderly (s : State) a2 a3 : Orderly s (jobKill s a2 a3) := by
  grind only [Orderly, jobKill, inv_view, updJob_orderly, attnSet_orderly, jobState_orderly, askPark_orderly,
      scrubStart_orderly, jobEnd_orderly, switchesGo_orderly]

theorem missDeadline_orderly (s : State) a2 a3 a4 : Orderly s (missDeadline s a2 a3 a4) := by
  grind only [Orderly, missDeadline, inv_view, logRec_orderly, postEvent_orderly, updJob_orderly, attnSet_orderly,
      askPark_orderly, jobStop_orderly]

theorem passEnd_orderly a1 (s : State) a3 : Orderly s (passEnd a1 s a3) := by
  grind only [Orderly, passEnd, inv_view, jobCharge_orderly, updJob_orderly, missDeadline_orderly, passEvent_orderly,
      resultScan_orderly, jobKill_orderly, consume_orderly, tryPublish_orderly, passStart_orderly]

theorem progEnd_orderly (s : State) a2 : Orderly s (progEnd s a2) := by
  grind only [Orderly, progEnd, inv_view, foldS_orderly, wrB_orderly, engineOff_orderly, jobEnd_orderly, updObj_orderly,
      regionRestore_orderly, updRoot_orderly, switchDrop_orderly]

theorem stopDone_orderly (s : State) : Orderly s (stopDone s) := by
  grind only [Orderly, stopDone, progEnd_orderly]

theorem programStop_orderly (s : State) a2 a3 : Orderly s (programStop s a2 a3) := by
  grind only [Orderly, programStop, inv_view, respond_orderly, toSkerries_orderly, wrB_orderly, stopDone_orderly]

theorem noClass_orderly (s : State) : Orderly s (noClass s) := by
  grind only [Orderly, noClass, progEnd_orderly, lowEnter_orderly, logMsg_orderly]

theorem retire_orderly (s : State) a2 a3 : Orderly s (retire s a2 a3) := by
  grind only [Orderly, retire, cfgEpochNext_orderly, retireSet_orderly, noClass_orderly]

theorem devMark_orderly (s : State) a2 a3 : Orderly s (devMark s a2 a3) := by
  grind only [Orderly, devMark, inv_view, updRoot_orderly, logMsg_orderly, lowEnter_orderly, progEnd_orderly, logRec_orderly]

theorem permanent_orderly (s : State) a2 a3 a4 : Orderly s (permanent s a2 a3 a4) := by
  grind only [Orderly, permanent, inv_view, logRec_orderly, retire_orderly, devMark_orderly, updRoot_orderly]

theorem classify_orderly (s : State) a2 : Orderly s (classify s a2) := by
  grind only [Orderly, classify, inv_view, updRoot_orderly, permanent_orderly]

theorem classifyN_orderly (s : State) a2 a3 : Orderly s (classifyN s a2 a3) := by
  induction a3 generalizing s a2 <;> grind only [Orderly, classifyN, classify_orderly]

theorem dropRepeats_orderly (s : State) a2 : Orderly s (dropRepeats s a2) := by
  grind only [Orderly, dropRepeats, inv_view, classifyN_orderly]

theorem cePoll_orderly (s : State) a2 : Orderly s (cePoll s a2) := by
  unfold cePoll
  dsimp only
  refine ite_orderly (fw_orderly s _) ?_
  exact orderly_trans (fw_orderly s _) (orderly_trans (freeN_orderly _) (classifyN_orderly ..))

theorem migrate_orderly (s : State) a2 a3 a4 a5 : Orderly s (migrate s a2 a3 a4 a5) := by
  unfold migrate
  dsimp only
  have h := orderly_trans (orderly_trans (foldS_orderly _ switchDrop_orderly s.fw.switches s) (engineOff_orderly _ false)) (freeN_orderly _)
  generalize freeN (engineOff (foldS switchDrop s.fw.switches s) false) = w at h ⊢
  have h := orderly_trans h (loadBundle_orderly w.2 a3 (newParts a2.parts w.1) a4 none a2.chips)
  generalize loadBundle w.2 a3 (newParts a2.parts w.1) a4 none a2.chips = r at h ⊢
  split
  · exact orderly_trans h (progEnd_orderly ..)
  · rename_i q _ u
    have h := orderly_trans h (orderly_trans (fw_orderly u { u.fw with prog := some q }) (argsAgain_orderly _))
    generalize argsAgain { u with fw := { u.fw with prog := some q } } = v at h ⊢
    split
    · exact orderly_trans h (orderly_trans (wrB_orderly ..) (epochEvents_orderly _))
    · split
      · exact orderly_trans h (progEnd_orderly ..)
      · split
        · exact orderly_trans h (progEnd_orderly ..)
        · rename_i heq
          have h := orderly_trans h (ctxRestore_orderly _ _ _ _ heq)
          have e (w : State) (st : Nat) : Orderly w (epochEvents (engineTry (wrB (tagsSet (wr (unitsOn w q) rEngStartBar
              (BitVec.ofNat 32 st)) q st) rEngCtl 2 false))) :=
            orderly_trans (orderly_trans (orderly_trans (orderly_trans (orderly_trans (unitsOn_orderly ..) (wr_orderly ..))
              (tagsSet_orderly ..)) (wrB_orderly ..)) (engineTry_orderly _)) (epochEvents_orderly _)
          refine ite_orderly (orderly_trans h (orderly_trans (e ..) (orderly_trans (fw_orderly ..) (switchesGo_orderly _)))) ?_
          exact orderly_trans h (orderly_trans (e ..) (progEnd_orderly ..))

/-! ### Regs -/

theorem enOn_orderly (s : State) a2 a3 a4 : Orderly s (enOn s a2 a3 a4) := by
  unfold enOn
  (repeat' split) <;> grind only [Orderly, enOn, foldS_orderly, engineOn_orderly, memOn_orderly, wrB_orderly,
      hptOn_orderly, outStep_orderly, streamOn_orderly, sessionOn_orderly, queueOn_orderly, linkOn_orderly,
      outOn_orderly, canaryOn_orderly]

theorem enOff_orderly (s : State) a2 a3 a4 : Orderly s (enOff s a2 a3 a4) := by
  unfold enOff
  (repeat' split) <;> grind only [Orderly, enOff, engineOff_orderly, memOff_orderly, wrB_orderly, portOff_orderly,
      sessionOff_orderly, queueOff_orderly, linkOff_orderly, outOff_orderly, foldS_orderly, queueEnds_orderly,
      winShut_orderly]

theorem enPrep_orderly (s : State) a2 : Orderly s (enPrep s a2) := by
  unfold enPrep
  (repeat' split) <;> grind only [Orderly, enPrep, linkLanes_orderly, logMsg_orderly]

theorem chkStart_orderly (s : State) a2 a3 a4 : Orderly s (chkStart s a2 a3 a4) := by
  grind only [Orderly, chkStart, inv_view, enPrep_orderly]

theorem tagCmd_orderly (s : State) a2 a3 : Orderly s (tagCmd s a2 a3) := by
  grind only [Orderly, tagCmd, foldS_orderly, slotPut_orderly]

theorem cgCtlWrite_orderly (s : State) a2 a3 : Orderly s (cgCtlWrite s a2 a3) := by
  grind only [Orderly, cgCtlWrite, wrF_orderly, cgCancel_orderly, cgPrepare_orderly]

theorem rstCtlWrite_orderly (s : State) a2 : Orderly s (rstCtlWrite s a2) := by
  grind only [Orderly, rstCtlWrite, wrB_orderly, softReset_orderly]

theorem resStatusWrite_orderly (s : State) a2 a3 : Orderly s (resStatusWrite s a2 a3) := by
  grind only [Orderly, resStatusWrite, wrF_orderly]

theorem countWrite_orderly (s : State) a2 a3 t : (countWrite s a2 a3) = some t → Orderly s t := by
  grind only [Orderly, countWrite, portPut_orderly]

theorem regOwn_orderly (s : State) a2 a3 t : (regOwn s a2 a3) = some t → Orderly s t := by
  unfold regOwn
  refine iteSome_orderly (fun _ => some_orderly (rstCtlWrite_orderly ..)) (
    iteSome_orderly (fun _ => some_orderly (islRstWrite_orderly ..)) (
    iteSome_orderly (fun _ => some_orderly (ite_orderly (scanStart_orderly s) (orderly_refl s))) (
    iteSome_orderly (fun _ => some_orderly (ite_orderly (fullTrain_orderly s) (orderly_refl s))) (
    iteSome_orderly (fun _ => some_orderly (ite_orderly (pscanStart_orderly s) (orderly_refl s))) (
    iteSome_orderly (fun _ => some_orderly (attnSetWrite_orderly ..)) (
    iteSome_orderly (fun _ => some_orderly (foldS_orderly _ emergClr_orderly _ _)) (
    iteSome_orderly (fun _ => some_orderly (retire_orderly ..)) (
    iteSome_orderly (fun _ => some_orderly (retire_orderly ..)) (
    iteSome_orderly (fun _ => some_orderly (retire_orderly ..)) (
    iteSome_orderly (fun _ => some_orderly (quarRelease_orderly ..)) (
    iteSome_orderly (fun _ => some_orderly (ite_orderly (cmpStart_orderly s) (orderly_refl s))) (
    iteSome_orderly (fun _ => some_orderly (ite_orderly (wrB_orderly ..) (orderly_refl s))) (
    iteSome_orderly (fun _ => some_orderly (timStepWrite_orderly ..)) (
    iteSome_orderly (fun _ => some_orderly (orderly_trans (energyRead_orderly s) (wr_orderly ..))) (
    orElse_orderly (fun t => countWrite_orderly s a2 _ t) (
    orElse_orderly (map_orderly _ _ fun k => tagCmd_orderly ..) (
    orElse_orderly (map_orderly _ _ fun k => resStatusWrite_orderly ..) (
    orElse_orderly (map_orderly _ _ fun k => cgCtlWrite_orderly ..) (
    orElse_orderly (map_orderly _ _ fun k => relWrite_orderly ..) (
    orElse_orderly (map_orderly _ _ fun k => ite_orderly (ite_orderly (keyLoad_orderly ..) (wr_orderly ..)) (orderly_refl s)) (
    map_orderly _ _ fun k => portWrite_orderly ..))))))))))))))))))))) _

theorem landFields_orderly (s : State) a2 a3 a4 a5 : Orderly s (landFields s a2 a3 a4 a5) := by
  grind only [Orderly, landFields, wr_orderly, cfgDrop_orderly]

theorem enOther_orderly (s : State) a2 a3 : Orderly s (enOther s a2 a3) := by
  unfold enOther
  (repeat' split) <;> grind only [Orderly, enOther, wrB_orderly, stopClear_orderly, modeWrite_orderly, rgnLock_orderly,
      portFlush_orderly, queueFlush_orderly]

theorem regLand_orderly a1 (s : State) a3 a4 : Orderly s (regLand a1 s a3 a4) := by
  grind only [Orderly, regLand, regOwn_orderly, landFields_orderly, enOther_orderly, enOn_orderly, chkStart_orderly,
      enOff_orderly, foldS_orderly, ispArm_orderly]

theorem regDeliver_orderly (s : State) a2 a3 : Orderly s (regDeliver s a2 a3) := by
  grind only [Orderly, regDeliver, cfgDrop_orderly, regLand_orderly]

theorem badAccess_orderly (s : State) : Orderly s (badAccess s) := by
  grind only [Orderly, badAccess, incr_orderly]

theorem regPut_orderly (s : State) a2 a3 : Orderly s (regPut s a2 a3) := by
  grind only [Orderly, regPut, holdWrite_orderly, regDeliver_orderly]

theorem regWrite_orderly (s : State) a2 a3 a4 : Orderly s (regWrite s a2 a3 a4) := by
  unfold regWrite
  (repeat' split) <;> grind only [Orderly, regWrite, badAccess_orderly, cfgDrop_orderly, holdWrite_orderly,
      regDeliver_orderly, regPut_orderly]

theorem heldLandAll_orderly (s : State) a2 a3 : Orderly s (heldLandAll s a2 a3) := by
  induction a3 generalizing s a2 <;> grind only [Orderly, heldLandAll, holdWrite_orderly, regDeliver_orderly]

theorem tagRead_orderly (s : State) a2 : Orderly s (tagRead s a2) := by
  grind only [Orderly, tagRead, tagSee_orderly]

theorem regRead_orderly (s : State) a2 : Orderly s (regRead s a2).2 := by
  grind only [Orderly, regRead, inv_view, badAccess_orderly, tagRead_orderly]

theorem portAccess_orderly (s : State) a2 a3 a4 : Orderly s (portAccess s a2 a3 a4) := by
  grind only [Orderly, portAccess, inv_view, stallGive_orderly, portTrace_orderly, portPut_orderly]

theorem regAccess_orderly (s : State) a2 a3 a4 a5 a6 : Orderly s (regAccess s a2 a3 a4 a5 a6) := by
  grind only [Orderly, regAccess, badAccess_orderly, deliver_orderly, regWrite_orderly, regRead_orderly,
      portTrace_orderly, portPut_orderly, delivered_orderly, wr_orderly, stallGive_orderly, portAccess_orderly]

theorem crossIn_orderly (s : State) a2 : Orderly s (crossIn s a2) := by
  unfold crossIn
  (repeat' split) <;> grind only [Orderly, crossIn, inv_view, commitSlots_orderly, releaseSlots_orderly]

/-! ### Activation -/

theorem fwApply_orderly (s : State) a2 : Orderly s (fwApply s a2) := by
  grind only [Orderly, fwApply, inv_view, bankLoad_orderly, logMsg_orderly, svcRuns_orderly, stopDone_orderly]

theorem activateFw_orderly (s : State) a2 a3 : Orderly s (activateFw s a2 a3) := by
  grind only [Orderly, activateFw, inv_view, respond_orderly, cgFill_orderly, wr_orderly, cgUpd_orderly, cgPrepare_orderly]

theorem activateBoot_orderly (s : State) a2 a3 : Orderly s (activateBoot s a2 a3) := by
  unfold activateBoot
  have h1 := objAll_orderly s a3
  generalize objAll s a3 = r at h1 ⊢
  obtain ⟨img, u⟩ := r
  dsimp only at h1 ⊢
  generalize (match u.root.flash with
    | some (d, c) => some (d, 1 - c)
    | none => ((bootOrder u).find? fun x => x < 2).map fun x => (x == 1, 0)) = d
  split
  · exact orderly_trans h1 (respond_orderly ..)
  · split
    · rename_i e1
      exact orderly_trans (orderly_trans h1 (copyWrite_orderly _ _ _ _ _ e1)) (respond_orderly ..)
    · exact orderly_trans h1 (respond_orderly ..)

theorem fwActivate_orderly (s : State) a2 a3 : Orderly s (fwActivate s a2 a3) := by
  grind only [Orderly, fwActivate, inv_view, respond_orderly, activateFw_orderly, activateBoot_orderly, updIo,
      hartsHold_orderly]

/-! ### Commit -/

theorem actApply_orderly (s : State) a2 : Orderly s (actApply s a2) := by
  grind only [Orderly, actApply, fwApply_orderly, regLand_orderly, cfgDrop_orderly]

theorem actsApply_orderly (s : State) a2 a3 : Orderly s (actsApply s a2 a3) := by
  grind only [Orderly, actsApply, foldS_orderly, traceRec_orderly, actApply_orderly]

theorem cgFinish_orderly (s : State) a2 : Orderly s (cgFinish s a2) := by
  grind only [Orderly, cgFinish, inv_view, wrF_orderly, cgSetState_orderly, incr_orderly, wr64_orderly,
      cgOutcome_orderly, cgUpd_orderly]

theorem cgApply_orderly (s : State) a2 : Orderly s (cgApply s a2) := by
  grind only [Orderly, cgApply, foldS_orderly, cgFinish_orderly, actsApply_orderly]

theorem cgLeaves_orderly (s : State) a2 : Orderly s (cgLeaves s a2) := by
  grind only [Orderly, cgLeaves, foldS_orderly, wr_orderly]

theorem cgArm_orderly (s : State) a2 : Orderly s (cgArm s a2) := by
  grind only [Orderly, cgArm, inv_view, cgSetState_orderly, respond_orderly, cgUpd_orderly, cgApply_orderly]

theorem cgOpen_orderly (s : State) a2 a3 : Orderly s (cgOpen s a2 a3) := by
  grind only [Orderly, cgOpen, respond_orderly, wr_orderly, cgFill_orderly, wrF_orderly, cgUpd_orderly]

theorem cgStage_orderly (s : State) a2 a3 : Orderly s (cgStage s a2 a3) := by
  grind only [Orderly, cgStage, inv_view, respond_orderly, cgUpd_orderly, cgFill_orderly]

theorem cgCommit_orderly (s : State) a2 a3 : Orderly s (cgCommit s a2 a3) := by
  grind only [Orderly, cgCommit, inv_view, respond_orderly, cgPrepare_orderly, cgUpd_orderly]

theorem cgCancelCmd_orderly (s : State) a2 a3 : Orderly s (cgCancelCmd s a2 a3) := by
  grind only [Orderly, cgCancelCmd, respond_orderly, cgCancel_orderly, cgUpd_orderly]

/-! ### Vector -/

theorem vldWin_orderly (s : State) a2 a3 a4 a5 a6 t : (vldWin s a2 a3 a4 a5 a6) = .next t → Orderly s t := by
  unfold vldWin
  dsimp only
  refine onOk_orderly fun ad => ?_
  split
  · intro e; cases e
  · exact next_orderly (orderly_trans (orderly_trans (orderly_trans (orderly_trans (barReadRuns_orderly s a2 _) (padTaps_orderly ..))
      (winMisses_orderly ..)) (freeSkip_orderly ..)) (pend_orderly ..))

theorem parityCheck_orderly (s : State) a2 a3 : Orderly s (parityCheck s a2 a3).2 := by
  grind only [Orderly, parityCheck, foldS_orderly, sramEvent_orderly, cluIncr_orderly]

theorem storeBytes_orderly (s : State) a2 a3 a4 : Orderly s (storeBytes s a2 a3 a4) := by
  grind only [Orderly, storeBytes, parityCheck_orderly, pend_orderly]

theorem chunkLoad_orderly (s : State) a2 a3 a4 a5 t : (chunkLoad s a2 a3 a4 a5) = .next t → Orderly s t := by
  exact onOk_orderly fun ad => next_orderly (orderly_trans (barRead_orderly s a2 ad 256) (pend_orderly ..))

/-! ### VectorAlu -/

theorem arith_orderly a1 a2 a3 (s : State) a5 a6 a7 t : (arith a1 a2 a3 s a5 a6 a7) = .next t → Orderly s t := by
  grind only [Orderly, arith, vxDo_orderly, vxLanes_orderly]

theorem bitwise_orderly a1 a2 a3 (s : State) a5 t : (bitwise a1 a2 a3 s a5) = .next t → Orderly s t := by
  grind only [Orderly, bitwise, vxDo_orderly, vxLanes_orderly]

theorem func1_orderly a1 a2 a3 (s : State) a5 a6 t : (func1 a1 a2 a3 s a5 a6) = .next t → Orderly s t := by
  grind only [Orderly, func1, vxDo_orderly, vxLanes_orderly]

theorem dwBytes_orderly (s : State) a2 a3 : Orderly s (dwBytes s a2 a3).2 := by
  grind only [Orderly, dwBytes, foldl_orderly, foldl2_orderly, barReadRuns_orderly]

theorem dwQuad_orderly (s : State) a2 a3 a4 a5 a6 t : (dwQuad s a2 a3 a4 a5 a6) = .next t → Orderly s t := by
  unfold dwQuad
  dsimp only
  split
  · exact next_orderly (orderly_refl s)
  refine onOk_orderly fun ad => onOk_orderly fun bd => ?_
  split
  · intro e; cases e
  have h (l : List (Byte ⊕ (Nat × Nat))) (r : List (Nat × Nat)) (m p : Nat) (f : Fl) (g : Core → Core) :
      Orderly s (updCore (applyFl (winMisses (padTaps (barReadRuns (dwBytes s a2 l).2 a2 r).2 a2 m) a2 p) a2 f) a2 g) :=
    orderly_trans (orderly_trans (orderly_trans (orderly_trans (orderly_trans (dwBytes_orderly s a2 l) (barReadRuns_orderly ..))
      (padTaps_orderly ..)) (winMisses_orderly ..)) (applyFl_orderly ..)) (updCore_orderly ..)
  split
  · exact next_orderly (h ..)
  · split
    · exact next_orderly (orderly_trans (h ..) (winMisses_orderly ..))
    · exact next_orderly (orderly_trans (h ..) (pend_orderly ..))

/-! ### VectorRed -/

theorem reduce_orderly a1 a2 a3 (s : State) a5 t : (reduce a1 a2 a3 s a5) = .next t → Orderly s t := by
  grind only [Orderly, reduce, vxDo_orderly, applyFl_orderly, pend_orderly]

theorem vxGroup_orderly (s : State) a2 a3 a4 a5 a6 : Orderly s (vxGroup s a2 a3 a4 a5 a6) := by
  grind only [Orderly, vxGroup, applyFl_orderly, pend_orderly]

/-! ### Drain -/

theorem drainCheck_orderly (s : State) a2 a3 a4 : Orderly s (drainCheck s a2 a3 a4) := by
  grind only [Orderly, drainCheck, foldS_orderly, setCore_orderly, resMismatch_orderly]

theorem drainNone_orderly (s : State) a2 a3 a4 a5 t : (drainNone s a2 a3 a4 a5) = .next t → Orderly s t := by
  unfold drainNone
  split
  · exact next_orderly (pend_orderly ..)
  · exact onOk_orderly fun ad => next_orderly (pend_orderly ..)

theorem drainRow_orderly (s : State) a2 a3 a4 a5 a6 a7 a8 a9 t : (drainRow s a2 a3 a4 a5 a6 a7 a8 a9) = .next t → Orderly s t := by
  unfold drainRow
  dsimp only
  split
  · exact next_orderly (orderly_trans (pend_orderly ..) (applyFl_orderly ..))
  · exact onOk_orderly fun ad => next_orderly (orderly_trans (pend_orderly ..) (applyFl_orderly ..))

/-! ### LinkReceive -/

theorem reply_orderly (s : State) a2 a3 a4 a5 a6 a7 : Orderly s (reply s a2 a3 a4 a5 a6 a7) := by
  grind only [Orderly, reply, segSend_orderly]

theorem recvWr_orderly (s : State) a2 : Orderly s (recvWr s a2).2 := by
  grind only [Orderly, recvWr, reply_orderly, refuse_orderly, arrive_orderly, regAccess_orderly, fabWrite_orderly]

theorem recvRd_orderly (s : State) a2 : Orderly s (recvRd s a2) := by
  grind only [Orderly, recvRd, reply_orderly, staleHit_orderly, regAccess_orderly, fabReads_orderly, consume_orderly]

theorem recvRsp_orderly (s : State) a2 : Orderly s (recvRsp s a2) := by
  grind only [Orderly, recvRsp, inv_view, ropEnd_orderly, incr_orderly]

theorem mgmtIn_orderly (s : State) a2 a3 : Orderly s (mgmtIn s a2 a3) := by
  grind only [Orderly, mgmtIn, inv_view, mgmtSeg_orderly]

theorem segSink_orderly (s : State) a2 a3 : Orderly s (segSink s a2 a3).2 := by
  grind only [Orderly, segSink, inv_view, recvWr_orderly, recvRd_orderly, recvRsp_orderly, commitSlots_orderly,
      releaseSlots_orderly, mgmtIn_orderly]

theorem segIn_orderly (s : State) a2 a3 : Orderly s (segIn s a2 a3) := by
  grind only [Orderly, segIn, inv_view, updLnk_orderly, segSink_orderly, segForward_orderly]

theorem heldIn_orderly (s : State) a2 : Orderly s (heldIn s a2) := by
  grind only [Orderly, heldIn, inv_view, foldS_orderly, segIn_orderly, updLnk_orderly]

theorem flitBad_orderly (s : State) a2 : Orderly s (flitBad s a2) := by
  grind only [Orderly, flitBad, inv_view, updLnk_orderly]

theorem flitCrc_orderly (s : State) a2 : Orderly s (flitCrc s a2) := by
  grind only [Orderly, flitCrc, flitBad_orderly, wrB_orderly, incr_orderly]

theorem flitHdr_orderly (s : State) a2 a3 : Orderly s (flitHdr s a2 a3) := by
  grind only [Orderly, flitHdr, inv_view, updLnk_orderly]

theorem flitCtrl_orderly (s : State) a2 a3 : Orderly s (flitCtrl s a2 a3) := by
  grind only [Orderly, flitCtrl, inv_view, wrF_orderly, updLnk_orderly, setLink_orderly]

theorem flitData_orderly (s : State) a2 a3 : Orderly s (flitData s a2 a3) := by
  grind only [Orderly, flitData, inv_view, foldS_orderly, flitCrc_orderly, wrB_orderly, incr_orderly, linkDown_orderly,
      updLnk_orderly, flitBad_orderly, flitHdr_orderly, segIn_orderly]

/-! ### Matrix -/

theorem mxMiss_orderly (s : State) a2 a3 : Orderly s (mxMiss s a2 a3) := by
  grind only [Orderly, mxMiss, winMisses_orderly]

theorem mxEnter_orderly (s : State) a2 a3 a4 a5 a6 t : (mxEnter s a2 a3 a4 a5 a6) = .next t → Orderly s t := by
  unfold mxEnter
  dsimp only
  refine onOk_orderly fun rows => onOk_orderly fun b => onOk_orderly fun x => next_orderly (orderly_trans ?_ (updCore_orderly ..))
  have h := freeSkip_orderly s 2048
  generalize freeSkip s 2048 = u at h ⊢
  have h2 := orderly_trans h (ite_orderly (c := mxSpent s (a2 / 4) = true) (orderly_refl u) (updClu_orderly u (a2 / 4) fun c => { c with bucket := c.bucket - 16384 }))
  refine ite_orderly (orderly_trans h2 (orderly_trans (mxMiss_orderly ..) (act_orderly ..))) h2

theorem mxIssue_orderly a1 a2 a3 a4 (s : State) t : (mxIssue a1 a2 a3 a4 s) = .next t → Orderly s t := by
  unfold mxIssue
  dsimp only
  have h := adv_orderly s (a1.core / 4) a1.dt
  generalize adv s (a1.core / 4) a1.dt = u at h ⊢
  split
  · intro e; cases e
  · split
    · exact next_orderly h
    · split
      · exact next_orderly (orderly_trans h (blockBeat_orderly ..))
      · have h := orderly_trans h (passed_orderly u (a1.core / 4) (blocker (a1.core % 4) 4) (actKey a1.core 1))
        generalize passed u (a1.core / 4) (blocker (a1.core % 4) 4) (actKey a1.core 1) = v at h ⊢
        split
        · exact next_orderly h
        · split
          · intro e; cases e
          · exact fun e => orderly_trans h (mxEnter_orderly _ _ _ _ _ _ _ e)

/-! ### Rings -/

theorem skerrySend_orderly (s : State) a2 a3 : Orderly s (skerrySend s a2 a3) := by
  grind only [Orderly, skerrySend, inv_view, mboxSend_orderly]

theorem multiFail_orderly (s : State) a2 a3 a4 : Orderly s (multiFail s a2 a3 a4) := by
  grind only [Orderly, multiFail, inv_view, foldS_orderly, skerrySend_orderly, winGo_orderly, respond_orderly, progEnd_orderly]

theorem multiGo_orderly (s : State) : Orderly s (multiGo s) := by
  grind only [Orderly, multiGo, inv_view, foldS_orderly, winGo_orderly, freeN_orderly, multiFail_orderly,
      startEmpty_orderly, respond_orderly, progEnd_orderly, freeCode_orderly]

theorem multiAnswer_orderly (s : State) a2 a3 : Orderly s (multiAnswer s a2 a3) := by
  grind only [Orderly, multiAnswer, inv_view, multiFail_orderly]

theorem fromSkerry_orderly (s : State) a2 a3 : Orderly s (fromSkerry s a2 a3) := by
  grind only [Orderly, fromSkerry, inv_view, multiAnswer_orderly, jobKill_orderly]

theorem headlandPoll_orderly (s : State) a2 : Orderly s (headlandPoll s a2) := by
  induction a2 generalizing s with
  | zero => exact orderly_refl s
  | succ n ih =>
    unfold headlandPoll
    split
    · exact orderly_refl s
    · exact orderly_trans (orderly_trans (fw_orderly ..) (fromSkerry_orderly ..)) (ih _)

end Sys2Proof.Machine
end

