-- ==== Sys2Proof/Laws/State.lean ====
section
/-! SUPPORT. What the named operations leave alone, field by field, and what a read after them gives. -/

namespace Sys2Proof.Machine
open Sys2Proof

/-! ### `wr`: R8: hardware writes a register. -/

@[simp] theorem wr_pending (s : State) (a : Nat) (v : Word) : (wr s a v).pending = s.pending := rfl
@[simp] theorem wr_mem (s : State) (a : Nat) (v : Word) : (wr s a v).mem = s.mem := rfl
@[simp] theorem wr_cores (s : State) (a : Nat) (v : Word) : (wr s a v).cores = s.cores := rfl
@[simp] theorem wr_clus (s : State) (a : Nat) (v : Word) : (wr s a v).clus = s.clus := rfl
@[simp] theorem wr_eng (s : State) (a : Nat) (v : Word) : (wr s a v).eng = s.eng := rfl
@[simp] theorem wr_cross (s : State) (a : Nat) (v : Word) : (wr s a v).cross = s.cross := rfl
@[simp] theorem wr_rasEvt (s : State) (a : Nat) (v : Word) : (wr s a v).rasEvt = s.rasEvt := rfl
@[simp] theorem wr_fw (s : State) (a : Nat) (v : Word) : (wr s a v).fw = s.fw := rfl
@[simp] theorem wr_lk (s : State) (a : Nat) (v : Word) : (wr s a v).lk = s.lk := rfl
@[simp] theorem wr_dma (s : State) (a : Nat) (v : Word) : (wr s a v).dma = s.dma := rfl
@[simp] theorem wr_csi (s : State) (a : Nat) (v : Word) : (wr s a v).csi = s.csi := rfl
@[simp] theorem wr_vid (s : State) (a : Nat) (v : Word) : (wr s a v).vid = s.vid := rfl
@[simp] theorem wr_hp (s : State) (a : Nat) (v : Word) : (wr s a v).hp = s.hp := rfl
@[simp] theorem wr_root (s : State) (a : Nat) (v : Word) : (wr s a v).root = s.root := rfl
@[simp] theorem wr_ras (s : State) (a : Nat) (v : Word) : (wr s a v).ras = s.ras := rfl
@[simp] theorem wr_pwr (s : State) (a : Nat) (v : Word) : (wr s a v).pwr = s.pwr := rfl
@[simp] theorem wr_io (s : State) (a : Nat) (v : Word) : (wr s a v).io = s.io := rfl
@[simp] theorem wr_logThr (s : State) (a : Nat) (v : Word) : (wr s a v).logThr = s.logThr := rfl
@[simp] theorem wr_trace (s : State) (a : Nat) (v : Word) : (wr s a v).trace = s.trace := rfl
@[simp] theorem wr_ns (s : State) (a : Nat) (v : Word) : (wr s a v).ns = s.ns := rfl
@[simp] theorem wr_frac (s : State) (a : Nat) (v : Word) : (wr s a v).frac = s.frac := rfl
@[simp] theorem wr_free (s : State) (a : Nat) (v : Word) : (wr s a v).free = s.free := rfl

/-! ### `wrF`: A field of a register is written. -/

@[simp] theorem wrF_pending (s : State) (a hi lo v : Nat) : (wrF s a hi lo v).pending = s.pending := rfl
@[simp] theorem wrF_mem (s : State) (a hi lo v : Nat) : (wrF s a hi lo v).mem = s.mem := rfl
@[simp] theorem wrF_cores (s : State) (a hi lo v : Nat) : (wrF s a hi lo v).cores = s.cores := rfl
@[simp] theorem wrF_clus (s : State) (a hi lo v : Nat) : (wrF s a hi lo v).clus = s.clus := rfl
@[simp] theorem wrF_eng (s : State) (a hi lo v : Nat) : (wrF s a hi lo v).eng = s.eng := rfl
@[simp] theorem wrF_cross (s : State) (a hi lo v : Nat) : (wrF s a hi lo v).cross = s.cross := rfl
@[simp] theorem wrF_rasEvt (s : State) (a hi lo v : Nat) : (wrF s a hi lo v).rasEvt = s.rasEvt := rfl
@[simp] theorem wrF_fw (s : State) (a hi lo v : Nat) : (wrF s a hi lo v).fw = s.fw := rfl
@[simp] theorem wrF_lk (s : State) (a hi lo v : Nat) : (wrF s a hi lo v).lk = s.lk := rfl
@[simp] theorem wrF_dma (s : State) (a hi lo v : Nat) : (wrF s a hi lo v).dma = s.dma := rfl
@[simp] theorem wrF_csi (s : State) (a hi lo v : Nat) : (wrF s a hi lo v).csi = s.csi := rfl
@[simp] theorem wrF_vid (s : State) (a hi lo v : Nat) : (wrF s a hi lo v).vid = s.vid := rfl
@[simp] theorem wrF_hp (s : State) (a hi lo v : Nat) : (wrF s a hi lo v).hp = s.hp := rfl
@[simp] theorem wrF_root (s : State) (a hi lo v : Nat) : (wrF s a hi lo v).root = s.root := rfl
@[simp] theorem wrF_ras (s : State) (a hi lo v : Nat) : (wrF s a hi lo v).ras = s.ras := rfl
@[simp] theorem wrF_pwr (s : State) (a hi lo v : Nat) : (wrF s a hi lo v).pwr = s.pwr := rfl
@[simp] theorem wrF_io (s : State) (a hi lo v : Nat) : (wrF s a hi lo v).io = s.io := rfl
@[simp] theorem wrF_logThr (s : State) (a hi lo v : Nat) : (wrF s a hi lo v).logThr = s.logThr := rfl
@[simp] theorem wrF_trace (s : State) (a hi lo v : Nat) : (wrF s a hi lo v).trace = s.trace := rfl
@[simp] theorem wrF_ns (s : State) (a hi lo v : Nat) : (wrF s a hi lo v).ns = s.ns := rfl
@[simp] theorem wrF_frac (s : State) (a hi lo v : Nat) : (wrF s a hi lo v).frac = s.frac := rfl
@[simp] theorem wrF_free (s : State) (a hi lo v : Nat) : (wrF s a hi lo v).free = s.free := rfl

/-! ### `wrB`: A bit of a register is written. -/

@[simp] theorem wrB_pending (s : State) (a i : Nat) (b : Bool) : (wrB s a i b).pending = s.pending := rfl
@[simp] theorem wrB_mem (s : State) (a i : Nat) (b : Bool) : (wrB s a i b).mem = s.mem := rfl
@[simp] theorem wrB_cores (s : State) (a i : Nat) (b : Bool) : (wrB s a i b).cores = s.cores := rfl
@[simp] theorem wrB_clus (s : State) (a i : Nat) (b : Bool) : (wrB s a i b).clus = s.clus := rfl
@[simp] theorem wrB_eng (s : State) (a i : Nat) (b : Bool) : (wrB s a i b).eng = s.eng := rfl
@[simp] theorem wrB_cross (s : State) (a i : Nat) (b : Bool) : (wrB s a i b).cross = s.cross := rfl
@[simp] theorem wrB_rasEvt (s : State) (a i : Nat) (b : Bool) : (wrB s a i b).rasEvt = s.rasEvt := rfl
@[simp] theorem wrB_fw (s : State) (a i : Nat) (b : Bool) : (wrB s a i b).fw = s.fw := rfl
@[simp] theorem wrB_lk (s : State) (a i : Nat) (b : Bool) : (wrB s a i b).lk = s.lk := rfl
@[simp] theorem wrB_dma (s : State) (a i : Nat) (b : Bool) : (wrB s a i b).dma = s.dma := rfl
@[simp] theorem wrB_csi (s : State) (a i : Nat) (b : Bool) : (wrB s a i b).csi = s.csi := rfl
@[simp] theorem wrB_vid (s : State) (a i : Nat) (b : Bool) : (wrB s a i b).vid = s.vid := rfl
@[simp] theorem wrB_hp (s : State) (a i : Nat) (b : Bool) : (wrB s a i b).hp = s.hp := rfl
@[simp] theorem wrB_root (s : State) (a i : Nat) (b : Bool) : (wrB s a i b).root = s.root := rfl
@[simp] theorem wrB_ras (s : State) (a i : Nat) (b : Bool) : (wrB s a i b).ras = s.ras := rfl
@[simp] theorem wrB_pwr (s : State) (a i : Nat) (b : Bool) : (wrB s a i b).pwr = s.pwr := rfl
@[simp] theorem wrB_io (s : State) (a i : Nat) (b : Bool) : (wrB s a i b).io = s.io := rfl
@[simp] theorem wrB_logThr (s : State) (a i : Nat) (b : Bool) : (wrB s a i b).logThr = s.logThr := rfl
@[simp] theorem wrB_trace (s : State) (a i : Nat) (b : Bool) : (wrB s a i b).trace = s.trace := rfl
@[simp] theorem wrB_ns (s : State) (a i : Nat) (b : Bool) : (wrB s a i b).ns = s.ns := rfl
@[simp] theorem wrB_frac (s : State) (a i : Nat) (b : Bool) : (wrB s a i b).frac = s.frac := rfl
@[simp] theorem wrB_free (s : State) (a i : Nat) (b : Bool) : (wrB s a i b).free = s.free := rfl

/-! ### `incr`: R14: a counter advances. -/

@[simp] theorem incr_pending (s : State) (a : Nat) : (incr s a).pending = s.pending := rfl
@[simp] theorem incr_mem (s : State) (a : Nat) : (incr s a).mem = s.mem := rfl
@[simp] theorem incr_cores (s : State) (a : Nat) : (incr s a).cores = s.cores := rfl
@[simp] theorem incr_clus (s : State) (a : Nat) : (incr s a).clus = s.clus := rfl
@[simp] theorem incr_eng (s : State) (a : Nat) : (incr s a).eng = s.eng := rfl
@[simp] theorem incr_cross (s : State) (a : Nat) : (incr s a).cross = s.cross := rfl
@[simp] theorem incr_rasEvt (s : State) (a : Nat) : (incr s a).rasEvt = s.rasEvt := rfl
@[simp] theorem incr_fw (s : State) (a : Nat) : (incr s a).fw = s.fw := rfl
@[simp] theorem incr_lk (s : State) (a : Nat) : (incr s a).lk = s.lk := rfl
@[simp] theorem incr_dma (s : State) (a : Nat) : (incr s a).dma = s.dma := rfl
@[simp] theorem incr_csi (s : State) (a : Nat) : (incr s a).csi = s.csi := rfl
@[simp] theorem incr_vid (s : State) (a : Nat) : (incr s a).vid = s.vid := rfl
@[simp] theorem incr_hp (s : State) (a : Nat) : (incr s a).hp = s.hp := rfl
@[simp] theorem incr_root (s : State) (a : Nat) : (incr s a).root = s.root := rfl
@[simp] theorem incr_ras (s : State) (a : Nat) : (incr s a).ras = s.ras := rfl
@[simp] theorem incr_pwr (s : State) (a : Nat) : (incr s a).pwr = s.pwr := rfl
@[simp] theorem incr_io (s : State) (a : Nat) : (incr s a).io = s.io := rfl
@[simp] theorem incr_logThr (s : State) (a : Nat) : (incr s a).logThr = s.logThr := rfl
@[simp] theorem incr_trace (s : State) (a : Nat) : (incr s a).trace = s.trace := rfl
@[simp] theorem incr_ns (s : State) (a : Nat) : (incr s a).ns = s.ns := rfl
@[simp] theorem incr_frac (s : State) (a : Nat) : (incr s a).frac = s.frac := rfl
@[simp] theorem incr_free (s : State) (a : Nat) : (incr s a).free = s.free := rfl

/-! ### `incrBy`: R14: a counter advances by n. -/

@[simp] theorem incrBy_pending (s : State) (a n : Nat) : (incrBy s a n).pending = s.pending := rfl
@[simp] theorem incrBy_mem (s : State) (a n : Nat) : (incrBy s a n).mem = s.mem := rfl
@[simp] theorem incrBy_cores (s : State) (a n : Nat) : (incrBy s a n).cores = s.cores := rfl
@[simp] theorem incrBy_clus (s : State) (a n : Nat) : (incrBy s a n).clus = s.clus := rfl
@[simp] theorem incrBy_eng (s : State) (a n : Nat) : (incrBy s a n).eng = s.eng := rfl
@[simp] theorem incrBy_cross (s : State) (a n : Nat) : (incrBy s a n).cross = s.cross := rfl
@[simp] theorem incrBy_rasEvt (s : State) (a n : Nat) : (incrBy s a n).rasEvt = s.rasEvt := rfl
@[simp] theorem incrBy_fw (s : State) (a n : Nat) : (incrBy s a n).fw = s.fw := rfl
@[simp] theorem incrBy_lk (s : State) (a n : Nat) : (incrBy s a n).lk = s.lk := rfl
@[simp] theorem incrBy_dma (s : State) (a n : Nat) : (incrBy s a n).dma = s.dma := rfl
@[simp] theorem incrBy_csi (s : State) (a n : Nat) : (incrBy s a n).csi = s.csi := rfl
@[simp] theorem incrBy_vid (s : State) (a n : Nat) : (incrBy s a n).vid = s.vid := rfl
@[simp] theorem incrBy_hp (s : State) (a n : Nat) : (incrBy s a n).hp = s.hp := rfl
@[simp] theorem incrBy_root (s : State) (a n : Nat) : (incrBy s a n).root = s.root := rfl
@[simp] theorem incrBy_ras (s : State) (a n : Nat) : (incrBy s a n).ras = s.ras := rfl
@[simp] theorem incrBy_pwr (s : State) (a n : Nat) : (incrBy s a n).pwr = s.pwr := rfl
@[simp] theorem incrBy_io (s : State) (a n : Nat) : (incrBy s a n).io = s.io := rfl
@[simp] theorem incrBy_logThr (s : State) (a n : Nat) : (incrBy s a n).logThr = s.logThr := rfl
@[simp] theorem incrBy_trace (s : State) (a n : Nat) : (incrBy s a n).trace = s.trace := rfl
@[simp] theorem incrBy_ns (s : State) (a n : Nat) : (incrBy s a n).ns = s.ns := rfl
@[simp] theorem incrBy_frac (s : State) (a n : Nat) : (incrBy s a n).frac = s.frac := rfl
@[simp] theorem incrBy_free (s : State) (a n : Nat) : (incrBy s a n).free = s.free := rfl

/-! ### `wr64`: A LO and a HI register are written. -/

@[simp] theorem wr64_pending (s : State) (lo hi v : Nat) : (wr64 s lo hi v).pending = s.pending := rfl
@[simp] theorem wr64_mem (s : State) (lo hi v : Nat) : (wr64 s lo hi v).mem = s.mem := rfl
@[simp] theorem wr64_cores (s : State) (lo hi v : Nat) : (wr64 s lo hi v).cores = s.cores := rfl
@[simp] theorem wr64_clus (s : State) (lo hi v : Nat) : (wr64 s lo hi v).clus = s.clus := rfl
@[simp] theorem wr64_eng (s : State) (lo hi v : Nat) : (wr64 s lo hi v).eng = s.eng := rfl
@[simp] theorem wr64_cross (s : State) (lo hi v : Nat) : (wr64 s lo hi v).cross = s.cross := rfl
@[simp] theorem wr64_rasEvt (s : State) (lo hi v : Nat) : (wr64 s lo hi v).rasEvt = s.rasEvt := rfl
@[simp] theorem wr64_fw (s : State) (lo hi v : Nat) : (wr64 s lo hi v).fw = s.fw := rfl
@[simp] theorem wr64_lk (s : State) (lo hi v : Nat) : (wr64 s lo hi v).lk = s.lk := rfl
@[simp] theorem wr64_dma (s : State) (lo hi v : Nat) : (wr64 s lo hi v).dma = s.dma := rfl
@[simp] theorem wr64_csi (s : State) (lo hi v : Nat) : (wr64 s lo hi v).csi = s.csi := rfl
@[simp] theorem wr64_vid (s : State) (lo hi v : Nat) : (wr64 s lo hi v).vid = s.vid := rfl
@[simp] theorem wr64_hp (s : State) (lo hi v : Nat) : (wr64 s lo hi v).hp = s.hp := rfl
@[simp] theorem wr64_root (s : State) (lo hi v : Nat) : (wr64 s lo hi v).root = s.root := rfl
@[simp] theorem wr64_ras (s : State) (lo hi v : Nat) : (wr64 s lo hi v).ras = s.ras := rfl
@[simp] theorem wr64_pwr (s : State) (lo hi v : Nat) : (wr64 s lo hi v).pwr = s.pwr := rfl
@[simp] theorem wr64_io (s : State) (lo hi v : Nat) : (wr64 s lo hi v).io = s.io := rfl
@[simp] theorem wr64_logThr (s : State) (lo hi v : Nat) : (wr64 s lo hi v).logThr = s.logThr := rfl
@[simp] theorem wr64_trace (s : State) (lo hi v : Nat) : (wr64 s lo hi v).trace = s.trace := rfl
@[simp] theorem wr64_ns (s : State) (lo hi v : Nat) : (wr64 s lo hi v).ns = s.ns := rfl
@[simp] theorem wr64_frac (s : State) (lo hi v : Nat) : (wr64 s lo hi v).frac = s.frac := rfl
@[simp] theorem wr64_free (s : State) (lo hi v : Nat) : (wr64 s lo hi v).free = s.free := rfl

/-! ### `cfgDrop`: R20: CFG_WR_DROP is set. -/

@[simp] theorem cfgDrop_pending (s : State) (k : Nat) : (cfgDrop s k).pending = s.pending := rfl
@[simp] theorem cfgDrop_mem (s : State) (k : Nat) : (cfgDrop s k).mem = s.mem := rfl
@[simp] theorem cfgDrop_cores (s : State) (k : Nat) : (cfgDrop s k).cores = s.cores := rfl
@[simp] theorem cfgDrop_clus (s : State) (k : Nat) : (cfgDrop s k).clus = s.clus := rfl
@[simp] theorem cfgDrop_eng (s : State) (k : Nat) : (cfgDrop s k).eng = s.eng := rfl
@[simp] theorem cfgDrop_cross (s : State) (k : Nat) : (cfgDrop s k).cross = s.cross := rfl
@[simp] theorem cfgDrop_rasEvt (s : State) (k : Nat) : (cfgDrop s k).rasEvt = s.rasEvt := rfl
@[simp] theorem cfgDrop_fw (s : State) (k : Nat) : (cfgDrop s k).fw = s.fw := rfl
@[simp] theorem cfgDrop_lk (s : State) (k : Nat) : (cfgDrop s k).lk = s.lk := rfl
@[simp] theorem cfgDrop_dma (s : State) (k : Nat) : (cfgDrop s k).dma = s.dma := rfl
@[simp] theorem cfgDrop_csi (s : State) (k : Nat) : (cfgDrop s k).csi = s.csi := rfl
@[simp] theorem cfgDrop_vid (s : State) (k : Nat) : (cfgDrop s k).vid = s.vid := rfl
@[simp] theorem cfgDrop_hp (s : State) (k : Nat) : (cfgDrop s k).hp = s.hp := rfl
@[simp] theorem cfgDrop_root (s : State) (k : Nat) : (cfgDrop s k).root = s.root := rfl
@[simp] theorem cfgDrop_ras (s : State) (k : Nat) : (cfgDrop s k).ras = s.ras := rfl
@[simp] theorem cfgDrop_pwr (s : State) (k : Nat) : (cfgDrop s k).pwr = s.pwr := rfl
@[simp] theorem cfgDrop_io (s : State) (k : Nat) : (cfgDrop s k).io = s.io := rfl
@[simp] theorem cfgDrop_logThr (s : State) (k : Nat) : (cfgDrop s k).logThr = s.logThr := rfl
@[simp] theorem cfgDrop_trace (s : State) (k : Nat) : (cfgDrop s k).trace = s.trace := rfl
@[simp] theorem cfgDrop_ns (s : State) (k : Nat) : (cfgDrop s k).ns = s.ns := rfl
@[simp] theorem cfgDrop_frac (s : State) (k : Nat) : (cfgDrop s k).frac = s.frac := rfl
@[simp] theorem cfgDrop_free (s : State) (k : Nat) : (cfgDrop s k).free = s.free := rfl

/-! ### `holdWrite`: R19: a write is held. -/

@[simp] theorem holdWrite_pending (s : State) (a : Nat) (v : Word) : (holdWrite s a v).pending = s.pending := rfl
@[simp] theorem holdWrite_mem (s : State) (a : Nat) (v : Word) : (holdWrite s a v).mem = s.mem := rfl
@[simp] theorem holdWrite_cores (s : State) (a : Nat) (v : Word) : (holdWrite s a v).cores = s.cores := rfl
@[simp] theorem holdWrite_clus (s : State) (a : Nat) (v : Word) : (holdWrite s a v).clus = s.clus := rfl
@[simp] theorem holdWrite_eng (s : State) (a : Nat) (v : Word) : (holdWrite s a v).eng = s.eng := rfl
@[simp] theorem holdWrite_cross (s : State) (a : Nat) (v : Word) : (holdWrite s a v).cross = s.cross := rfl
@[simp] theorem holdWrite_rasEvt (s : State) (a : Nat) (v : Word) : (holdWrite s a v).rasEvt = s.rasEvt := rfl
@[simp] theorem holdWrite_fw (s : State) (a : Nat) (v : Word) : (holdWrite s a v).fw = s.fw := rfl
@[simp] theorem holdWrite_lk (s : State) (a : Nat) (v : Word) : (holdWrite s a v).lk = s.lk := rfl
@[simp] theorem holdWrite_dma (s : State) (a : Nat) (v : Word) : (holdWrite s a v).dma = s.dma := rfl
@[simp] theorem holdWrite_csi (s : State) (a : Nat) (v : Word) : (holdWrite s a v).csi = s.csi := rfl
@[simp] theorem holdWrite_vid (s : State) (a : Nat) (v : Word) : (holdWrite s a v).vid = s.vid := rfl
@[simp] theorem holdWrite_hp (s : State) (a : Nat) (v : Word) : (holdWrite s a v).hp = s.hp := rfl
@[simp] theorem holdWrite_root (s : State) (a : Nat) (v : Word) : (holdWrite s a v).root = s.root := rfl
@[simp] theorem holdWrite_ras (s : State) (a : Nat) (v : Word) : (holdWrite s a v).ras = s.ras := rfl
@[simp] theorem holdWrite_pwr (s : State) (a : Nat) (v : Word) : (holdWrite s a v).pwr = s.pwr := rfl
@[simp] theorem holdWrite_io (s : State) (a : Nat) (v : Word) : (holdWrite s a v).io = s.io := rfl
@[simp] theorem holdWrite_logThr (s : State) (a : Nat) (v : Word) : (holdWrite s a v).logThr = s.logThr := rfl
@[simp] theorem holdWrite_trace (s : State) (a : Nat) (v : Word) : (holdWrite s a v).trace = s.trace := rfl
@[simp] theorem holdWrite_ns (s : State) (a : Nat) (v : Word) : (holdWrite s a v).ns = s.ns := rfl
@[simp] theorem holdWrite_frac (s : State) (a : Nat) (v : Word) : (holdWrite s a v).frac = s.frac := rfl
@[simp] theorem holdWrite_free (s : State) (a : Nat) (v : Word) : (holdWrite s a v).free = s.free := rfl

/-! ### `act`: R478: an activity counter advances. -/

@[simp] theorem act_pending (s : State) (src e c : Nat) : (act s src e c).pending = s.pending := rfl
@[simp] theorem act_mem (s : State) (src e c : Nat) : (act s src e c).mem = s.mem := rfl
@[simp] theorem act_cores (s : State) (src e c : Nat) : (act s src e c).cores = s.cores := rfl
@[simp] theorem act_clus (s : State) (src e c : Nat) : (act s src e c).clus = s.clus := rfl
@[simp] theorem act_eng (s : State) (src e c : Nat) : (act s src e c).eng = s.eng := rfl
@[simp] theorem act_cross (s : State) (src e c : Nat) : (act s src e c).cross = s.cross := rfl
@[simp] theorem act_rasEvt (s : State) (src e c : Nat) : (act s src e c).rasEvt = s.rasEvt := rfl
@[simp] theorem act_fw (s : State) (src e c : Nat) : (act s src e c).fw = s.fw := rfl
@[simp] theorem act_lk (s : State) (src e c : Nat) : (act s src e c).lk = s.lk := rfl
@[simp] theorem act_dma (s : State) (src e c : Nat) : (act s src e c).dma = s.dma := rfl
@[simp] theorem act_csi (s : State) (src e c : Nat) : (act s src e c).csi = s.csi := rfl
@[simp] theorem act_vid (s : State) (src e c : Nat) : (act s src e c).vid = s.vid := rfl
@[simp] theorem act_hp (s : State) (src e c : Nat) : (act s src e c).hp = s.hp := rfl
@[simp] theorem act_root (s : State) (src e c : Nat) : (act s src e c).root = s.root := rfl
@[simp] theorem act_ras (s : State) (src e c : Nat) : (act s src e c).ras = s.ras := rfl
@[simp] theorem act_pwr (s : State) (src e c : Nat) : (act s src e c).pwr = s.pwr := rfl
@[simp] theorem act_io (s : State) (src e c : Nat) : (act s src e c).io = s.io := rfl
@[simp] theorem act_logThr (s : State) (src e c : Nat) : (act s src e c).logThr = s.logThr := rfl
@[simp] theorem act_trace (s : State) (src e c : Nat) : (act s src e c).trace = s.trace := rfl
@[simp] theorem act_ns (s : State) (src e c : Nat) : (act s src e c).ns = s.ns := rfl
@[simp] theorem act_frac (s : State) (src e c : Nat) : (act s src e c).frac = s.frac := rfl
@[simp] theorem act_free (s : State) (src e c : Nat) : (act s src e c).free = s.free := rfl

/-! ### `setCore`: A core is replaced. -/

@[simp] theorem setCore_pending (s : State) (n : Nat) (c : Core) : (setCore s n c).pending = s.pending := rfl
@[simp] theorem setCore_rf (s : State) (n : Nat) (c : Core) : (setCore s n c).rf = s.rf := rfl
@[simp] theorem setCore_mem (s : State) (n : Nat) (c : Core) : (setCore s n c).mem = s.mem := rfl
@[simp] theorem setCore_clus (s : State) (n : Nat) (c : Core) : (setCore s n c).clus = s.clus := rfl
@[simp] theorem setCore_eng (s : State) (n : Nat) (c : Core) : (setCore s n c).eng = s.eng := rfl
@[simp] theorem setCore_cross (s : State) (n : Nat) (c : Core) : (setCore s n c).cross = s.cross := rfl
@[simp] theorem setCore_rasEvt (s : State) (n : Nat) (c : Core) : (setCore s n c).rasEvt = s.rasEvt := rfl
@[simp] theorem setCore_fw (s : State) (n : Nat) (c : Core) : (setCore s n c).fw = s.fw := rfl
@[simp] theorem setCore_lk (s : State) (n : Nat) (c : Core) : (setCore s n c).lk = s.lk := rfl
@[simp] theorem setCore_dma (s : State) (n : Nat) (c : Core) : (setCore s n c).dma = s.dma := rfl
@[simp] theorem setCore_csi (s : State) (n : Nat) (c : Core) : (setCore s n c).csi = s.csi := rfl
@[simp] theorem setCore_vid (s : State) (n : Nat) (c : Core) : (setCore s n c).vid = s.vid := rfl
@[simp] theorem setCore_hp (s : State) (n : Nat) (c : Core) : (setCore s n c).hp = s.hp := rfl
@[simp] theorem setCore_root (s : State) (n : Nat) (c : Core) : (setCore s n c).root = s.root := rfl
@[simp] theorem setCore_ras (s : State) (n : Nat) (c : Core) : (setCore s n c).ras = s.ras := rfl
@[simp] theorem setCore_pwr (s : State) (n : Nat) (c : Core) : (setCore s n c).pwr = s.pwr := rfl
@[simp] theorem setCore_io (s : State) (n : Nat) (c : Core) : (setCore s n c).io = s.io := rfl
@[simp] theorem setCore_logThr (s : State) (n : Nat) (c : Core) : (setCore s n c).logThr = s.logThr := rfl
@[simp] theorem setCore_trace (s : State) (n : Nat) (c : Core) : (setCore s n c).trace = s.trace := rfl
@[simp] theorem setCore_ns (s : State) (n : Nat) (c : Core) : (setCore s n c).ns = s.ns := rfl
@[simp] theorem setCore_frac (s : State) (n : Nat) (c : Core) : (setCore s n c).frac = s.frac := rfl
@[simp] theorem setCore_free (s : State) (n : Nat) (c : Core) : (setCore s n c).free = s.free := rfl

/-! ### `updCore`: A core changes. -/

@[simp] theorem updCore_pending (s : State) (n : Nat) (f : Core → Core) : (updCore s n f).pending = s.pending := rfl
@[simp] theorem updCore_rf (s : State) (n : Nat) (f : Core → Core) : (updCore s n f).rf = s.rf := rfl
@[simp] theorem updCore_mem (s : State) (n : Nat) (f : Core → Core) : (updCore s n f).mem = s.mem := rfl
@[simp] theorem updCore_clus (s : State) (n : Nat) (f : Core → Core) : (updCore s n f).clus = s.clus := rfl
@[simp] theorem updCore_eng (s : State) (n : Nat) (f : Core → Core) : (updCore s n f).eng = s.eng := rfl
@[simp] theorem updCore_cross (s : State) (n : Nat) (f : Core → Core) : (updCore s n f).cross = s.cross := rfl
@[simp] theorem updCore_rasEvt (s : State) (n : Nat) (f : Core → Core) : (updCore s n f).rasEvt = s.rasEvt := rfl
@[simp] theorem updCore_fw (s : State) (n : Nat) (f : Core → Core) : (updCore s n f).fw = s.fw := rfl
@[simp] theorem updCore_lk (s : State) (n : Nat) (f : Core → Core) : (updCore s n f).lk = s.lk := rfl
@[simp] theorem updCore_dma (s : State) (n : Nat) (f : Core → Core) : (updCore s n f).dma = s.dma := rfl
@[simp] theorem updCore_csi (s : State) (n : Nat) (f : Core → Core) : (updCore s n f).csi = s.csi := rfl
@[simp] theorem updCore_vid (s : State) (n : Nat) (f : Core → Core) : (updCore s n f).vid = s.vid := rfl
@[simp] theorem updCore_hp (s : State) (n : Nat) (f : Core → Core) : (updCore s n f).hp = s.hp := rfl
@[simp] theorem updCore_root (s : State) (n : Nat) (f : Core → Core) : (updCore s n f).root = s.root := rfl
@[simp] theorem updCore_ras (s : State) (n : Nat) (f : Core → Core) : (updCore s n f).ras = s.ras := rfl
@[simp] theorem updCore_pwr (s : State) (n : Nat) (f : Core → Core) : (updCore s n f).pwr = s.pwr := rfl
@[simp] theorem updCore_io (s : State) (n : Nat) (f : Core → Core) : (updCore s n f).io = s.io := rfl
@[simp] theorem updCore_logThr (s : State) (n : Nat) (f : Core → Core) : (updCore s n f).logThr = s.logThr := rfl
@[simp] theorem updCore_trace (s : State) (n : Nat) (f : Core → Core) : (updCore s n f).trace = s.trace := rfl
@[simp] theorem updCore_ns (s : State) (n : Nat) (f : Core → Core) : (updCore s n f).ns = s.ns := rfl
@[simp] theorem updCore_frac (s : State) (n : Nat) (f : Core → Core) : (updCore s n f).frac = s.frac := rfl
@[simp] theorem updCore_free (s : State) (n : Nat) (f : Core → Core) : (updCore s n f).free = s.free := rfl

/-! ### `pend`: R148: a result becomes due. -/

@[simp] theorem pend_pending (s : State) (n l : Nat) (w : PendW) : (pend s n l w).pending = s.pending := rfl
@[simp] theorem pend_rf (s : State) (n l : Nat) (w : PendW) : (pend s n l w).rf = s.rf := rfl
@[simp] theorem pend_mem (s : State) (n l : Nat) (w : PendW) : (pend s n l w).mem = s.mem := rfl
@[simp] theorem pend_clus (s : State) (n l : Nat) (w : PendW) : (pend s n l w).clus = s.clus := rfl
@[simp] theorem pend_eng (s : State) (n l : Nat) (w : PendW) : (pend s n l w).eng = s.eng := rfl
@[simp] theorem pend_cross (s : State) (n l : Nat) (w : PendW) : (pend s n l w).cross = s.cross := rfl
@[simp] theorem pend_rasEvt (s : State) (n l : Nat) (w : PendW) : (pend s n l w).rasEvt = s.rasEvt := rfl
@[simp] theorem pend_fw (s : State) (n l : Nat) (w : PendW) : (pend s n l w).fw = s.fw := rfl
@[simp] theorem pend_lk (s : State) (n l : Nat) (w : PendW) : (pend s n l w).lk = s.lk := rfl
@[simp] theorem pend_dma (s : State) (n l : Nat) (w : PendW) : (pend s n l w).dma = s.dma := rfl
@[simp] theorem pend_csi (s : State) (n l : Nat) (w : PendW) : (pend s n l w).csi = s.csi := rfl
@[simp] theorem pend_vid (s : State) (n l : Nat) (w : PendW) : (pend s n l w).vid = s.vid := rfl
@[simp] theorem pend_hp (s : State) (n l : Nat) (w : PendW) : (pend s n l w).hp = s.hp := rfl
@[simp] theorem pend_root (s : State) (n l : Nat) (w : PendW) : (pend s n l w).root = s.root := rfl
@[simp] theorem pend_ras (s : State) (n l : Nat) (w : PendW) : (pend s n l w).ras = s.ras := rfl
@[simp] theorem pend_pwr (s : State) (n l : Nat) (w : PendW) : (pend s n l w).pwr = s.pwr := rfl
@[simp] theorem pend_io (s : State) (n l : Nat) (w : PendW) : (pend s n l w).io = s.io := rfl
@[simp] theorem pend_logThr (s : State) (n l : Nat) (w : PendW) : (pend s n l w).logThr = s.logThr := rfl
@[simp] theorem pend_trace (s : State) (n l : Nat) (w : PendW) : (pend s n l w).trace = s.trace := rfl
@[simp] theorem pend_ns (s : State) (n l : Nat) (w : PendW) : (pend s n l w).ns = s.ns := rfl
@[simp] theorem pend_frac (s : State) (n l : Nat) (w : PendW) : (pend s n l w).frac = s.frac := rfl
@[simp] theorem pend_free (s : State) (n l : Nat) (w : PendW) : (pend s n l w).free = s.free := rfl

/-! ### `setClu`: A cluster is replaced. -/

@[simp] theorem setClu_pending (s : State) (k : Nat) (c : Cluster) : (setClu s k c).pending = s.pending := rfl
@[simp] theorem setClu_rf (s : State) (k : Nat) (c : Cluster) : (setClu s k c).rf = s.rf := rfl
@[simp] theorem setClu_mem (s : State) (k : Nat) (c : Cluster) : (setClu s k c).mem = s.mem := rfl
@[simp] theorem setClu_cores (s : State) (k : Nat) (c : Cluster) : (setClu s k c).cores = s.cores := rfl
@[simp] theorem setClu_eng (s : State) (k : Nat) (c : Cluster) : (setClu s k c).eng = s.eng := rfl
@[simp] theorem setClu_cross (s : State) (k : Nat) (c : Cluster) : (setClu s k c).cross = s.cross := rfl
@[simp] theorem setClu_rasEvt (s : State) (k : Nat) (c : Cluster) : (setClu s k c).rasEvt = s.rasEvt := rfl
@[simp] theorem setClu_fw (s : State) (k : Nat) (c : Cluster) : (setClu s k c).fw = s.fw := rfl
@[simp] theorem setClu_lk (s : State) (k : Nat) (c : Cluster) : (setClu s k c).lk = s.lk := rfl
@[simp] theorem setClu_dma (s : State) (k : Nat) (c : Cluster) : (setClu s k c).dma = s.dma := rfl
@[simp] theorem setClu_csi (s : State) (k : Nat) (c : Cluster) : (setClu s k c).csi = s.csi := rfl
@[simp] theorem setClu_vid (s : State) (k : Nat) (c : Cluster) : (setClu s k c).vid = s.vid := rfl
@[simp] theorem setClu_hp (s : State) (k : Nat) (c : Cluster) : (setClu s k c).hp = s.hp := rfl
@[simp] theorem setClu_root (s : State) (k : Nat) (c : Cluster) : (setClu s k c).root = s.root := rfl
@[simp] theorem setClu_ras (s : State) (k : Nat) (c : Cluster) : (setClu s k c).ras = s.ras := rfl
@[simp] theorem setClu_pwr (s : State) (k : Nat) (c : Cluster) : (setClu s k c).pwr = s.pwr := rfl
@[simp] theorem setClu_io (s : State) (k : Nat) (c : Cluster) : (setClu s k c).io = s.io := rfl
@[simp] theorem setClu_logThr (s : State) (k : Nat) (c : Cluster) : (setClu s k c).logThr = s.logThr := rfl
@[simp] theorem setClu_trace (s : State) (k : Nat) (c : Cluster) : (setClu s k c).trace = s.trace := rfl
@[simp] theorem setClu_ns (s : State) (k : Nat) (c : Cluster) : (setClu s k c).ns = s.ns := rfl
@[simp] theorem setClu_frac (s : State) (k : Nat) (c : Cluster) : (setClu s k c).frac = s.frac := rfl
@[simp] theorem setClu_free (s : State) (k : Nat) (c : Cluster) : (setClu s k c).free = s.free := rfl

/-! ### `updClu`: A cluster changes. -/

@[simp] theorem updClu_pending (s : State) (k : Nat) (f : Cluster → Cluster) : (updClu s k f).pending = s.pending := rfl
@[simp] theorem updClu_rf (s : State) (k : Nat) (f : Cluster → Cluster) : (updClu s k f).rf = s.rf := rfl
@[simp] theorem updClu_mem (s : State) (k : Nat) (f : Cluster → Cluster) : (updClu s k f).mem = s.mem := rfl
@[simp] theorem updClu_cores (s : State) (k : Nat) (f : Cluster → Cluster) : (updClu s k f).cores = s.cores := rfl
@[simp] theorem updClu_eng (s : State) (k : Nat) (f : Cluster → Cluster) : (updClu s k f).eng = s.eng := rfl
@[simp] theorem updClu_cross (s : State) (k : Nat) (f : Cluster → Cluster) : (updClu s k f).cross = s.cross := rfl
@[simp] theorem updClu_rasEvt (s : State) (k : Nat) (f : Cluster → Cluster) : (updClu s k f).rasEvt = s.rasEvt := rfl
@[simp] theorem updClu_fw (s : State) (k : Nat) (f : Cluster → Cluster) : (updClu s k f).fw = s.fw := rfl
@[simp] theorem updClu_lk (s : State) (k : Nat) (f : Cluster → Cluster) : (updClu s k f).lk = s.lk := rfl
@[simp] theorem updClu_dma (s : State) (k : Nat) (f : Cluster → Cluster) : (updClu s k f).dma = s.dma := rfl
@[simp] theorem updClu_csi (s : State) (k : Nat) (f : Cluster → Cluster) : (updClu s k f).csi = s.csi := rfl
@[simp] theorem updClu_vid (s : State) (k : Nat) (f : Cluster → Cluster) : (updClu s k f).vid = s.vid := rfl
@[simp] theorem updClu_hp (s : State) (k : Nat) (f : Cluster → Cluster) : (updClu s k f).hp = s.hp := rfl
@[simp] theorem updClu_root (s : State) (k : Nat) (f : Cluster → Cluster) : (updClu s k f).root = s.root := rfl
@[simp] theorem updClu_ras (s : State) (k : Nat) (f : Cluster → Cluster) : (updClu s k f).ras = s.ras := rfl
@[simp] theorem updClu_pwr (s : State) (k : Nat) (f : Cluster → Cluster) : (updClu s k f).pwr = s.pwr := rfl
@[simp] theorem updClu_io (s : State) (k : Nat) (f : Cluster → Cluster) : (updClu s k f).io = s.io := rfl
@[simp] theorem updClu_logThr (s : State) (k : Nat) (f : Cluster → Cluster) : (updClu s k f).logThr = s.logThr := rfl
@[simp] theorem updClu_trace (s : State) (k : Nat) (f : Cluster → Cluster) : (updClu s k f).trace = s.trace := rfl
@[simp] theorem updClu_ns (s : State) (k : Nat) (f : Cluster → Cluster) : (updClu s k f).ns = s.ns := rfl
@[simp] theorem updClu_frac (s : State) (k : Nat) (f : Cluster → Cluster) : (updClu s k f).frac = s.frac := rfl
@[simp] theorem updClu_free (s : State) (k : Nat) (f : Cluster → Cluster) : (updClu s k f).free = s.free := rfl

/-! ### `freeW`: A free word is drawn. -/

@[simp] theorem freeW_pending (s : State) : (freeW s).2.pending = s.pending := rfl
@[simp] theorem freeW_rf (s : State) : (freeW s).2.rf = s.rf := rfl
@[simp] theorem freeW_mem (s : State) : (freeW s).2.mem = s.mem := rfl
@[simp] theorem freeW_cores (s : State) : (freeW s).2.cores = s.cores := rfl
@[simp] theorem freeW_clus (s : State) : (freeW s).2.clus = s.clus := rfl
@[simp] theorem freeW_eng (s : State) : (freeW s).2.eng = s.eng := rfl
@[simp] theorem freeW_cross (s : State) : (freeW s).2.cross = s.cross := rfl
@[simp] theorem freeW_rasEvt (s : State) : (freeW s).2.rasEvt = s.rasEvt := rfl
@[simp] theorem freeW_fw (s : State) : (freeW s).2.fw = s.fw := rfl
@[simp] theorem freeW_lk (s : State) : (freeW s).2.lk = s.lk := rfl
@[simp] theorem freeW_dma (s : State) : (freeW s).2.dma = s.dma := rfl
@[simp] theorem freeW_csi (s : State) : (freeW s).2.csi = s.csi := rfl
@[simp] theorem freeW_vid (s : State) : (freeW s).2.vid = s.vid := rfl
@[simp] theorem freeW_hp (s : State) : (freeW s).2.hp = s.hp := rfl
@[simp] theorem freeW_root (s : State) : (freeW s).2.root = s.root := rfl
@[simp] theorem freeW_ras (s : State) : (freeW s).2.ras = s.ras := rfl
@[simp] theorem freeW_pwr (s : State) : (freeW s).2.pwr = s.pwr := rfl
@[simp] theorem freeW_io (s : State) : (freeW s).2.io = s.io := rfl
@[simp] theorem freeW_logThr (s : State) : (freeW s).2.logThr = s.logThr := rfl
@[simp] theorem freeW_trace (s : State) : (freeW s).2.trace = s.trace := rfl
@[simp] theorem freeW_ns (s : State) : (freeW s).2.ns = s.ns := rfl
@[simp] theorem freeW_frac (s : State) : (freeW s).2.frac = s.frac := rfl

/-! ### `freeN`: A free number is drawn. -/

@[simp] theorem freeN_pending (s : State) : (freeN s).2.pending = s.pending := rfl
@[simp] theorem freeN_rf (s : State) : (freeN s).2.rf = s.rf := rfl
@[simp] theorem freeN_mem (s : State) : (freeN s).2.mem = s.mem := rfl
@[simp] theorem freeN_cores (s : State) : (freeN s).2.cores = s.cores := rfl
@[simp] theorem freeN_clus (s : State) : (freeN s).2.clus = s.clus := rfl
@[simp] theorem freeN_eng (s : State) : (freeN s).2.eng = s.eng := rfl
@[simp] theorem freeN_cross (s : State) : (freeN s).2.cross = s.cross := rfl
@[simp] theorem freeN_rasEvt (s : State) : (freeN s).2.rasEvt = s.rasEvt := rfl
@[simp] theorem freeN_fw (s : State) : (freeN s).2.fw = s.fw := rfl
@[simp] theorem freeN_lk (s : State) : (freeN s).2.lk = s.lk := rfl
@[simp] theorem freeN_dma (s : State) : (freeN s).2.dma = s.dma := rfl
@[simp] theorem freeN_csi (s : State) : (freeN s).2.csi = s.csi := rfl
@[simp] theorem freeN_vid (s : State) : (freeN s).2.vid = s.vid := rfl
@[simp] theorem freeN_hp (s : State) : (freeN s).2.hp = s.hp := rfl
@[simp] theorem freeN_root (s : State) : (freeN s).2.root = s.root := rfl
@[simp] theorem freeN_ras (s : State) : (freeN s).2.ras = s.ras := rfl
@[simp] theorem freeN_pwr (s : State) : (freeN s).2.pwr = s.pwr := rfl
@[simp] theorem freeN_io (s : State) : (freeN s).2.io = s.io := rfl
@[simp] theorem freeN_logThr (s : State) : (freeN s).2.logThr = s.logThr := rfl
@[simp] theorem freeN_trace (s : State) : (freeN s).2.trace = s.trace := rfl
@[simp] theorem freeN_ns (s : State) : (freeN s).2.ns = s.ns := rfl
@[simp] theorem freeN_frac (s : State) : (freeN s).2.frac = s.frac := rfl

/-! ### `freeSkip`: Free values are drawn. -/

@[simp] theorem freeSkip_pending (s : State) (n : Nat) : (freeSkip s n).pending = s.pending := rfl
@[simp] theorem freeSkip_rf (s : State) (n : Nat) : (freeSkip s n).rf = s.rf := rfl
@[simp] theorem freeSkip_mem (s : State) (n : Nat) : (freeSkip s n).mem = s.mem := rfl
@[simp] theorem freeSkip_cores (s : State) (n : Nat) : (freeSkip s n).cores = s.cores := rfl
@[simp] theorem freeSkip_clus (s : State) (n : Nat) : (freeSkip s n).clus = s.clus := rfl
@[simp] theorem freeSkip_eng (s : State) (n : Nat) : (freeSkip s n).eng = s.eng := rfl
@[simp] theorem freeSkip_cross (s : State) (n : Nat) : (freeSkip s n).cross = s.cross := rfl
@[simp] theorem freeSkip_rasEvt (s : State) (n : Nat) : (freeSkip s n).rasEvt = s.rasEvt := rfl
@[simp] theorem freeSkip_fw (s : State) (n : Nat) : (freeSkip s n).fw = s.fw := rfl
@[simp] theorem freeSkip_lk (s : State) (n : Nat) : (freeSkip s n).lk = s.lk := rfl
@[simp] theorem freeSkip_dma (s : State) (n : Nat) : (freeSkip s n).dma = s.dma := rfl
@[simp] theorem freeSkip_csi (s : State) (n : Nat) : (freeSkip s n).csi = s.csi := rfl
@[simp] theorem freeSkip_vid (s : State) (n : Nat) : (freeSkip s n).vid = s.vid := rfl
@[simp] theorem freeSkip_hp (s : State) (n : Nat) : (freeSkip s n).hp = s.hp := rfl
@[simp] theorem freeSkip_root (s : State) (n : Nat) : (freeSkip s n).root = s.root := rfl
@[simp] theorem freeSkip_ras (s : State) (n : Nat) : (freeSkip s n).ras = s.ras := rfl
@[simp] theorem freeSkip_pwr (s : State) (n : Nat) : (freeSkip s n).pwr = s.pwr := rfl
@[simp] theorem freeSkip_io (s : State) (n : Nat) : (freeSkip s n).io = s.io := rfl
@[simp] theorem freeSkip_logThr (s : State) (n : Nat) : (freeSkip s n).logThr = s.logThr := rfl
@[simp] theorem freeSkip_trace (s : State) (n : Nat) : (freeSkip s n).trace = s.trace := rfl
@[simp] theorem freeSkip_ns (s : State) (n : Nat) : (freeSkip s n).ns = s.ns := rfl
@[simp] theorem freeSkip_frac (s : State) (n : Nat) : (freeSkip s n).frac = s.frac := rfl

/-! ### `slotPut`: R168: a slot changes. -/

@[simp] theorem slotPut_pending (s : State) (k : Nat) (v : Slot) : (slotPut s k v).pending = s.pending := rfl
@[simp] theorem slotPut_rf (s : State) (k : Nat) (v : Slot) : (slotPut s k v).rf = s.rf := rfl
@[simp] theorem slotPut_cores (s : State) (k : Nat) (v : Slot) : (slotPut s k v).cores = s.cores := rfl
@[simp] theorem slotPut_clus (s : State) (k : Nat) (v : Slot) : (slotPut s k v).clus = s.clus := rfl
@[simp] theorem slotPut_eng (s : State) (k : Nat) (v : Slot) : (slotPut s k v).eng = s.eng := rfl
@[simp] theorem slotPut_cross (s : State) (k : Nat) (v : Slot) : (slotPut s k v).cross = s.cross := rfl
@[simp] theorem slotPut_rasEvt (s : State) (k : Nat) (v : Slot) : (slotPut s k v).rasEvt = s.rasEvt := rfl
@[simp] theorem slotPut_fw (s : State) (k : Nat) (v : Slot) : (slotPut s k v).fw = s.fw := rfl
@[simp] theorem slotPut_lk (s : State) (k : Nat) (v : Slot) : (slotPut s k v).lk = s.lk := rfl
@[simp] theorem slotPut_dma (s : State) (k : Nat) (v : Slot) : (slotPut s k v).dma = s.dma := rfl
@[simp] theorem slotPut_csi (s : State) (k : Nat) (v : Slot) : (slotPut s k v).csi = s.csi := rfl
@[simp] theorem slotPut_vid (s : State) (k : Nat) (v : Slot) : (slotPut s k v).vid = s.vid := rfl
@[simp] theorem slotPut_hp (s : State) (k : Nat) (v : Slot) : (slotPut s k v).hp = s.hp := rfl
@[simp] theorem slotPut_root (s : State) (k : Nat) (v : Slot) : (slotPut s k v).root = s.root := rfl
@[simp] theorem slotPut_ras (s : State) (k : Nat) (v : Slot) : (slotPut s k v).ras = s.ras := rfl
@[simp] theorem slotPut_pwr (s : State) (k : Nat) (v : Slot) : (slotPut s k v).pwr = s.pwr := rfl
@[simp] theorem slotPut_io (s : State) (k : Nat) (v : Slot) : (slotPut s k v).io = s.io := rfl
@[simp] theorem slotPut_logThr (s : State) (k : Nat) (v : Slot) : (slotPut s k v).logThr = s.logThr := rfl
@[simp] theorem slotPut_trace (s : State) (k : Nat) (v : Slot) : (slotPut s k v).trace = s.trace := rfl
@[simp] theorem slotPut_ns (s : State) (k : Nat) (v : Slot) : (slotPut s k v).ns = s.ns := rfl
@[simp] theorem slotPut_frac (s : State) (k : Nat) (v : Slot) : (slotPut s k v).frac = s.frac := rfl
@[simp] theorem slotPut_free (s : State) (k : Nat) (v : Slot) : (slotPut s k v).free = s.free := rfl

/-! ### `slotTag`: R168: the tag of a slot changes. -/

@[simp] theorem slotTag_pending (s : State) (k : Nat) (t : Tag) : (slotTag s k t).pending = s.pending := rfl
@[simp] theorem slotTag_rf (s : State) (k : Nat) (t : Tag) : (slotTag s k t).rf = s.rf := rfl
@[simp] theorem slotTag_cores (s : State) (k : Nat) (t : Tag) : (slotTag s k t).cores = s.cores := rfl
@[simp] theorem slotTag_clus (s : State) (k : Nat) (t : Tag) : (slotTag s k t).clus = s.clus := rfl
@[simp] theorem slotTag_eng (s : State) (k : Nat) (t : Tag) : (slotTag s k t).eng = s.eng := rfl
@[simp] theorem slotTag_cross (s : State) (k : Nat) (t : Tag) : (slotTag s k t).cross = s.cross := rfl
@[simp] theorem slotTag_rasEvt (s : State) (k : Nat) (t : Tag) : (slotTag s k t).rasEvt = s.rasEvt := rfl
@[simp] theorem slotTag_fw (s : State) (k : Nat) (t : Tag) : (slotTag s k t).fw = s.fw := rfl
@[simp] theorem slotTag_lk (s : State) (k : Nat) (t : Tag) : (slotTag s k t).lk = s.lk := rfl
@[simp] theorem slotTag_dma (s : State) (k : Nat) (t : Tag) : (slotTag s k t).dma = s.dma := rfl
@[simp] theorem slotTag_csi (s : State) (k : Nat) (t : Tag) : (slotTag s k t).csi = s.csi := rfl
@[simp] theorem slotTag_vid (s : State) (k : Nat) (t : Tag) : (slotTag s k t).vid = s.vid := rfl
@[simp] theorem slotTag_hp (s : State) (k : Nat) (t : Tag) : (slotTag s k t).hp = s.hp := rfl
@[simp] theorem slotTag_root (s : State) (k : Nat) (t : Tag) : (slotTag s k t).root = s.root := rfl
@[simp] theorem slotTag_ras (s : State) (k : Nat) (t : Tag) : (slotTag s k t).ras = s.ras := rfl
@[simp] theorem slotTag_pwr (s : State) (k : Nat) (t : Tag) : (slotTag s k t).pwr = s.pwr := rfl
@[simp] theorem slotTag_io (s : State) (k : Nat) (t : Tag) : (slotTag s k t).io = s.io := rfl
@[simp] theorem slotTag_logThr (s : State) (k : Nat) (t : Tag) : (slotTag s k t).logThr = s.logThr := rfl
@[simp] theorem slotTag_trace (s : State) (k : Nat) (t : Tag) : (slotTag s k t).trace = s.trace := rfl
@[simp] theorem slotTag_ns (s : State) (k : Nat) (t : Tag) : (slotTag s k t).ns = s.ns := rfl
@[simp] theorem slotTag_frac (s : State) (k : Nat) (t : Tag) : (slotTag s k t).frac = s.frac := rfl
@[simp] theorem slotTag_free (s : State) (k : Nat) (t : Tag) : (slotTag s k t).free = s.free := rfl

/-! ### `ramPut`: Bytes are stored. -/

@[simp] theorem ramPut_pending (s : State) (a : Nat) (bs : List Byte) : (ramPut s a bs).pending = s.pending := rfl
@[simp] theorem ramPut_rf (s : State) (a : Nat) (bs : List Byte) : (ramPut s a bs).rf = s.rf := rfl
@[simp] theorem ramPut_cores (s : State) (a : Nat) (bs : List Byte) : (ramPut s a bs).cores = s.cores := rfl
@[simp] theorem ramPut_clus (s : State) (a : Nat) (bs : List Byte) : (ramPut s a bs).clus = s.clus := rfl
@[simp] theorem ramPut_eng (s : State) (a : Nat) (bs : List Byte) : (ramPut s a bs).eng = s.eng := rfl
@[simp] theorem ramPut_cross (s : State) (a : Nat) (bs : List Byte) : (ramPut s a bs).cross = s.cross := rfl
@[simp] theorem ramPut_rasEvt (s : State) (a : Nat) (bs : List Byte) : (ramPut s a bs).rasEvt = s.rasEvt := rfl
@[simp] theorem ramPut_fw (s : State) (a : Nat) (bs : List Byte) : (ramPut s a bs).fw = s.fw := rfl
@[simp] theorem ramPut_lk (s : State) (a : Nat) (bs : List Byte) : (ramPut s a bs).lk = s.lk := rfl
@[simp] theorem ramPut_dma (s : State) (a : Nat) (bs : List Byte) : (ramPut s a bs).dma = s.dma := rfl
@[simp] theorem ramPut_csi (s : State) (a : Nat) (bs : List Byte) : (ramPut s a bs).csi = s.csi := rfl
@[simp] theorem ramPut_vid (s : State) (a : Nat) (bs : List Byte) : (ramPut s a bs).vid = s.vid := rfl
@[simp] theorem ramPut_hp (s : State) (a : Nat) (bs : List Byte) : (ramPut s a bs).hp = s.hp := rfl
@[simp] theorem ramPut_root (s : State) (a : Nat) (bs : List Byte) : (ramPut s a bs).root = s.root := rfl
@[simp] theorem ramPut_ras (s : State) (a : Nat) (bs : List Byte) : (ramPut s a bs).ras = s.ras := rfl
@[simp] theorem ramPut_pwr (s : State) (a : Nat) (bs : List Byte) : (ramPut s a bs).pwr = s.pwr := rfl
@[simp] theorem ramPut_io (s : State) (a : Nat) (bs : List Byte) : (ramPut s a bs).io = s.io := rfl
@[simp] theorem ramPut_logThr (s : State) (a : Nat) (bs : List Byte) : (ramPut s a bs).logThr = s.logThr := rfl
@[simp] theorem ramPut_trace (s : State) (a : Nat) (bs : List Byte) : (ramPut s a bs).trace = s.trace := rfl
@[simp] theorem ramPut_ns (s : State) (a : Nat) (bs : List Byte) : (ramPut s a bs).ns = s.ns := rfl
@[simp] theorem ramPut_frac (s : State) (a : Nat) (bs : List Byte) : (ramPut s a bs).frac = s.frac := rfl
@[simp] theorem ramPut_free (s : State) (a : Nat) (bs : List Byte) : (ramPut s a bs).free = s.free := rfl

/-! ### `ramPutNat`: A little-endian number is stored. -/

@[simp] theorem ramPutNat_pending (s : State) (a n v : Nat) : (ramPutNat s a n v).pending = s.pending := rfl
@[simp] theorem ramPutNat_rf (s : State) (a n v : Nat) : (ramPutNat s a n v).rf = s.rf := rfl
@[simp] theorem ramPutNat_cores (s : State) (a n v : Nat) : (ramPutNat s a n v).cores = s.cores := rfl
@[simp] theorem ramPutNat_clus (s : State) (a n v : Nat) : (ramPutNat s a n v).clus = s.clus := rfl
@[simp] theorem ramPutNat_eng (s : State) (a n v : Nat) : (ramPutNat s a n v).eng = s.eng := rfl
@[simp] theorem ramPutNat_cross (s : State) (a n v : Nat) : (ramPutNat s a n v).cross = s.cross := rfl
@[simp] theorem ramPutNat_rasEvt (s : State) (a n v : Nat) : (ramPutNat s a n v).rasEvt = s.rasEvt := rfl
@[simp] theorem ramPutNat_fw (s : State) (a n v : Nat) : (ramPutNat s a n v).fw = s.fw := rfl
@[simp] theorem ramPutNat_lk (s : State) (a n v : Nat) : (ramPutNat s a n v).lk = s.lk := rfl
@[simp] theorem ramPutNat_dma (s : State) (a n v : Nat) : (ramPutNat s a n v).dma = s.dma := rfl
@[simp] theorem ramPutNat_csi (s : State) (a n v : Nat) : (ramPutNat s a n v).csi = s.csi := rfl
@[simp] theorem ramPutNat_vid (s : State) (a n v : Nat) : (ramPutNat s a n v).vid = s.vid := rfl
@[simp] theorem ramPutNat_hp (s : State) (a n v : Nat) : (ramPutNat s a n v).hp = s.hp := rfl
@[simp] theorem ramPutNat_root (s : State) (a n v : Nat) : (ramPutNat s a n v).root = s.root := rfl
@[simp] theorem ramPutNat_ras (s : State) (a n v : Nat) : (ramPutNat s a n v).ras = s.ras := rfl
@[simp] theorem ramPutNat_pwr (s : State) (a n v : Nat) : (ramPutNat s a n v).pwr = s.pwr := rfl
@[simp] theorem ramPutNat_io (s : State) (a n v : Nat) : (ramPutNat s a n v).io = s.io := rfl
@[simp] theorem ramPutNat_logThr (s : State) (a n v : Nat) : (ramPutNat s a n v).logThr = s.logThr := rfl
@[simp] theorem ramPutNat_trace (s : State) (a n v : Nat) : (ramPutNat s a n v).trace = s.trace := rfl
@[simp] theorem ramPutNat_ns (s : State) (a n v : Nat) : (ramPutNat s a n v).ns = s.ns := rfl
@[simp] theorem ramPutNat_frac (s : State) (a n v : Nat) : (ramPutNat s a n v).frac = s.frac := rfl
@[simp] theorem ramPutNat_free (s : State) (a n v : Nat) : (ramPutNat s a n v).free = s.free := rfl

/-! ### `poisPut`: R166: a poison flag is set. -/

@[simp] theorem poisPut_pending (s : State) (w : Nat) (b : Bool) : (poisPut s w b).pending = s.pending := rfl
@[simp] theorem poisPut_rf (s : State) (w : Nat) (b : Bool) : (poisPut s w b).rf = s.rf := rfl
@[simp] theorem poisPut_cores (s : State) (w : Nat) (b : Bool) : (poisPut s w b).cores = s.cores := rfl
@[simp] theorem poisPut_clus (s : State) (w : Nat) (b : Bool) : (poisPut s w b).clus = s.clus := rfl
@[simp] theorem poisPut_eng (s : State) (w : Nat) (b : Bool) : (poisPut s w b).eng = s.eng := rfl
@[simp] theorem poisPut_cross (s : State) (w : Nat) (b : Bool) : (poisPut s w b).cross = s.cross := rfl
@[simp] theorem poisPut_rasEvt (s : State) (w : Nat) (b : Bool) : (poisPut s w b).rasEvt = s.rasEvt := rfl
@[simp] theorem poisPut_fw (s : State) (w : Nat) (b : Bool) : (poisPut s w b).fw = s.fw := rfl
@[simp] theorem poisPut_lk (s : State) (w : Nat) (b : Bool) : (poisPut s w b).lk = s.lk := rfl
@[simp] theorem poisPut_dma (s : State) (w : Nat) (b : Bool) : (poisPut s w b).dma = s.dma := rfl
@[simp] theorem poisPut_csi (s : State) (w : Nat) (b : Bool) : (poisPut s w b).csi = s.csi := rfl
@[simp] theorem poisPut_vid (s : State) (w : Nat) (b : Bool) : (poisPut s w b).vid = s.vid := rfl
@[simp] theorem poisPut_hp (s : State) (w : Nat) (b : Bool) : (poisPut s w b).hp = s.hp := rfl
@[simp] theorem poisPut_root (s : State) (w : Nat) (b : Bool) : (poisPut s w b).root = s.root := rfl
@[simp] theorem poisPut_ras (s : State) (w : Nat) (b : Bool) : (poisPut s w b).ras = s.ras := rfl
@[simp] theorem poisPut_pwr (s : State) (w : Nat) (b : Bool) : (poisPut s w b).pwr = s.pwr := rfl
@[simp] theorem poisPut_io (s : State) (w : Nat) (b : Bool) : (poisPut s w b).io = s.io := rfl
@[simp] theorem poisPut_logThr (s : State) (w : Nat) (b : Bool) : (poisPut s w b).logThr = s.logThr := rfl
@[simp] theorem poisPut_trace (s : State) (w : Nat) (b : Bool) : (poisPut s w b).trace = s.trace := rfl
@[simp] theorem poisPut_ns (s : State) (w : Nat) (b : Bool) : (poisPut s w b).ns = s.ns := rfl
@[simp] theorem poisPut_frac (s : State) (w : Nat) (b : Bool) : (poisPut s w b).frac = s.frac := rfl
@[simp] theorem poisPut_free (s : State) (w : Nat) (b : Bool) : (poisPut s w b).free = s.free := rfl

/-! ### Parts of a field that an operation leaves alone -/

@[simp] theorem slotPut_sram (s : State) (k : Nat) (v : Slot) : (slotPut s k v).mem.sram = s.mem.sram := rfl
@[simp] theorem slotPut_dram (s : State) (k : Nat) (v : Slot) : (slotPut s k v).mem.dram = s.mem.dram := rfl
@[simp] theorem slotTag_sram (s : State) (k : Nat) (t : Tag) : (slotTag s k t).mem.sram = s.mem.sram := rfl
@[simp] theorem ramPut_slots (s : State) (a : Nat) (bs : List Byte) : (ramPut s a bs).mem.slots = s.mem.slots := rfl
@[simp] theorem ramPut_pois (s : State) (a : Nat) (bs : List Byte) : (ramPut s a bs).mem.pois = s.mem.pois := rfl
@[simp] theorem ramPut_dram (s : State) (a : Nat) (bs : List Byte) : (ramPut s a bs).mem.dram = s.mem.dram := rfl
@[simp] theorem poisPut_sram (s : State) (w : Nat) (b : Bool) : (poisPut s w b).mem.sram = s.mem.sram := rfl

/-! ### Reads of registers -/

theorem rd_def (s : State) (a : Nat) : rd s a = mget regReset s.rf.val a := rfl

/-- A read depends on the register file alone. -/
theorem rd_congr {s t : State} (h : t.rf = s.rf) (a : Nat) : rd t a = rd s a := by rw [rd_def, rd_def, h]

/-- A write keeps the canonical form of the register file. -/
theorem wr_regs {s : State} (a : Nat) (v : Word) (h : mwf regReset s.rf.val = true) : mwf regReset (wr s a v).rf.val = true :=
  mput_wf a v h

theorem wrF_regs {s : State} (a hi lo v : Nat) (h : mwf regReset s.rf.val = true) :
    mwf regReset (wrF s a hi lo v).rf.val = true := mput_wf a _ h

theorem wrB_regs {s : State} (a i : Nat) (b : Bool) (h : mwf regReset s.rf.val = true) :
    mwf regReset (wrB s a i b).rf.val = true := mput_wf a _ h

theorem incr_regs {s : State} (a : Nat) (h : mwf regReset s.rf.val = true) : mwf regReset (incr s a).rf.val = true :=
  mput_wf a _ h

theorem incrBy_regs {s : State} (a n : Nat) (h : mwf regReset s.rf.val = true) : mwf regReset (incrBy s a n).rf.val = true :=
  mput_wf a _ h

/-- A read after a write of the same register. -/
theorem rd_wr {s : State} (a : Nat) (v : Word) (h : mwf regReset s.rf.val = true) : rd (wr s a v) a = v :=
  mget_mput_same a v h

/-- A write leaves every other register alone. -/
theorem rd_wr_ne (s : State) {a b : Nat} (v : Word) (h : b ≠ a) : rd (wr s a v) b = rd s b := mget_mput_ne _ v h

theorem rd_wrF {s : State} (a hi lo v : Nat) (h : mwf regReset s.rf.val = true) :
    rd (wrF s a hi lo v) a = setFld (rd s a) hi lo v := rd_wr a _ h

theorem rd_wrF_ne (s : State) {a b : Nat} (hi lo v : Nat) (h : b ≠ a) : rd (wrF s a hi lo v) b = rd s b := rd_wr_ne s _ h

theorem rd_wrB {s : State} (a i : Nat) (b : Bool) (h : mwf regReset s.rf.val = true) :
    rd (wrB s a i b) a = setBit (rd s a) i b := rd_wr a _ h

theorem rd_wrB_ne (s : State) {a b : Nat} (i : Nat) (v : Bool) (h : b ≠ a) : rd (wrB s a i v) b = rd s b := rd_wr_ne s _ h

theorem rd_incr {s : State} (a : Nat) (h : mwf regReset s.rf.val = true) : rd (incr s a) a = rd s a + 1 := rd_wr a _ h

theorem rd_incr_ne (s : State) {a b : Nat} (h : b ≠ a) : rd (incr s a) b = rd s b := rd_wr_ne s _ h

theorem rd_incrBy {s : State} (a n : Nat) (h : mwf regReset s.rf.val = true) :
    rd (incrBy s a n) a = rd s a + BitVec.ofNat 32 n := rd_wr a _ h

theorem rd_incrBy_ne (s : State) {a b : Nat} (n : Nat) (h : b ≠ a) : rd (incrBy s a n) b = rd s b := rd_wr_ne s _ h

/-! ### Reads of units -/

theorem coreOf_setCore {s : State} {n : Nat} (c : Core) (h : n < s.cores.length) : coreOf (setCore s n c) n = c := by
  simp [coreOf, setCore, List.getD, h]

theorem coreOf_setCore_ne (s : State) {n m : Nat} (c : Core) (h : m ≠ n) : coreOf (setCore s n c) m = coreOf s m := by
  simp [coreOf, setCore, List.getD, Ne.symm h]

theorem coreOf_updCore {s : State} {n : Nat} (f : Core → Core) (h : n < s.cores.length) :
    coreOf (updCore s n f) n = f (coreOf s n) := coreOf_setCore _ h

theorem coreOf_updCore_ne (s : State) {n m : Nat} (f : Core → Core) (h : m ≠ n) : coreOf (updCore s n f) m = coreOf s m :=
  coreOf_setCore_ne s _ h

theorem clu_setClu {s : State} {k : Nat} (c : Cluster) (h : k < s.clus.length) : clu (setClu s k c) k = c := by
  simp [clu, setClu, List.getD, h]

theorem clu_setClu_ne (s : State) {k m : Nat} (c : Cluster) (h : m ≠ k) : clu (setClu s k c) m = clu s m := by
  simp [clu, setClu, List.getD, Ne.symm h]

theorem clu_updClu {s : State} {k : Nat} (f : Cluster → Cluster) (h : k < s.clus.length) :
    clu (updClu s k f) k = f (clu s k) := clu_setClu _ h

theorem clu_updClu_ne (s : State) {k m : Nat} (f : Cluster → Cluster) (h : m ≠ k) : clu (updClu s k f) m = clu s m :=
  clu_setClu_ne s _ h

/-- A register write leaves the units alone. -/
@[simp] theorem coreOf_wr (s : State) (a : Nat) (v : Word) (n : Nat) : coreOf (wr s a v) n = coreOf s n := rfl
@[simp] theorem clu_wr (s : State) (a : Nat) (v : Word) (n : Nat) : clu (wr s a v) n = clu s n := rfl
@[simp] theorem rd_setCore (s : State) (n : Nat) (c : Core) (a : Nat) : rd (setCore s n c) a = rd s a := rfl
@[simp] theorem rd_updCore (s : State) (n : Nat) (f : Core → Core) (a : Nat) : rd (updCore s n f) a = rd s a := rfl
@[simp] theorem rd_setClu (s : State) (n : Nat) (c : Cluster) (a : Nat) : rd (setClu s n c) a = rd s a := rfl
@[simp] theorem rd_updClu (s : State) (n : Nat) (f : Cluster → Cluster) (a : Nat) : rd (updClu s n f) a = rd s a := rfl
@[simp] theorem rd_pend (s : State) (n l : Nat) (w : PendW) (a : Nat) : rd (pend s n l w) a = rd s a := rfl
@[simp] theorem rd_slotPut (s : State) (k : Nat) (v : Slot) (a : Nat) : rd (slotPut s k v) a = rd s a := rfl
@[simp] theorem rd_slotTag (s : State) (k : Nat) (t : Tag) (a : Nat) : rd (slotTag s k t) a = rd s a := rfl
@[simp] theorem rd_ramPut (s : State) (b : Nat) (bs : List Byte) (a : Nat) : rd (ramPut s b bs) a = rd s a := rfl

/-- R148: a result of core n is due l - 1 beats after the current one, behind those that wait. -/
theorem pend_pend {s : State} {n : Nat} (l : Nat) (w : PendW) (h : n < s.cores.length) :
    (coreOf (pend s n l w) n).pend = (coreOf s n).pend ++ [⟨(clu s (n / 4)).beat + l - 1, (clu s (n / 4)).beat, w⟩] := by
  rw [pend, coreOf_updCore _ h]

/-! ### Reads of memory and slots -/

theorem slotGet_slotPut {s : State} (k : Nat) (v : Slot) (h : mwf slot0 s.mem.slots = true) : slotGet (slotPut s k v) k = v :=
  mget_mput_same k v h

theorem slotGet_slotPut_ne (s : State) {k j : Nat} (v : Slot) (h : j ≠ k) : slotGet (slotPut s k v) j = slotGet s j :=
  mget_mput_ne _ v h

theorem poisGet_poisPut {s : State} (w : Nat) (b : Bool) (h : mwf flag0 s.mem.pois = true) : poisGet (poisPut s w b) w = b :=
  mget_mput_same w b h

theorem poisGet_poisPut_ne (s : State) {w j : Nat} (b : Bool) (h : j ≠ w) : poisGet (poisPut s w b) j = poisGet s j :=
  mget_mput_ne _ b h

/-- Storing bytes leaves every other byte alone. -/
theorem ramPut_out (s : State) (a : Nat) (bs : List Byte) {j : Nat} (h : j < a ∨ a + bs.length ≤ j) :
    mget byte0 (ramPut s a bs).mem.sram j = mget byte0 s.mem.sram j := mget_mputRun_out _ a bs h

/-- Storing bytes gives the bytes stored. -/
theorem ramPut_in {s : State} (a : Nat) (bs : List Byte) (h : mwf byte0 s.mem.sram = true) {i : Nat} (hi : i < bs.length) :
    mget byte0 (ramPut s a bs).mem.sram (a + i) = bs[i] := mget_mputRun_in a bs h hi


end Sys2Proof.Machine
end

