-- ==== Sys2Proof/Tests/Base.lean ====
section
/-! SUPPORT. What the tests share: small states, and the invariant as a computation. -/

namespace Sys2Proof.Tests
set_option Elab.async false
open Sys2Proof Sys2Proof.Machine

/-- A state with registers written one after the other. -/
def regs (l : List (Nat × Nat)) (s : State := State.reset) : State :=
  l.foldl (fun s x => wr s x.1 (BitVec.ofNat 32 x.2)) s

/-- The invariant, computed. -/
def invB (s : State) : Bool :=
  Memory.wf s.mem && mwf regReset s.rf.val && s.cores.length == 32 && s.clus.length == 8 && s.dma.length == 8 &&
    s.lk.l.length == 6 && s.csi.ports.length == 12 && s.csi.strs.length == 48 && s.csi.fgs.length == 17 &&
    s.vid.ses.length == 32 && s.vid.qs.length == 64 && s.io.ser.length == 10 && s.io.outs.length == 24 &&
    decide (s.ns < 2 ^ 64) && decide (s.frac < 2 ^ 32)

/-- What `invB` computes is the invariant. -/
theorem inv_of_invB {s : State} (h : invB s = true) : Inv s := by
  simp only [invB, Bool.and_eq_true, beq_iff_eq, decide_eq_true_eq] at h
  obtain ⟨⟨⟨⟨⟨⟨⟨⟨⟨⟨⟨⟨⟨⟨h1, h2⟩, h3⟩, h4⟩, h5⟩, h6⟩, h7⟩, h8⟩, h9⟩, h10⟩, h11⟩, h12⟩, h13⟩, h14⟩, h15⟩ := h
  exact ⟨h1, h2, ⟨h3, h4, h5, h6, h7, h8, h9, h10, h11, h12, h13⟩, h14, h15⟩

/-- The premise `Reaches`, computed. -/
def reachB (s : State) (a : Nat) : Bool := !rdB s rTopIslRst (blkIsl (regBlk a)) && !chkBusy s (regBlk a) && !cgDrops s a

/-- What `reachB` computes is the premise. -/
theorem reaches_of {s : State} {a : Nat} (h : reachB s a = true) : Reaches s a := by
  simp only [reachB, Bool.and_eq_true, Bool.not_eq_true'] at h
  exact ⟨h.1.1, h.1.2, h.2⟩

/-- The premise `PageSafe` where the firewall is not enforced. -/
theorem pageSafe_of {s : State} {o n : Nat} (h : o + n ≤ 0x400000)
    (hs : (!rdB s rMemFwCtl 0 && !rdB s rTopIslRst 9) = true) : PageSafe s o n := by
  simp only [Bool.and_eq_true, Bool.not_eq_true'] at hs
  intro w _ a _ h2
  have hr : ∀ b, 0x2200000000 ≤ b → b < 0x2200400000 → regionOf b = some .hostp := by
    intro b h3 h4
    unfold regionOf
    rw [if_neg (by omega), if_neg (by omega), if_neg (by omega), if_neg (by omega), if_pos (by omega)]
  replace hr := hr (hpAddr a) (by unfold hpAddr; omega) (by unfold hpAddr; omega)
  simp [accessCode, hr, addrHeld, addrIsl, fwOk, hs.1, hs.2]

/-- A state whose cluster 0 is as given. -/
def barState (c : Cluster) (s : State := State.reset) : State := { s with clus := c :: List.replicate 7 {} }

/-- A state whose core 0 is as given. -/
def coreState (c : Core) (s : State := State.reset) : State := { s with cores := c :: List.replicate 31 {} }

/-- Cluster 0 is in beat 0 of a bar of one beat, whose core slot of position 0 is `w`; core 0 takes part in the program. -/
def barNow (w : Nat) (s : State := State.reset) (acted : List Nat := []) (pos : Nat := 0) (held : List Nat := []) : State :=
  barState { running := true, bar := some ⟨4, ⟨0, 0, false, false, 0, false, 0, 1⟩, [(0, w)], none⟩, acted := acted, pos := pos,
             held := held } (wr s (rNcCtl 0) 1)

/-- A loaded nest of one level of 2 steps, in its body, with its four streams on bases 0 to 3. -/
def nest1 (inBody : Bool := true) : NestSt :=
  { id := 0, desc := ⟨1, 0, 3, [0], [⟨0, 32, true, 0⟩, ⟨0, 32, true, 1⟩, ⟨0, 64, true, 2⟩, ⟨0, 32, true, 3⟩], [⟨false, 0, 2, [0, 0, 0, 0]⟩]⟩,
    bound := [2], ext := [], idx := [0], pass := 0, inBody := inBody }

/-- Base records of core positions 0 to 3 and of the cluster slot, in bank 0: bases 0 to 3 in the SPM of each core (of core 0). -/
def bases (s : State) : State :=
  [0, 1, 2, 3, 4].foldl (fun s p => [0, 1, 2, 3].foldl (fun s i =>
    ramPutNat s (bankBase 0 + 0xFC000 + 0x80 * p + 8 * i) 8 (0x2000000000 + 0x200000 * (p % 4) + 0x4000 * i)) s) s

/-- Cluster 0 holds the nest of `nest1` and runs no program. -/
def nestState (inBody : Bool := true) (s : State := State.reset) : State :=
  bases (barState { nest := some (nest1 inBody), bucket := 32768 } s)

/-- A transfer of one row of 64 bytes from slot 0 to slot 1 of core 0. -/
def xfer1 : Xfer :=
  { id := 0, src := 0x2000000000, dst := 0x2000001000, sInc := 0, dInc := 0, rowLen := 64, rows := 1, maskFrom := 1, pad := 0,
    swait := true, srel := false, commit := true, nomerge := false, mergeable := false, cls := .loc, ring := true, dirDec := false,
    hops := 0, epoch := 0, job := 0, queue := none }

/-- A request of a command with its arguments. -/
def reqE (cmd : Nat) (args : List Byte := []) (seq : Nat := 0) : List Byte :=
  leBytes 4 seq ++ leBytes 2 cmd ++ [48, 0] ++ leBytes 8 7 ++ (args ++ List.replicate 48 0).take 48

/-- A state in which firmware has taken one request of pair r. -/
def askState (cmd : Nat) (args : List Byte := []) (s : State := State.reset) (r : Nat := 0) : State :=
  { s with fw := { s.fw with taken := [(r, reqE cmd args)] } }

/-- Its premise of the request statements. -/
theorem asked_of {cmd : Nat} {args : List Byte} {s : State} {r : Nat} (hc : reqCmd (reqE cmd args) = cmd)
    (hp : pairWaits (askState cmd args s r) r = false) :
    Asked (askState cmd args s r) r cmd (reqE cmd args) { s with fw := { s.fw with taken := [] } } := by
  refine ⟨by simp [askState], hc, hp, by simp [askState]⟩

/-- Job 1, running in partition 0. -/
def job1 : Job :=
  { id := 1, rq := ⟨0, 0, 0⟩, part := 0, abortOnDl := false, arithFatal := false, passEvents := false, rchan := 0, passes := 0,
    deadlineUs := 0, ext := [], seed := 0, rsrc := 0, rlen := 0, st := .running }

/-- A state whose firmware state is `st`, with ring pair 0 of 16 requests and 16 responses and every feature agreed on. -/
def fwOn (st : Nat := 4) (s : State := State.reset) : State :=
  let p := hpAddr 0x100
  let s := ramPutNat (ramPutNat (ramPutNat s (hpAddr 6) 2 st) (p + 4) 4 16) (p + 12) 4 16
  { s with fw := { s.fw with neg := [(0, 0x100, 0x3FF)] } }

end Sys2Proof.Tests
end

