-- ==== Sys2Proof/Tests/Flash.lean ====
section
/-! SUPPORT. A NOR flash that begins with a good partition table, whatever the other bytes of flash are. -/

namespace Sys2Proof.Tests
set_option Elab.async false
open Sys2Proof Sys2Proof.Machine

theorem mgetRun_eq_map (d : Nat → Byte) (m : Sparse Byte) (k n : Nat) :
    mgetRun d m k n = (List.range n).map fun i => mget d m (k + i) := by
  induction n generalizing k with
  | zero => rfl
  | succ n ih => simp [mgetRun, ih, List.range_succ_eq_map, Nat.add_comm, Nat.add_left_comm]

/-- A run of written bytes reads back, whatever an unwritten byte reads as. -/
theorem mgetRun_mputRun (d : Nat → Byte) (vs : List Byte) (k : Nat) : mgetRun d (mputRun d k vs []) k vs.length = vs := by
  rw [mgetRun_eq_map]
  refine List.ext_getElem (by simp) fun i h1 h2 => ?_
  simp only [List.getElem_map, List.getElem_range]
  exact mget_mputRun_in _ _ rfl h2

/-- The start of a partition table: partitions of 64 KiB, of types 1, 2 and 3, and an entry that brings the CRC register to 0. -/
def pHead : List Byte :=
  leBytes 4 0x54504B5A ++ List.replicate 12 0 ++ leBytes 4 1 ++ leBytes 4 2 ++ leBytes 4 16 ++ List.replicate 4 0 ++ leBytes 4 2 ++
    leBytes 4 18 ++ leBytes 4 16 ++ List.replicate 4 0 ++ leBytes 4 3 ++ leBytes 4 34 ++ leBytes 4 16 ++ List.replicate 4 0 ++
    leBytes 4 0x3AE9E58D

/-- The table before its CRC. -/
def pBody : List Byte := pHead ++ List.replicate 4024 0

/-- The table. -/
def ptab : List Byte := pBody ++ List.replicate 4 0xFF

theorem pBody_length : pBody.length = 4092 := by simp only [pBody, List.length_append, List.length_replicate]; decide +kernel

/-- A zero byte keeps a CRC register of 0. -/
theorem crc_zeros (n : Nat) : (List.replicate n (0 : Byte)).foldl (fun r b => crc32Bits 8 (r.xor b.toNat)) 0 = 0 := by
  induction n with
  | zero => rfl
  | succ n ih => rw [List.replicate_succ, List.foldl_cons]; exact ih

theorem crc_pBody : crc32 pBody = 0xFFFFFFFF := by
  have h : pHead.foldl (fun r b => crc32Bits 8 (r.xor b.toNat)) 0xFFFFFFFF = 0 := by decide +kernel
  rw [crc32, pBody, List.foldl_append, h, crc_zeros]; rfl

/-- NOR flash with that table and nothing else written. -/
@[irreducible] def norTab : Sparse Byte := mputRun (Config.flashByte false) 0 ptab []

theorem norTab_wf : mwf (Config.flashByte false) norTab = true := by unfold norTab; exact mputRun_wf _ _ (by rfl)

/-- A state with that flash, which booted from it. -/
def norState (s : State := fwOn 4) : State := { s with root := { s.root with nor := norTab, flash := some (false, 0) } }

theorem flashGet_nor {s : State} (hs : s.root.nor = norTab) : flashGet s false 0 4096 = ptab := by
  have hl : ptab.length = 4096 := by rw [ptab, List.length_append, pBody_length]; rfl
  rw [← hl]; unfold flashGet; rw [if_neg (by decide), hs]; unfold norTab; exact mgetRun_mputRun (Config.flashByte false) ptab 0

theorem ptab_crc : leAt ptab 4092 4 = 0xFFFFFFFF := by rw [leAt, slice, ptab, ← pBody_length, List.drop_left]; decide +kernel

theorem ptab_body : ptab.take 4092 = pBody := by rw [ptab, ← pBody_length, List.take_left]

theorem ptab_magic : leAt ptab 0 4 = 0x54504B5A := by decide +kernel

theorem ptab_ok : (leAt ptab 0 4 == 0x54504B5A && crc32 (ptab.take 4092) == leAt ptab 4092 4) = true := by
  rw [ptab_body, ptab_crc, ptab_magic, crc_pBody]; rfl

theorem partTable_of {s : State} {t : List Byte} (h : flashGet s false 0 4096 = t)
    (hc : (leAt t 0 4 == 0x54504B5A && crc32 (t.take 4092) == leAt t 4092 4) = true) : partTable s false = some t := by
  unfold partTable
  rw [List.map_cons, h, List.find?_cons, hc]

/-- The partitions are found. -/
theorem partOf_nor {s : State} (hs : s.root.nor = norTab) : partOf s false 1 = some (0x2000, 0x10000) ∧
    partOf s false 2 = some (0x12000, 0x10000) ∧ partOf s false 3 = some (0x22000, 0x10000) := by
  simp only [partOf, partTable_of (flashGet_nor hs) ptab_ok]; decide +kernel

end Sys2Proof.Tests
end

