-- ==== Sys2Proof/Tests/MetA.lean ====
section
/-! SUPPORT. States and operands that meet the hypotheses of the statements: the queue, registers, FIFOs, bars and the engine. -/

namespace Sys2Proof.Tests
set_option Elab.async false
open Sys2Proof Sys2Proof.Machine

/-- StepTakesOneCommand, StepKeepsInvariant, FreeValuesAreFresh: a step with a command in the queue answers a next state. -/
theorem test_met_step : Inv State.reset ∧ (step { State.reset with pending := [.clkLost] } matches .next _) = true :=
  ⟨inv_of_invB (by decide +kernel), by decide +kernel⟩

/-- IdleCycleAdvancesTime: the clock runs; the chip is held. -/
theorem test_met_idle :
    let s : State := { State.reset with io := { released := true } }
    (s.pending = [] ∧ s.io.released = true ∧ s.pwr.tripped = false) ∧
      (State.reset.pending = [] ∧ State.reset.io.released = false) := by decide +kernel

/-- The premises of a plain register write. -/
def writeOk (s : State) (g a : Nat) (v : Word) : Bool :=
  (regRow a).any (fun r => !wrDropped s a r) && !rdB s rTopIslRst (blkIsl (regBlk a)) && !agentDropped s g a &&
    !chkBusy s (regBlk a) && (regOwn s a v).isNone && a != blkBase (regBlk a) + 8

/-- RegisterWriteLandsFieldByField: a free field; a static field that is held, at another value and at its own. -/
theorem test_met_register_write :
    let s := regs [(rPwrCtl, 1)]
    Inv s ∧ writeOk State.reset 13 rPwrKp 5 = true ∧ enOf rPwrKp = none ∧
      writeOk s 13 (rPwrRail 0) 5 = true ∧ enOf (rPwrRail 0) = none ∧
      ((regRow (rPwrRail 0)).any fun r => bitN r.stat 0 && staticHeld s (rPwrRail 0) r) = true ∧
      (rd s (rPwrRail 0)).getLsbD 0 = false :=
  ⟨inv_of_invB (by decide +kernel), by decide +kernel⟩

/-- BadAccessReadsZero: no register lies there; an access of the register space that is not 4 aligned bytes. -/
theorem test_met_bad_access :
    let s := State.reset
    Inv s ∧ regRow (regBase + 0x100) = none ∧ regRow 0x3007FFFFFC = none ∧ portData (regBase + 0x100) = none ∧
      localOf s 0x3000000000 = some 0x3000000000 ∧ regionOf 0x3000000000 = some .regs ∧ (8 : Nat) ≠ 4 ∧
      localOf s 0x3000000002 = some 0x3000000002 ∧ 0x3000000002 % 4 ≠ 0 :=
  ⟨inv_of_invB (by decide +kernel), by decide +kernel⟩

/-- LoReadLatchesHi: the pair of DDL_SERIAL, with nothing latched. -/
theorem test_met_lo_read :
    let a := rDdlSerialLo
    isLo a = true ∧ regRow a ≠ none ∧ portData a = none ∧ regRow (a + 4) ≠ none ∧ portData (a + 4) = none ∧
      isLo (a + 4) = false ∧ ∀ x ∈ State.reset.rf.hi, x.1 ≠ a + 4 := by decide +kernel

/-- A state with one check in progress. -/
def checking (k a b : Nat) (s : State := State.reset) : State := { s with rf := { s.rf with chk := [⟨k, a, b⟩] } }

/-- EnableCheckDecidesEnable: an enable write of a block and of a plain enable; checks that fail and that pass, of a block, a region
and a plain enable; disable writes of each kind. -/
theorem test_met_enable :
    let p := rPwrCtl
    let i := rTrgInCfg 0
    let fine := regs [(rPwrRail 0, 0x80000000), (rPwrCapLim, 25000)]
    (Inv State.reset ∧ Inv (checking 0x70 p 0) ∧ Inv (checking 0x70 p 0 fine) ∧ Inv (checking 0x7E i 31) ∧
      Inv (regs [(p, 1), (i, 0x80000000), (rMemRgnCtl 0, 0x80000000)])) ∧
    (enOf p = some (.blk 0x70, 0) ∧ writeOk State.reset 13 p 1 = true ∧ enOf i = some (.plain, 31) ∧
      writeOk State.reset 13 i 0x80000000 = true ∧ rdB State.reset p 0 = false ∧ rdB State.reset i 31 = false ∧
      enKeep .plain 31 = 2 ^ 31 ∧ enOf (rMemRgnCtl 63) = some (.region 63, 31)) ∧
    (enCheck (checking 0x70 p 0) 0x70 (.blk 0x70) ≠ 0 ∧ enCheck (checking 0x70 p 0 fine) 0x70 (.blk 0x70) = 0 ∧
      blkOf 0x70 ≠ some .eng ∧ enCheck (checking 0x7E i 31) 0x7E .plain = 0 ∧ p ≠ blkBase 0x70 + 8 ∧ i ≠ blkBase 0x7E + 8) ∧
    (let s := regs [(p, 1), (i, 0x80000000), (rMemRgnCtl 0, 0x80000000)]
     rdB s p 0 = true ∧ writeOk s 13 p 0 = true ∧ rdB s i 31 = true ∧ writeOk s 13 i 0 = true ∧
      rdB s (rMemRgnCtl 0) 31 = true ∧ writeOk s 13 (rMemRgnCtl 0) 0 = true ∧ enOf (rMemRgnCtl 0) = some (.region 0, 31) ∧
      s.rf.stall = [] ∧ s.rf.fabStall = []) :=
  ⟨⟨inv_of_invB (by decide +kernel), inv_of_invB (by decide +kernel), inv_of_invB (by decide +kernel),
    inv_of_invB (by decide +kernel), inv_of_invB (by decide +kernel)⟩, by decide +kernel⟩

/-- A state with engine event entries. -/
def evented (n : Nat) (drop : Bool := false) : State :=
  { State.reset with eng := { events := { ents := List.replicate n [7], drop := drop } } }

/-- FifosKeepTheirEntries: room, no room at 256 entries, a packet being dropped, an entry to read, a reader that stalls, and the two
ends of its stall; and a stalled read over the fabric. -/
theorem test_met_fifos :
    let a := rEngEventData
    portData a = some .events ∧ (portGet State.reset .events).ents.length < portCap .events ∧
      ((portGet (evented 255) .events).ents.length < portCap .events) ∧
      (portCap .events ≤ (portGet (evented 256) .events).ents.length ∧ (portGet (evented 256) .events).part = [] ∧
        (portGet (evented 256) .events).drop = false) ∧
      (portGet (evented 256 true) .events).drop = true ∧ (portGet (evented 1) .events).ents = [7] :: [] ∧
      ((portGet State.reset .events).ents = [] ∧ a ∉ State.reset.rf.stall) ∧
      (let s := { evented 1 with rf := { stall := [a] } }
       (portGet s .events).ents = [7] :: [] ∧ a ∈ s.rf.stall) ∧
      (let s := { State.reset with rf := { stall := [a] } }
       (portGet s .events).ents = [] ∧ portOn s .events = false ∧ a ∈ s.rf.stall ∧ s.rf.fabStall = []) ∧
      (let s := { evented 1 with rf := { fabStall := [(13, a)] } }
       (portGet s .events).ents = [7] :: [] ∧ a ∉ s.rf.stall ∧ s.rf.fabStall = [(13, a)]) := by decide +kernel

/-- CrossingsArriveInOrder: an older crossing between other islands stands before it. -/
theorem test_met_crossing :
    let c : Crossing := ⟨0, 0xC, .arrival 0 ⟨3, 1, false, false⟩⟩
    let d : Crossing := ⟨1, 2, .release 0 []⟩
    let s := { State.reset with cross := [d, c] }
    s.cross = [d] ++ c :: [] ∧ c.src = 0 ∧ c.dst = 0xC ∧ (∀ x ∈ [d], x.src ≠ 0 ∨ x.dst ≠ 0xC) := by decide +kernel

/-- BlockedBeatOnlyWaits: operands at the ends of their ranges. -/
theorem test_met_blocked_beat :
    Inv State.reset ∧ ((⟨7, 0⟩ : CAt).cl < 8 ∧ (∀ x ∈ [(4, 8), (0, 0)], x.1 ≤ 4 ∧ x.2 ≤ 8) ∧ (∀ x ∈ [(3, [0])], x.1 < 4)) :=
  ⟨inv_of_invB (by decide +kernel), by decide +kernel⟩

/-- BarStoreWritesDropWhileEnabled: the first and the last byte of the bar store, with its cluster in the placement of an enabled
engine, outside of it, and with the engine off. -/
theorem test_met_bar_store :
    let s := regs [(rEngCtl, 0x8001)]
    Inv s ∧ Inv State.reset ∧ (0x2400000000 : Nat) ≤ 0x24007FFFFF ∧ 0x24007FFFFF + ([0] : List Byte).length ≤ 0x2400800000 ∧
      rdB s rEngCtl 0 = true ∧ bitN (place s) (0x24007FFFFF % 0x400000000 / 0x100000) = true ∧
      bitN (place s) (0x2400000000 % 0x400000000 / 0x100000) = false ∧ rdB State.reset rEngCtl 0 = false :=
  ⟨inv_of_invB (by decide +kernel), inv_of_invB (by decide +kernel), by decide +kernel⟩

/-- A bar of cluster 0 with a tie-point of the partition 1, portable or not. -/
def tieBar (port : Bool) : BarSeg := ⟨4, ⟨0, 1, false, port, 0, true, 0, 0⟩, [], none⟩

/-- ClustersMeetAtTiePoints: fetching, a cluster that may move on to a bar that is in the buffer, or to one that is not, one that waits, a bar that
is not complete and one that is, with a tie-point that fires (plain, portable and quiet, portable and not quiet), arrivals complete
and not, and a release seen. -/
theorem test_met_tie_points :
    let t : Tie := ⟨4, 3, false, false⟩
    let run (wait : Bool) (b : Byte := 0) := barState { running := true, waiting := wait, fbuf := List.replicate 8 b }
    let tie (p : Bool) (x : List XOp) (pos : Nat := 1) := barState { running := true, bar := some (tieBar p), pos := pos, ops := x }
    let eng (l : List (Nat × Tie)) : State := { State.reset with eng := { arrived := l } }
    let rel (st : Bool) : State := { State.reset with eng := { released := [(0, ⟨t, st, false, [], []⟩)] } }
    let op : XOp := ⟨0, 0, 0, 0, 64, 0, false, .loc, 0, 0, none, false, none, none⟩
    (Inv (run false) ∧ Inv (tie true [op]) ∧ Inv (eng [(0, t), (1, t)]) ∧ Inv (rel true)) ∧
    ((clu State.reset 0).fbuf.length + 64 ≤ 1024 ∧
      (let v := fetchMore (run false) 0
       let len := segLen (hdrOf (leAt (clu v 0).fbuf 0 8)) 0
       mayTake v 0 = true ∧ 8 ≤ (clu v 0).fbuf.length ∧ len ≤ (clu v 0).fbuf.length ∧
        segBad v 0 (bankBase 0 + (clu v 0).fetchOff) len = false ∧ v.mem.barEcc = []) ∧
      (let v := fetchMore (run false 0xFF) 0
       mayTake v 0 = true ∧ (clu v 0).fbuf.length < segLen (hdrOf (leAt (clu v 0).fbuf 0 8)) 0) ∧
      mayTake (fetchMore (run true) 0) 0 = false) ∧
    (barDone (tie false []) 0 = true ∧ barDone (tie false [] 0) 0 = false ∧ tieDue (tie false []) 0 = true ∧
      tieDue (tie true []) 0 = true ∧ (clu (tie true []) 0).waiting = false ∧ stepKey ∉ (clu (tie true []) 0).acted ∧
      quiet (tie true []) 0 = true ∧ quiet (tie true [op]) 0 = false) ∧
    ((∀ k ∈ bitList 8 t.part, (k, t) ∈ (eng [(0, t), (1, t)]).eng.arrived) ∧
      ((eng [(0, t)]).eng.arrived.find? fun x => x.2.bar == 4) = some (0, t) ∧
      (∃ k ∈ bitList 8 t.part, (k, t) ∉ (eng [(0, t)]).eng.arrived)) ∧
    (bitN t.part 0 = true ∧ ((rel true).eng.released.find? fun x => x.1 == 0) = some (0, ⟨t, true, false, [], []⟩) ∧
      ((rel false).eng.released.find? fun x => x.1 == 0) = some (0, ⟨t, false, false, [], []⟩)) :=
  ⟨⟨inv_of_invB (by decide +kernel), inv_of_invB (by decide +kernel), inv_of_invB (by decide +kernel),
    inv_of_invB (by decide +kernel)⟩, by decide +kernel⟩

end Sys2Proof.Tests
end

