-- ==== Sys2Proof/Tests/MetB.lean ====
section
/-! SUPPORT. States and operands that meet the hypotheses of the statements: the engine, nests, the control field, vector operations,
the matrix array, movement. -/

namespace Sys2Proof.Tests
set_option Elab.async false
open Sys2Proof Sys2Proof.Machine

/-- A bank of cluster 0 with one bar, which a portable tie-point ends. -/
def oneBar : State :=
  ramPutNat (ramPutNat (ramPutNat (regs [(rEngCtl, 0x100)]) 0x2400000000 8 (2 ^ 40 + 2 ^ 44 + 2 ^ 46)) 0x24000FC380 8 0x16674110)
    0x24000FC388 8 1

/-- EngineStartsAdmittedProgramsOnly: scan starts and their refusal, a scan that fails and one that passes, an enable that is refused
and one that passes, a parked engine, a disable, a stall of cluster 0, and STOP in both states. -/
theorem test_met_engine :
    let off := State.reset
    let scan := { oneBar with eng := { scan := some ⟨false⟩ } }
    let adm := regs [(rEngAdmitStatus, 0x40000000), (rEngProgClass, 0x16674110), (rEngCtl, 0x100)]
    let on := regs [(rEngCtl, 0x101), (rEngStatus, 1), (rEngTieTimeout, 1)]
    let parked := regs [(rEngCtl, 0x105), (rEngStatus, 3)]
    (Inv off ∧ Inv scan ∧ Inv adm ∧ Inv on ∧ Inv parked) ∧
    (rdB off rEngCtl 0 = false ∧ rdB off rEngAdmitStatus 31 = false ∧ rdB on rEngCtl 0 = true) ∧
    (scanResult { off with eng := scan.eng } [] = some (0x23, 0, 0xFFFFF) ∧ scanResult scan [0] = none) ∧
    (reachB off rEngAdmit = true ∧ reachB off rEngCtl = true ∧ reachB adm rEngCtl = true ∧ reachB on rEngCtl = true ∧
      reachB parked rEngCtl = true ∧ rdB parked rEngCtl 0 = true) ∧
    (engineCheck (wrB (wrF off rEngCtl 15 8 1) rEngCtl 2 false) ≠ 0 ∧
      engineCheck (wrB (wrF adm rEngCtl 15 8 1) rEngCtl 2 false) = 0) ∧
    (running on = true ∧ parkedB on = false ∧ rdF on rEngTieTimeout 23 0 ≠ 0 ∧ lowBit (1 &&& place on) 8 0 = some 0) ∧
    (parkedB parked = true ∧ parkedB off = false) :=
  ⟨⟨inv_of_invB (by decide +kernel), inv_of_invB (by decide +kernel), inv_of_invB (by decide +kernel), inv_of_invB (by decide +kernel),
    inv_of_invB (by decide +kernel)⟩, by decide +kernel⟩

/-- NestRunsEveryStepOnce: a step before the last, and the last. -/
theorem test_met_nest :
    let ns := nest1
    ns.desc.levels ≤ 6 ∧ ns.bound.length = ns.desc.levels ∧ (∀ b ∈ ns.bound, 0 < b) ∧ 0 < steps ns ∧ 0 + 1 < steps ns ∧
      1 < steps ns ∧ 1 + 1 = steps ns := by decide +kernel

/-- A state with one slot tag. -/
def slotState (k : Nat) (v : Slot) (s : State := State.reset) : State := slotPut s k v

/-- ControlFieldActsOnSlotsAndNests: a full slot of the last core and one that is not, clean, damaged and with an upset tag; the turn of
each operation in a cluster that runs no program and in a bar, and a bar that does not hold it; a beat that something else blocks; a
guard inside and outside of a body; a nest whose descriptor is in range; the last bar of a body, complete and not. -/
theorem test_met_control :
    let key := 31 * 512 + 511
    let full := slotState key ⟨.full, .loc, .none⟩
    let upset : State := { full with mem := { full.mem with tagUps := [key] } }
    let at' : At := ⟨31, 0, 0⟩
    let at0 : At := ⟨0, 0, 0⟩
    let op (n : Nat) (held : List Nat := []) := barNow (2 ^ 11 * n) (held := held)
    let last : BarSeg := ⟨3, ⟨0, 0, false, false, 0, false, 0, 0⟩, [], none⟩
    let body (run : Bool) (pos : Nat) := barState { running := run, nest := some nest1, pos := pos, bar := some last }
    (Inv full ∧ Inv upset ∧ Inv State.reset ∧ Inv (nestState true) ∧ Inv (nestState false) ∧ Inv (body true 1) ∧ Inv (op 1)) ∧
    (at'.core < 32 ∧ (slotGet full key).tag = .full ∧ eccGet full ((memBase 31 + 4096 * 511) / 32) = 0 ∧ full.mem.tagUps = [] ∧
      poisGet full ((memBase 31 + 4096 * 511) / 32) = false ∧ (slotGet State.reset key).tag ≠ .full ∧ key ∈ upset.mem.tagUps) ∧
    ([1, 3, 4, 5].all (fun n => ctlTurn full at' n && ctlTurn (op n) at0 n && !ctlTurn (op 0) at0 n) = true ∧
      releaseTurn full 31 = true ∧ releaseTurn (barNow (2 ^ 12) (pos := 1)) 0 = true ∧ releaseTurn (op 2) 0 = false) ∧
    ((clu full 7).held = [] ∧ heldAny (op 4) 0 = false ∧ heldAny (op 4 [1]) 0 = true) ∧
    ((clu State.reset 7).nest = none ∧ (clu (nestState true) 0).nest = some nest1 ∧ nest1.inBody = true ∧ 0 < nest1.desc.levels ∧
      (nest1 false).inBody = false ∧ nest1.desc.levels ≤ 1) ∧
    (fifoFull 256 State.reset.eng.events = false ∧ fifoFull 256 { ents := List.replicate 256 [7] } = true) ∧
    (kslotTurn State.reset 0 = true ∧ kslotTurn (op 1) 0 = false ∧ heldAny State.reset 0 = false ∧
      (∀ x ∈ (descAt State.reset 0 255).src, x ≠ 0xF) ∧ (enterNest State.reset 0 255 0).inBody = true ∧
      cutsOf State.reset 0 255 (descAt State.reset 0 255) 0 = []) ∧
    ((clu (body true 1) 0).nest = some nest1 ∧ barOf (body true 1) 0 = nest1.desc.bodyLast ∧ stepTurn (body true 1) 0 = true ∧
      stepTurn (body true 0) 0 = false) :=
  ⟨⟨inv_of_invB (by decide +kernel), inv_of_invB (by decide +kernel), inv_of_invB (by decide +kernel), inv_of_invB (by decide +kernel),
    inv_of_invB (by decide +kernel), inv_of_invB (by decide +kernel), inv_of_invB (by decide +kernel)⟩, by decide +kernel⟩

/-- Operands of a vector operation with a format and an argument. -/
def vx (fmt arg : Nat) (va vb vc vd : Nat := 0) : VxArgs := ⟨vd, va, vb, vc, fmt, 0, false, 0, arg⟩

/-- VectorIntegerResults, VectorFloatResults, VectorReductionsAndSorts, PointsDrawsAndUpdates, VectorCommandsTouchOnlyTheirCore: the last
core, whose turn it is; a core in a bar whose VX field stands, and where it does not or the beat is blocked; every operation with
operands that are no reserved encoding, and one with some that are; voxel counts that are numbers, and some that are none. -/
theorem test_met_vector :
    let s := State.reset
    let a0 : At := ⟨0, 0, 0⟩
    let one := coreState { pb := [(4, 0x3F800000), (5, 0x3F800000), (6, 0x3F800000)] }
    (Inv s ∧ (⟨31, 0, 0⟩ : At).core < 32 ∧ vxTurn s ⟨31, 0, 0⟩ = true ∧ govLanes (coreOf s 31) 0 ≠ []) ∧
    (vxTurn (barNow (2 ^ 48)) a0 = true ∧ vxTurn (barNow 0) a0 = false ∧ vxTurn (barNow (2 ^ 48) (held := [0])) a0 = false) ∧
    (voxCount (pbF (coreOf one 0) 4) = some 1 ∧ voxCount (pbF (coreOf one 0) 0) = none) ∧
    ([0x10, 0x11, 0x12, 0x13, 0x14, 0x15, 0x16, 0x17, 0x28, 0x29, 0x2A, 0x2B, 0x1B, 0x1C, 0x2C, 0x2D, 0x1D, 0x1E].all
      fun op => vxOk op (vx 9 (if op = 0x1E then 8 else 0) 2)) = true ∧
    ([0x10, 0x11, 0x12, 0x13, 0x14, 0x15, 0x16, 0x17, 0x21, 0x22, 0x23, 0x24, 0x28, 0x29, 0x2A, 0x2B, 0x2C, 0x2D, 0x1D, 0x1E].all
      fun op => vxOk op (vx 8 (if op = 0x1E then 8 else 0) 2)) = true ∧
    ([0x18, 0x19, 0x1A, 0x1B, 0x1C, 0x0C, 0x0D, 0x1F, 0x30, 0x31, 0x32, 0x33, 0x38, 0x39, 0x3A, 0x3B, 0x3C, 0x3D].all
      fun op => vxOk op (vx 0 0) || vxOk op (vx 8 0) || vxOk op (vx 9 0)) = true ∧
    (vxOk 0x20 (vx 2 0) || vxOk 0x20 (vx 3 0) || vxOk 0x20 (vx 1 0)) = true ∧ vxOk 0x10 (vx 7 0) = false :=
  ⟨⟨inv_of_invB (by decide +kernel), by decide, by decide +kernel, by decide +kernel⟩, by decide +kernel⟩

/-- A guard that does not hold. -/
theorem test_met_guard :
    let s := coreState { guard := some ⟨0, 0, 1⟩ } nestState
    Inv s ∧ guardOk s 0 = false ∧ vxTurn s ⟨0, 0, 0⟩ = false ∧ vxOk 0x10 (vx 9 0) = true :=
  ⟨inv_of_invB (by decide +kernel), by decide +kernel⟩

/-- VectorLoadsReadTheirElements, VectorStoresWriteTheirElements: every load and store form with its stream in the core's SPM. -/
theorem test_met_vector_memory :
    let s := nestState
    (Inv s ∧ vxTurn s ⟨0, 0, 0⟩ = true ∧ s.mem.ecc = [] ∧ ∀ l, l < 64 → laneMasked s 0 0 l = false) ∧
    ((coreAddr s 0 0 0 256).toOption = some 0x2000000000 ∧ (coreAddr s 0 1 0 512).toOption = some 0x2000004000 ∧
      (coreAddr s 0 3 0 1).toOption = some 0x200000C000 ∧
      (coreAddr s 0 0 0 (4 * frcUnit 0xC)).toOption.isSome = true) ∧
    (vxOk 0x01 (vx 8 0) && vxOk 0x01 (vx 0xB 0) && vxOk 0x01 (vx 0xC 0) && vxOk 0x03 (vx 0 0) && vxOk 0x07 (vx 0 0) && vxOk 0x05 (vx 8 0) &&
      vxOk 0x08 (vx 0 0) && vxOk 0x09 (vx 0 0) && vxOk 0x0A (vx 0 0) && vxOk 0x04 (vx 0 0) && vxOk 0x02 (vx 8 0) &&
      vxOk 0x06 (vx 8 0)) = true ∧
    vwinOn s 0 = none ∧ (∀ l ∈ govLanes (coreOf s 0) 0, laneP (coreOf s 0) 0 l = false) ∧ fmtBits 3 = 4 ∧ vxOk 0x02 (vx 3 0) = true :=
  ⟨⟨inv_of_invB (by decide +kernel), by decide +kernel, by decide +kernel, by decide +kernel⟩, by decide +kernel⟩

/-- ResultsLandWhenDue: one result that is due after its latency of 1, and of 6, in a cluster whose bar of 6 beats lays down nothing. -/
theorem test_met_results_due :
    let s (lat : Nat) := coreState { pend := [⟨lat - 1, 0, .lanes [(0, 7, false)]⟩] }
      (barState { running := true, bar := some ⟨4, ⟨5, 0, false, false, 0, false, 0, 0⟩, [], none⟩ })
    Inv (s 6) ∧ (∀ d, d < 6 → beatGo (adv (s 6) 0 d) 0 = true) ∧ (∀ d, d < 1 → beatGo (adv (s 1) 0 d) 0 = true) ∧
      (∀ q, q < 4 → (coreOf (s 6) q).mx = [] ∧ (coreOf (s 6) q).used = [] ∧ (coreOf (s 6) q).late = [] ∧
        (q ≠ 0 → (coreOf (s 6) q).pend = [])) ∧
      (coreOf (s 6) 0).pend = [⟨(clu (s 6) 0).beat + 6 - 1, 0, .lanes [(0, 7, false)]⟩] ∧
      (coreOf (s 1) 0).pend = [⟨(clu (s 1) 0).beat + 1 - 1, 0, .lanes [(0, 7, false)]⟩] :=
  ⟨inv_of_invB (by decide +kernel), by decide +kernel⟩

/-- MatrixInstructionsEnterTheArray: a legal and a reserved MX, a bucket too low and full, a field in a
bar and none there, a beat that waits for something else, and streams for an INT8 tile. -/
theorem test_met_matrix :
    let m : MxArgs := ⟨15, 1, 1, 63, 63, 0, false, false⟩
    let dry := barState {}
    (Inv nestState ∧ Inv dry) ∧ (mxOk false m = true ∧ mxOk true m = true ∧ mxOk false { m with wfmt := 15 } = false) ∧
      (guardOk nestState 0 = true ∧ fieldTurn nestState ⟨0, 0, 0⟩ 1 = true ∧ (clu nestState 0).held = [] ∧
        fieldTurn (barNow (2 ^ 96)) ⟨0, 0, 0⟩ 1 = true ∧ fieldTurn (barNow 0) ⟨0, 0, 0⟩ 1 = false ∧
        (∃ b ∈ (clu (barNow (2 ^ 96) (held := [0])) 0).held, b ≠ blocker 0 4) ∧ mxSpent nestState 0 = false ∧ 16384 ≤ (clu nestState 0).bucket ∧ (clu dry 0).bucket < 16384 ∧
        mxSpent dry 0 = false) ∧
      (pairOf 1 1).any (fun p => p == .i8 && (match coreAddr nestState 0 1 0 (64 * bPitch p), mxRows nestState 0 p 64 with
        | .ok _, .ok _ => true
        | _, _ => false)) = true :=
  ⟨⟨inv_of_invB (by decide +kernel), inv_of_invB (by decide +kernel)⟩, by decide +kernel⟩

/-- IntegerRowsLandExactly: the first and the last row of a full tile, which starts a plane or adds to it. -/
theorem test_met_integer_rows :
    let f (st : Bool) : MxFlight := ⟨0, 15, 1, 1, 64, 64, 0, false, st, [], 0, 0, [], [], [], [], false, [], [], []⟩
    Inv State.reset ∧ pairOf (f true).wfmt (f true).afmt = some .i8 ∧ pairInt .i8 = true ∧ 63 < (f true).nr ∧ 0 < (f false).nr ∧
      (f true).start = true ∧ (f false).start = false ∧ (f true).flt = [] ∧ mwf word0 (coreOf State.reset 31).acc = true ∧
      mwf nat0 (coreOf State.reset 31).shadow = true ∧ shGet (coreOf State.reset 31) 15 0 63 = mod7 (accGet (coreOf State.reset 31) 15 0 63).toInt :=
  ⟨inv_of_invB (by decide +kernel), by decide +kernel⟩

/-- DrainConvertsOneRow: a row that is not valid; a valid one with no drain record, into a register and into memory; and with a record, in
both scale modes. -/
theorem test_met_drain :
    let row : PlaneRow := { valid := true, nc := 64 }
    let s (ok : Bool) (f : Byte) := nestState true (coreState { rows := [(0, row)], drecOk := ok, drec := [(0, f)] })
    (Inv State.reset ∧ Inv (s false 0) ∧ Inv (s true 0) ∧ Inv (s true 1)) ∧
    (vxOk 0x0B (vx 0 0) = true ∧ vxOk 0x0B (vx 0 16) = true ∧ vxTurn (s true 0) ⟨0, 0, 0⟩ = true ∧
      (rowGet (coreOf State.reset 31) 0 0).valid = false ∧ (rowGet (coreOf (s true 0) 0) 0 0).valid = true ∧
      (coreOf (s false 0) 0).drecOk = false ∧ (coreOf (s true 0) 0).drecOk = true ∧ bitN (vx 0 16).arg 4 = true ∧
      bitN (vx 0 0).arg 4 = false) ∧
    ((coreAddr (s true 0) 0 2 0 256).toOption.isSome = true ∧ (coreAddr (s true 0) 0 3 0 4).toOption.isSome = true ∧
      (List.range 2).all (fun i => (bitsN (drecFlags (coreOf (s true (if i = 0 then 0 else 1)) 0)) 0 2 == 0) == (i == 0)) = true ∧
      ∀ col, col < 64 → mod7 (accGet (coreOf (s true 0) 0) 0 0 col).toInt = shGet (coreOf (s true 0) 0) 0 0 col) :=
  ⟨⟨inv_of_invB (by decide +kernel), inv_of_invB (by decide +kernel), inv_of_invB (by decide +kernel),
    inv_of_invB (by decide +kernel)⟩, by decide +kernel⟩

/-- MoveFieldClaimsCommitsCopies: every tag of the last slot, with its own owner and another; copies and transposes whose streams lie in
the core's SPM, and a masked beat; a field in a bar and none there, and a beat that waits for something else. -/
theorem test_met_moves :
    let k := 31 * 512 + 511
    let s (t : Tag) (o : Owner) := slotState k ⟨t, .loc, o⟩
    let cut := barState { running := true, nest := some { nest1 with ext := [0, 0, 0, 0, 0, 0, 0, 0] } }
    (Inv (s .filling (.core 31)) ∧ Inv (s .full .none) ∧ Inv (s .invalid .none) ∧ Inv nestState ∧ Inv cut) ∧
    (mvDue State.reset ⟨31, 0, 0⟩ = true ∧ mvTurn State.reset ⟨31, 0, 0⟩ = true ∧ mvDue (barNow (2 ^ 16)) ⟨0, 0, 0⟩ = true ∧
      mvTurn (barNow (2 ^ 16)) ⟨0, 0, 0⟩ = true ∧ mvDue (barNow 0) ⟨0, 0, 0⟩ = false ∧ heldAny State.reset 7 = false ∧
      (∃ x ∈ (clu (barNow (2 ^ 16) (held := [0])) 0).held, x ≠ blocker 0 1) ∧ mvTurn (barNow (2 ^ 16) (held := [0])) ⟨0, 0, 0⟩ = false) ∧
    (State.reset.mem.tagUps = [] ∧ (slotGet State.reset k).tag = .empty ∧ (slotGet (s .filling (.core 31)) k).owner = .core 31 ∧
      (slotGet (s .filling (.core 30)) k).owner ≠ .core 31 ∧ (slotGet (s .full .none) k).tag = .full ∧
      (slotGet (s .invalid .none) k).tag = .invalid) ∧
    (mvMasked nestState 0 0 = false ∧ (coreAddr nestState 0 0 0 256).toOption.isSome = true ∧
      (coreAddr nestState 0 1 0 256).toOption.isSome = true ∧ (coreAddr nestState 0 0 0 (31 * 1 * 32 + 4)).toOption.isSome = true) :=
  ⟨⟨inv_of_invB (by decide +kernel), inv_of_invB (by decide +kernel), inv_of_invB (by decide +kernel),
    inv_of_invB (by decide +kernel), inv_of_invB (by decide +kernel)⟩, by decide +kernel⟩

/-- TransfersEnterThePendingList: the legal and the reserved XFER; no nest; room for one, and a full pending list; a prefetch within and
past the last step; XPRE within and past it; RING and HALO of two members; FENCE with the list empty and not. -/
theorem test_met_transfers :
    let x : XArgs := ⟨0, 1, 1, 0, 0, false, false, false, false, 0, 0⟩
    let r : RArgs := ⟨3, false, 0, 1, 0, 0, false, false, false⟩
    let full := bases (barState { running := true, nest := some nest1, xfers := List.replicate 64 xfer1 })
    let s := { nestState with rf := (regs [(rEngProgClass, 0x16674110)]).rf }
    (Inv nestState ∧ Inv full ∧ Inv s ∧ Inv State.reset) ∧
    (xOk false x = true ∧ xOk false { x with src := 4 } = false ∧ xOk true x = true) ∧
    (kslotTurn nestState 0 = true ∧ kslotTurn (barNow 0) 0 = false ∧ (clu nestState 0).held = [] ∧
      (∃ b ∈ (clu (barState { held := [0] }) 0).held, b ≠ blocker 4 0)) ∧
    ((clu nestState 0).nest = some nest1 ∧ xStrmOk nest1 x = true ∧ nest1.inBody = true ∧ steps nest1 ≤ nest1.pass + 2 ∧
      nest1.pass + 1 < steps nest1) ∧
    (let y := rowXfer nestState 0 nest1 nest1.idx x
     (clu nestState 0).xfers.length + 1 ≤ 64 ∧ (clu nestState 0).xfers.getLast? = none ∧ 0 < opCount y ∧
      ¬((clu full 0).xfers.length + 1 ≤ 64)) ∧
    (let d := ramPutNat (ramPutNat State.reset (descBase 0 0 + 20) 4 0x8000) (descBase 0 0 + 28) 4 0x8001
     let ns := enterNest d 0 0 0
     (∀ b ∈ ns.desc.src, b ≠ 0xF) ∧ xStrmOk ns x = true ∧ 0 < steps ns ∧ steps ns ≤ 3 ∧
      (let y := rowXfer d 0 ns (idxAfter ns 0) x
       (clu d 0).xfers.getLast? = none ∧ 0 < opCount y)) ∧
    ((rStrm s 0 r).toOption.isSome = true ∧ maskOk (classCores (rd s rEngProgClass)) r.mask = true ∧
      (clu s 0).xfers.length + (bitList 4 r.mask).length ≤ 64 ∧ ¬((clu full 0).xfers.length + (bitList 4 r.mask).length ≤ 64)) ∧
    ((clu State.reset 7).xfers = [] ∧ (clu full 0).xfers ≠ [] ∧ (clu State.reset 7).nest = none) :=
  ⟨⟨inv_of_invB (by decide +kernel), inv_of_invB (by decide +kernel), inv_of_invB (by decide +kernel),
    inv_of_invB (by decide +kernel)⟩, by decide +kernel⟩

/-- An operation of `xfer1` with its data read, or not. -/
def op1 (d : Bool) : XOp :=
  ⟨0, 0, 0x2000000000, 0x2000001000, 64, 0, true, .loc, 0, 0, if d then some (List.replicate 64 1, List.replicate 64 false) else none,
    false, none, none⟩

/-- A state of `xfer1` with operations, its source slot full where `f`. -/
def opState (f : Bool) (x : Xfer) (ops : List XOp) (s : State := State.reset) : State :=
  slotState 0 ⟨if f then .full else .filling, .loc, .none⟩ (barState { xfers := [x], ops := ops } s)

/-- TransferOperationsRespectSlots: an operation that may issue, and one whose source slot is not full; a read; a write into an EMPTY
slot, one whose slot is FULL, and one that an older write is held for; a ring held by a tie-point; a destination on another chip with
no window; a commit, of a slot that was refused as well; a held write whose slot is EMPTY again. -/
theorem test_met_transfer_operations :
    let s := opState true xfer1 [] (regs [(rCluCtl 0, 1)])
    let wr := opState true xfer1 [op1 true]
    let busy := slotState 1 ⟨.full, .loc, .none⟩ wr
    let all := opState true { xfer1 with acks := 1, next := 1, reads := 1 } []
    let h : Held := ⟨0, 0x2000001000, .dma 0, .loc, 0, 0, 0, List.replicate 64 0, List.replicate 64 false⟩
    let held : State := { State.reset with mem := { holds := [h] } }
    let late : State := { wr with mem := { wr.mem with holds := [h] } }
    let far := opState true { xfer1 with dst := 2 ^ 40 } [] (regs [(rCluCtl 0, 1)])
    let wait := barState { running := true, waiting := true }
    (Inv late ∧ Inv far ∧ ringHeld s 0 = false ∧ ringHeld wait 0 = true ∧ s.mem.tagUps = [] ∧ wr.mem.tagUps = [] ∧ wr.mem.parUps = [] ∧
      wr.mem.ecc = [] ∧ (partAt 0 (rowParts xfer1 0)).any (fun p => p.ring && !p.masked) = true ∧
      ((clu s 0).ops.filter fun y => y.core == chargeOf s 0 (rowSrcA xfer1 0) 0x2000001000).length < 256) ∧
    ((xferOps { xfer1 with dst := 2 ^ 40 })[0]? = some (0, 0, 2 ^ 40, 64) ∧ 2 ^ 40 / 2 ^ 40 ≠ ownChip far ∧ winOf far true (2 ^ 40) = none) ∧
    ((slotGet late 1).tag = .empty ∧ (∃ h ∈ late.mem.holds, heldKey h = 1) ∧ (∀ h ∈ wr.mem.holds, heldKey h ≠ 1) ∧
      (∀ z ∈ (clu all 0).xfers.takeWhile (fun z => z.id != 0), ∀ q ∈ dstKeys z, q ∉ dstKeys xfer1) ∧
      dstKeys xfer1 = [(0, 1)] ∧ (slotGet (slotState 1 ⟨.filling, .loc, .cluster 0⟩ all) 1).owner = .cluster 0) ∧
    (Inv s ∧ Inv wr ∧ Inv busy ∧ Inv all ∧ Inv held) ∧
    (xferOf s 0 0 = some xfer1 ∧ (xferOps xfer1)[xfer1.next]? = some (0, 0, 0x2000001000, 64) ∧ rdB s (rCluCtl 0) 0 = true ∧
      (∀ key ∈ srcKeys s xfer1, (slotGet s key).tag = .full) ∧ 0 < xfer1.maskFrom ∧
      truncI 64 ((rowSrcA xfer1 0 + 0 : Nat) : Int) / 2 ^ 40 = ownChip s ∧
      ¬(∀ key ∈ srcKeys s xfer1, (slotGet (opState false xfer1 []) key).tag = .full)) ∧
    (((clu (opState true xfer1 [op1 false]) 0).ops.find? fun y => y.xid == 0 && y.ix == 0) = some (op1 false) ∧
      scrubbing State.reset ((op1 false).src % 2 ^ 40) = false) ∧
    (((clu wr 0).ops.find? fun y => y.xid == 0 && y.ix == 0) = some (op1 true) ∧ opBehind wr 0 (op1 true) = false ∧
      (op1 true).dst / 2 ^ 40 = ownChip wr ∧ memAt ((op1 true).dst % 2 ^ 40) = some 0 ∧ isStale wr 0 0 = false ∧
      (heldOf wr 0).length < 64 ∧ (slotGet wr 1).tag = .empty ∧ (slotGet busy 1).tag = .full) ∧
    (xferOf all 0 0 = some { xfer1 with acks := 1, next := 1, reads := 1 } ∧ xferWritten { xfer1 with acks := 1, next := 1, reads := 1 } = true ∧
      (∀ q ∈ dstKeys xfer1, q.1 = ownChip all)) ∧
    ((slotGet held 1).tag = .empty ∧ held.mem.holds.find? (fun h => h.addr % 0x2000000000 / 4096 == 1) = some h) :=
  ⟨⟨inv_of_invB (by decide +kernel), inv_of_invB (by decide +kernel), by decide +kernel⟩, by decide +kernel, by decide +kernel,
    ⟨inv_of_invB (by decide +kernel), inv_of_invB (by decide +kernel), inv_of_invB (by decide +kernel),
      inv_of_invB (by decide +kernel), inv_of_invB (by decide +kernel)⟩, by decide +kernel⟩

/-- ScrubberTagsAndDescriptors: the scrubber on and off, a word waiting for its write-back, a tag command, a staged register out of and
in a running placement, and descriptors: waiting, none, written, and written back to another chip. -/
theorem test_met_scrubber :
    let on := regs [(rCluCtl 0, 1), (rCluScrubCtl 0, 1)]
    let wb : State := { State.reset with mem := { wb := [5] } }
    let run := regs [(rEngStatus, 1), (rEngCtl, 0x101)]
    let dma := regs [(rDmaCtl, 1), (rDmaChHead 7, 1)]
    let done : State := { State.reset with dma := { busy := true, stop := true } :: List.replicate 7 {} }
    (Inv on ∧ Inv wb ∧ Inv run ∧ Inv dma ∧ Inv done) ∧
    (scrubOn on 0 = true ∧ (clu on 0).scrub.length = 5 ∧ scrubOn State.reset 0 = false ∧ 5 ∈ wb.mem.wb) ∧
    (rdB State.reset rTopIslRst 7 = false ∧ chkBusy State.reset 0x17 = false ∧ on.mem.ecc = []) ∧
    ((regRow (rCluTagCmd 7)).any (fun r => !wrDropped State.reset (rCluTagCmd 7) r) = true ∧ rdF State.reset (rCluTagSel 7) 18 16 < 5) ∧
    ((regRow (rCluEdge 0 0 0)).any (fun r => r.staged != 0 && !wrDropped State.reset (rCluEdge 0 0 0) r && r.w1c == 0 && r.w1s == 0) = true ∧
      stagedOk run 0 = false ∧ (regOwn State.reset (rCluEdge 0 0 0) 1).isNone = true ∧ enOf (rCluEdge 0 0 0) = none) ∧
    ((dmaOf dma 7).far ≠ 1 ∧ dmaDescAt done 0 / 2 ^ 40 = ownChip done ∧
      (let far : State := { done with dma := { busy := true, far := 2 } :: List.replicate 7 {} }
       (dmaOf far 0).far = 2 ∧ (dmaOf far 0).ops = []) ∧ (dmaOf dma 7).busy = false ∧ rdB dma rDmaCtl 0 = true ∧ rdF dma (rDmaChHead 7) 9 0 % dmaSize dma 7 ≠ rdF dma (rDmaChTail 7) 9 0 ∧
      dmaWritten (dmaOf done 0) = true ∧ dmaWritten (dmaOf dma 7) = false ∧ rdB State.reset rDmaCtl 0 = false) :=
  ⟨⟨inv_of_invB (by decide +kernel), inv_of_invB (by decide +kernel), inv_of_invB (by decide +kernel),
    inv_of_invB (by decide +kernel), inv_of_invB (by decide +kernel)⟩, by decide +kernel⟩

end Sys2Proof.Tests
end

