-- ==== Sys2Proof/Tests/MetC.lean ====
section
/-! SUPPORT. States and operands that meet the hypotheses of the statements: cameras, codecs, sample queues, the fabric and DRAM. -/

namespace Sys2Proof.Tests
set_option Elab.async false
open Sys2Proof Sys2Proof.Machine

/-- A long packet of RAW12 on channel 0, or of another type. -/
def pkt (dt hdr : Nat) (crc : Bool) (n : Nat := 3) : CsiPkt := ⟨0, dt, 1, List.replicate n 0, hdr, crc⟩

/-- CameraPortsQueuePackets: a port that takes input, one that is off, one that closes, and one of a disabled block; no stream, a stream,
and a full FIFO; each header outcome, an unknown type, and a CRC error; a flush request and the boundary. -/
theorem test_met_camera_ports :
    let on := regs [(rCsiCtl, 1), (rCsiPortCtl 11, 0x80000000)]
    let off := regs [(rCsiPortCtl 11, 0x80000000)]
    let str := regs [(rCsiCtl, 1), (rCsiPortCtl 11, 0x80000000), (rCsiStrCfg 47, 0x80B0B000)]
    let full := { str with csi := { str.csi with ports := List.replicate 11 [] ++ [List.replicate 256 (pkt 0 0 true, 0)] } }
    let closing := { on with csi := { on.csi with closing := [11] } }
    let dt := 0x2C
    (Inv State.reset ∧ Inv on ∧ Inv off ∧ Inv str ∧ Inv full ∧ Inv closing) ∧
    (rdB on rCsiCtl 0 = true ∧ rdB off rCsiCtl 0 = false ∧ ¬(rdB State.reset (rCsiPortCtl 11) 31 = true ∨ 11 ∈ State.reset.csi.closing) ∧
      rdB on (rCsiPortCtl 11) 31 = true ∧ (pkt 0x2C 2 true).hdr = 2 ∧ (pkt 0x2C 1 true).hdr = 1 ∧ (pkt 0x10 0 true).hdr = 0 ∧
      0x10 ≤ (pkt 0x10 0 true).dt ∧ longOk 0x10 = false) ∧
    (longOk (pkt 0x2C 0 true).dt = true ∧ reached on 11 (pkt 0x2C 0 true) = [] ∧ reached str 11 (pkt 0 0 true 0) ≠ [] ∧
      portOverrun full 11 0 = true ∧ portOverrun str 11 3 = false ∧ portOverrun str 11 32769 = true ∧ (pkt 0 0 true 0).dt < 8) ∧
    (longOk dt = true ∧ strDt str 47 = dt ∧ reached str 11 (pkt dt 0 false) = [47] ∧ (pkt dt 0 false).crcOk = false) ∧
    (11 ∈ closing.csi.closing ∧ rdB (regs [(rCsiPortCtl 11, 0x40000000)]) (rCsiPortCtl 11) 30 = true ∧
      reachB on (rCsiPortCtl 11) = true ∧ rdF closing (rCsiStrCfg 0) 23 20 ≠ 11 ∧ rdF str (rCsiStrCfg 47) 23 20 = 11) :=
  ⟨⟨inv_of_invB (by decide +kernel), inv_of_invB (by decide +kernel), inv_of_invB (by decide +kernel),
    inv_of_invB (by decide +kernel), inv_of_invB (by decide +kernel), inv_of_invB (by decide +kernel)⟩, by decide +kernel⟩

/-- A frame that expects line `next`. -/
def frame0 (next flags : Nat := 0) (got : Nat := 0) : Frame := { seq := 1, num := 1, ts := 0, buf := 0, flags := flags, got := got, next := next }

/-- Stream 0 as given. -/
def strState (x : CsiStr) (s : State := State.reset) : State := { s with csi := { s.csi with strs := x :: List.replicate 47 {} } }

/-- RoutedPacketsBuildFrames: each packet type at the front of a port; a stream with a free buffer and with none; frames open and not; a
stream that drops damaged frames, and one whose pipeline is disabled; lines within the height and beyond it, numbered and not. -/
theorem test_met_frames :
    let q (dt : Nat) : State := { State.reset with csi := { ports := [(pkt dt 0 true, 5)] :: List.replicate 11 [] } }
    let on := regs [(rCsiCtl, 1), (rCsiStrCfg 0, 0x80000000)]
    let used := regs [(rCsiStrCfg 0, 0x80000000), (rCsiStrWr 0, 16)]
    let geo := [(rCsiStrGeom 0, 0x00040008)]
    let openS (f : Frame) (cfg : Nat) := strState { cur := some f } (regs ((rCsiStrCfg 0, cfg) :: (rIspCtl, 1) :: geo))
    (Inv on ∧ Inv used ∧ Inv (openS frame0 0x98000000) ∧ Inv State.reset) ∧
    (portQ (q 0) 0 = (pkt 0 0 true, 5) :: [] ∧ portQ (q 1) 0 = (pkt 1 0 true, 5) :: [] ∧ portQ (q 2) 0 = (pkt 2 0 true, 5) :: [] ∧
      portQ (q 3) 0 = (pkt 3 0 true, 5) :: [] ∧ portQ (q 0x2C) 0 = (pkt 0x2C 0 true, 5) :: [] ∧ portQ (q 0x12) 0 = (pkt 0x12 0 true, 5) :: []) ∧
    (rdB on rCsiCtl 0 = true ∧ strOn on 0 = true ∧ (strOf on 0).cur = none ∧ (rdF on (rCsiStrWr 0) 7 0 + 256 - rdF on (rCsiStrRel 0) 7 0) % 256 < strNbuf on 0 ∧
      strNbuf used 0 ≤ (rdF used (rCsiStrWr 0) 7 0 + 256 - rdF used (rCsiStrRel 0) 7 0) % 256) ∧
    ((strOf (openS frame0 0x80000000) 0).cur = some frame0 ∧ rdB (openS frame0 0x80000000) (rCsiStrCfg 0) 27 = false ∧
      ispOff (openS frame0 0x80000000) 0 = false ∧ ispOff (strState { cur := some frame0 }) 0 = true ∧
      rdB (openS frame0 0x88000000) (rCsiStrCfg 0) 27 = true ∧ frame0.next < strH (openS frame0 0x88000000) 0 ∧
      (strOf State.reset 0).dropping = false ∧ (strOf State.reset 0).cur = none) ∧
    (frame0.skip = false ∧ (∃ n, n < 100 ∧ strH (openS frame0 0) 0 ≤ (frame0 n).next) ∧ rdB (openS frame0 0x90000000) (rCsiStrCfg 0) 28 = true ∧
      1 ≤ strH (openS frame0 0) 0 ∧ (frame0 1).next > 1 - 1) ∧
    ((lineSamples (openS frame0 0) 0 []).length / perPx (openS frame0 0) 0 < strW (openS frame0 0) 0) :=
  ⟨⟨inv_of_invB (by decide +kernel), inv_of_invB (by decide +kernel), inv_of_invB (by decide +kernel),
    inv_of_invB (by decide +kernel)⟩, by decide +kernel⟩

/-- FramesSetsAndBuffersAreHandedOver: a staged line for pipe 0, whose pipeline is enabled or not; closed frames with and without staged
lines, and none; an open set before and after WAIT, with room in its queue and with none; releases within and beyond the buffers; a
stream that is armed and one that is not; a parameter check in progress, passed and failed. -/
theorem test_met_frames_done :
    let g : Staged := ⟨1, 0, [7], 0, 0⟩
    let st (sh : List Frame) (sg : List Staged) (en : Nat) := strState { shut := sh, staged := sg, cur := some frame0 } (regs [(rIspCtl, en)])
    let o : OpenSet := ⟨0, 0, 0, [], [0]⟩
    let fg (n w : Nat) : State := { regs [(rCsiFgWait 0, w)] with csi := { fgs := { cur := some o, q := { ents := List.replicate n [0] } } :: List.replicate 16 {} } }
    let arm := regs [(rIspArmHi, 0x8000)]
    let c : Chk := ⟨0x5C, rIspArmHi, 15⟩
    let chk := { State.reset with rf := { State.reset.rf with chk := [c] } }
    (Inv (st [] [g] 0) ∧ Inv (st [frame0] [g] 1) ∧ Inv (st [frame0] [] 1) ∧ Inv (fg 63 0) ∧ Inv (fg 64 0) ∧ Inv arm ∧ Inv chk) ∧
    (pipeNext (st [] [g] 1) 0 = some (0, g) ∧ ispOff (st [] [g] 0) 0 = true ∧ ispOff (st [] [g] 1) 0 = false ∧
      (strOf (st [] [g] 1) 0).cur = some frame0 ∧ frame0.seq = g.seq) ∧
    ((strOf (st [frame0] [g] 1) 0).shut = frame0 :: [] ∧ ((strOf (st [frame0] [g] 1) 0).staged.any fun g => g.seq == frame0.seq) = true ∧
      ((strOf (st [frame0] [] 1) 0).staged.any fun g => g.seq == frame0.seq) = false ∧ (strOf State.reset 47).shut = [] ∧
      ispOff (st [frame0] [] 0) 0 = true ∧ frame0.written = false) ∧
    ((fgOf (fg 63 0) 0).cur = some o ∧ rdF (fg 63 0) (rCsiFgWait 0) 19 0 * 1000 ≤ now (fg 63 0) - o.tOpen ∧
      now (fg 63 1) - o.tOpen < rdF (fg 63 1) (rCsiFgWait 0) 19 0 * 1000 ∧
      fifoFull 64 (fgOf (fg 63 0) 0).q = false ∧ fifoFull 64 (fgOf (fg 64 0) 0).q = true) ∧
    ((rdF State.reset (rCsiStrWr 0) 7 0 + 256 - 0) % 256 ≤ strNbuf State.reset 0 ∧ reachB State.reset (rCsiStrRel 47) = true ∧
      ¬((rdF State.reset (rCsiStrWr 0) 7 0 + 256 - 1) % 256 ≤ strNbuf State.reset 0)) ∧
    (rdB arm rIspArmHi (47 % 32) = true ∧ rdB arm rIspArmLo (31 % 32) = false ∧ reachB arm rIspArmHi = true ∧ reachB arm rIspArmLo = true) ∧
    ((chk.rf.chk.find? fun c => c.blk == 0x5C) = some c ∧ chk.rf.held = [] ∧ enCheck chk 0x5C (.arm 47) = 0 ∧
      enCheck (regs [(rIspStrParam 47 0, 4)] chk) 0x5C (.arm 47) ≠ 0) :=
  ⟨⟨inv_of_invB (by decide +kernel), inv_of_invB (by decide +kernel), inv_of_invB (by decide +kernel), inv_of_invB (by decide +kernel),
    inv_of_invB (by decide +kernel), inv_of_invB (by decide +kernel), inv_of_invB (by decide +kernel)⟩, by decide +kernel⟩

/-- Session 0 as given, with its ring in media SRAM, HEAD past TAIL, and a descriptor of `len` bytes at `src` in it. -/
def sesState (x : Ses) (ctl len : Nat) (src : Nat := 0x2100000100) : State :=
  let s := regs [(rVidCtl, 1), (rVidSesCtl 0, ctl), (rVidSesRingLo 0, 0), (rVidSesRingHi 0, 0x21), (rVidSesHead 0, 1),
    (rVidSesCapBytes 0, 4096), (rVidSesCap 0, 0x00100010)]
  ramPutNat (ramPutNat { s with vid := { s.vid with ses := x :: List.replicate 31 {} } } 0x2100000008 4 len) 0x2100000000 8 src

/-- A picture of one block. -/
def pic1 : Pic := ⟨1, 1, 8, 0, [0], [], [], [], []⟩

/-- What a unit decodes to, with the set it uses. -/
def dec1 (uses cycles : Nat) : DecOut := ⟨[], uses, some pic1, 1, 1, [], none, false, cycles, [], false⟩

/-- CodecUnitsEndInReports: a session whose turn it is; a descriptor that is refused and one that is taken; an unknown set, a refused one
and a good one; an output that another unit must wait for; a unit with and without a picture, in error and not, within and beyond the
budget; a unit in progress, whose error lies before the blocks left undecoded or behind; an encoder; a write that reaches EN. -/
theorem test_met_codecs :
    let cl : Claim := ⟨1, 1, 8, 0, .main, 1, 1, false, true, false, .baseline, 1, 0⟩
    let x : Ses := { sets := [(0, 0, cl), (2, 0x60, cl)] }
    let s (len : Nat) := sesState x 0x80000001 len
    let d : VidDesc := ⟨0x2100000100, 1, 0, 0, 0, 0⟩
    let v (e : Option Nat) : VidRun := ⟨d, dec1 0 999, false, e, [], 0, 0⟩
    let busy (e : Option Nat) := sesState { x with busy := [v e] } 0x80000001 1
    let jpeg := sesState { x with outs := [⟨⟨0, 0, 0, 0, 0, 0, 0, 0⟩, d, some pic1, some 0, 7, true⟩], ord := 8 } 0xB0000001 1
    let enc := sesState x 0x88000001 1
    let g := vidRead (turnNext (takeUnit (s 1) 0).2 0) 0 d.src d.len
    let used (i : Nat) := (sesOf (addSets g.2 0 []) 0).sets.find? fun c => c.1 == i
    (Inv (s 1) ∧ Inv (s 0) ∧ Inv (busy none) ∧ Inv jpeg ∧ Inv enc) ∧
    (sesTurn (s 1) 0 = true ∧ sesTurn jpeg 0 = true ∧ sesTurn (s 0) 0 = true ∧ sesTurn enc 0 = true ∧ sesEnc (s 1) 0 = false ∧
      busyEngines (s 1) (sesCodec (s 1) 0 == 3) < 4 ∧ busyEngines jpeg true < 4 ∧ sesCodec (s 1) 0 ≠ 3 ∧ sesCodec jpeg 0 = 3 ∧
      fifoFull 64 (sesOf (s 1) 0).rep = false) ∧
    ((sesOf (s 1) 0).outs = [] ∧ (sesOf (s 1) 0).busy = [] ∧ (∀ o ∈ (sesOf jpeg 0).outs, o.ord ≠ (sesOf jpeg 0).ord ∧ o.pic.isSome = true)) ∧
    (((takeUnit (s 0) 0).1.any fun y => y.2) = true ∧ (takeUnit (s 1) 0).1 = some (d, false) ∧ (takeUnit jpeg 0).1 = some (d, false)) ∧
    (g.1.pois.any id = false ∧ (vidRead (s 1) 0 0 1).1.pois.any id = true ∧ used 1 = none ∧ used 2 = some (2, 0x60, cl) ∧ used 0 = some (0, 0, cl) ∧ (dec1 0 256).pic = some pic1 ∧
      ({ dec1 0 1 with pic := none }).pic = none ∧ ({ dec1 0 1 with err := some 3 }).err.isSome = true ∧
      (dec1 0 256).cycles ≤ unitBudget (s 1) 0 d ∧ unitBudget (s 1) 0 d < (dec1 0 257).cycles) ∧
    ((sesOf (busy none) 0).busy = v none :: [] ∧ (v none).out.pic = some pic1 ∧ errMet (v none) [0] = false ∧ errMet (v (some 3)) [0] = true) ∧
    (sesEnc enc 0 = true ∧ (takeUnit enc 0).1 = some (d, false) ∧ fifoFull 64 (sesOf enc 0).rep = false ∧ 1 ≤ capW enc 0 ∧ 1 ≤ capH enc 0 ∧
      d.len < [1, 2].length ∧ unitBudget enc 0 d < 257 ∧ ¬unitBudget enc 0 d < 256 ∧ reachB enc (rVidSesCtl 0) = true ∧
      rdB enc (rVidSesCtl 0) 31 = true) :=
  ⟨⟨inv_of_invB (by decide +kernel), inv_of_invB (by decide +kernel), inv_of_invB (by decide +kernel),
    inv_of_invB (by decide +kernel), inv_of_invB (by decide +kernel)⟩, by decide +kernel⟩

/-- Queue 0 as given. -/
def sqState (x : Sq) (s : State := State.reset) : State := { s with vid := { s.vid with qs := x :: List.replicate 63 {} } }

/-- A picture that waits in session 0, with an augmentation record of one pixel in media SRAM and a queue that takes it. -/
def shapeState (x : Sq) (ctl en : Nat) (on : Nat := 1) : State :=
  let d : VidDesc := ⟨0, 1, 0, 0x2100000000, 7, ctl⟩
  let s := sqState x (regs [(rShpCtl, on), (rVidSesCtl 0, 0x80000000), (rShpQCtl 0, en), (rShpQGeom 0, 0x00200002)])
  let s := { s with vid := { s.vid with ses := { outs := [⟨{ id := 7 }, d, some pic1, some 0, 0, true⟩] } :: List.replicate 31 {} } }
  ramPut s 0x2100000000 (leBytes 8 (2 ^ 32 + 2 ^ 48) ++ leBytes 2 1 ++ leBytes 2 1 ++ leBytes 4 32)

/-- SampleQueuesKeepTheirPointers: a command in its turn and out of it, the beat blocked by something else and by itself; a sample to read
and none; copies finished and not; a write that reaches FLUSH; a picture whose turn it is and one whose is not; a sample that is skipped,
one whose record is bad, a full queue, and room. -/
theorem test_met_sample_queues :
    let some1 := sqState { commit := 1 } nestState
    let none0 := sqState {} nestState
    let cop (x : Xfer) := sqState { commit := 1, read := 1, target := 1, copies := [(0, 0, 0)] } (barState { xfers := [x] })
    let held (b : Nat) := sqState { commit := 1 } (barState { nest := some nest1, held := [b] })
    let idle := barState { running := true, bar := some ⟨4, ⟨0, 0, false, false, 0, false, 0, 1⟩, [], none⟩ }
    (Inv some1 ∧ Inv none0 ∧ Inv (cop xfer1) ∧ Inv (held 12) ∧ Inv idle ∧ Inv (shapeState {} 0 0x80000000)) ∧
    (kslotTurn some1 0 = true ∧ kslotTurn idle 0 = false ∧ (clu some1 0).held = [] ∧ (∀ b ∈ (clu (held (blocker 4 0)) 0).held, b = blocker 4 0) ∧
      (∃ b ∈ (clu (held 0) 0).held, b ≠ blocker 4 0 ∧ b ≠ blocker 4 8)) ∧
    ((strmOk some1 0 0).toOption.isSome = true ∧ 0 ∉ (sqOf some1 0).ended ∧ (sqOf some1 0).read < (sqOf some1 0).commit ∧
      (clu some1 0).xfers.length < 64 ∧ 64 ≤ (List.replicate 64 xfer1).length ∧ (sqOf none0 0).commit ≤ (sqOf none0 0).read ∧
      (sqOf some1 0).free ≤ (sqOf some1 0).read ∧ (sqOf some1 0).copies = [] ∧ reachB some1 (rShpQCtl 63) = true) ∧
    ((sqOf none0 0).copies = [] ∧ (xferOf (cop xfer1) 0 0).isSome = true ∧ (xferOf (cop { xfer1 with id := 9 }) 0 0).isSome = false ∧
      (sqOf (cop xfer1) 0).free ≤ (sqOf (cop xfer1) 0).target) ∧
    (let bad (s : State) := (let v := vidRead s 0 0x2100000000 64
      augBad v.2 0 1 1 (augOf v.1.data))
     (sesOf (shapeState {} 0 0x80000000) 0).outs[0]?.isSome = true ∧ bitN 64 6 = true ∧ bad (shapeState {} 0 0x80000000) = false ∧
      outTurn (shapeState {} 0 0x80000000) 0 0 = true ∧ outTurn (shapeState {} 0 0x80000000 0) 0 0 = false ∧
      bad (shapeState {} 0 0) = true ∧ sqFull (shapeState {} 0 0x80000000) 0 = false ∧
      sqFull (shapeState { commit := 2 } 0 0x80000000) 0 = true ∧ fifoFull 64 (sesOf (shapeState {} 0 0x80000000) 0).rep = false) :=
  ⟨⟨inv_of_invB (by decide +kernel), inv_of_invB (by decide +kernel), inv_of_invB (by decide +kernel),
    inv_of_invB (by decide +kernel), inv_of_invB (by decide +kernel), inv_of_invB (by decide +kernel)⟩, by decide +kernel⟩

/-- LogSafe where no ring is set up. -/
theorem logSafe_of {s : State} (h : ramNat s (hpAddr 0x804) 4 < 64) : LogSafe s := .inl h

/-- FabricAccessesAreCheckedAndPerformed: an access refused, one that is let through at the ends of media SRAM, and a window that is
missing. -/
theorem test_met_fabric :
    let s := State.reset
    let w : Who := ⟨agentIsl 13, 13, 0, none, none⟩
    (Inv s ∧ LogSafe s) ∧ (regionOf 0x2600000000 = none ∧ accessCode s w false 0x2600000000 ≠ 0 ∧ accessCode s w true 0x2600000000 ≠ 0 ∧
      scrubbing s 0x2600000000 = false) ∧
    (regionOf 0x2100000000 = some .media ∧ regionOf 0x21007FFFFF = some .media ∧ accessCode s w true 0x21007FFFFF = 0 ∧
      barred s w true 0x21007FFFFF = false ∧ accessCode s w false 0x2100000000 = 0 ∧ barred s w false 0x2100000000 = false ∧
      0x21007FFFFF % 64 + 1 ≤ 64 ∧ regionOf 0x2000000000 = some .spm ∧ regionOf 0x2300000000 = some .ctl) ∧
    (2 ^ 40 / 2 ^ 40 ≠ ownChip s ∧ winOf s true (2 ^ 40) = none ∧ winOf s false (2 ^ 40) = none) :=
  ⟨⟨inv_of_invB (by decide +kernel), logSafe_of (by decide +kernel)⟩, by decide +kernel⟩

/-- DRAM in service, with one line written. -/
def dramState (st : Nat := 2) : State :=
  let s := setTrain (regs [(rMemCap, 1), (rMemCtl, 1), (rMemRgnCtl 0, 0xA0000000), (rMemRgnSize 0, 1), (rMemScrubCtl, 1)]) st
  { s with mem := { s.mem with dram := [(2048, some ⟨List.replicate 64 9, {}⟩)] } }

/-- DramLinesKeepWhatIsWritten: a poisoned write into a region with bit 29, and not; a whole line and a part of a written one; symbol
errors that decode, and three in one codeword that do not; a patrol scrubber that is ready, off and past its lines, before and at the
end of its pass. -/
theorem test_met_dram_lines :
    let s := dramState
    let v : DLine := ⟨List.replicate 64 9, {}⟩
    Inv s ∧ (dramOn s = true ∧ 0 < memCap s ∧ 2048 * 64 + 63 < memCap s ∧ rgnOf s 0 = some 0 ∧ rdB s (rMemRgnCtl 0) 29 = true ∧
      rgnOf s 131072 = none ∧ mget dram0 s.mem.dram 2048 = some v ∧ v.data.length = 64 ∧ v.tag.job < 4096) ∧
    ((decodeWord (errOf [(0, 1), (1, 1), (2, 5)] 0)).isNone = true ∧ (decodeWord (errOf [(39, 1), (79, 255)] 0)).isSome = true ∧
      (decodeWord (errOf [(39, 1), (79, 255)] 1)).isSome = true ∧ v.tag.fmt < 16 ∧ v.tag.epoch < 16) ∧
    (let p (l : List Nat) : State := { s with mem := { s.mem with patrol := l } }
     let n := subLines s
     s.mem.patrol.length = 6 ∧ rdF s rMemScrubCtl 15 0 ≠ 0 ∧ 2048 = 6 * 341 + 2 ∧ 341 < n ∧ (p [0, 0, 341, 0, 0, 0]).mem.patrol.getD 2 0 = 341 ∧
      (¬∀ i, i < 6 → n ≤ ([0, 0, 342, 0, 0, 0] : List Nat).getD i 0) ∧ ¬(n < n) ∧ rdF (regs [(rMemScrubCtl, 0)] s) rMemScrubCtl 15 0 = 0) :=
  ⟨inv_of_invB (by decide +kernel), by decide +kernel⟩

/-- DramControllerFollowsItsStates: each training state, with full training asked for and not; checks that fail and pass; a scan that may
start, one that may not, and one under way; regions and windows. -/
theorem test_met_dram_controller :
    let s (st c : Nat) := setTrain (regs [(rMemCtl, 1), (rMemTrainCtl, c), (rMemCap, 1)]) st
    let bad := regs [(rMemDdrCfg, 7)]
    let scan (n : Nat) := regs [(rMemPscanBaseHi, 0x20), (rMemPscanLen, n), (rMemPscanCtl, 0x80000000)]
    (Inv State.reset ∧ Inv bad ∧ Inv (s 1 0) ∧ Inv (s 1 1) ∧ Inv (s 2 0) ∧ Inv (s 3 0) ∧ Inv (scan 1)) ∧
    (reachB State.reset rMemCtl = true ∧ reachB (s 2 0) rMemTrainCtl = true ∧ reachB (s 1 0) rMemCtl = true ∧
      reachB State.reset rMemPscanCtl = true ∧ reachB State.reset rMemFwCtl = true ∧ reachB State.reset (rMemRgnCtl 63) = true ∧
      reachB State.reset (rMemWinCtl 31) = true ∧ rdB (regs [(rMemRgnCtl 63, 0x40000000)]) (rMemRgnCtl 63) 30 = true ∧
      rdB (regs [(rMemWinCtl 31, 0x80000000)]) (rMemWinCtl 31) 31 = true ∧ rdB State.reset (rMemWinCtl 31) 31 = false) ∧
    (rdB State.reset rMemCtl 0 = false ∧ (memCheck (regs [(rMemDdrCfg, 1)]) = 0 ∨ memCheck State.reset = 0) ∧ memCheck bad ≠ 0) ∧
    (trainState (s 2 0) = 2 ∧ trainState (s 1 0) = 1 ∧ trainState (s 3 0) = 3 ∧ rdB (s 1 0) rMemTrainCtl 0 = false ∧
      rdB (s 1 1) rMemTrainCtl 0 = true ∧ rdB (s 1 0) rMemCtl 0 = true) ∧
    (rdB State.reset rMemPscanCtl 31 = false ∧ scannable (pscanBase (scan 1)) 1 = true ∧ scannable (pscanBase (scan 1)) 0x10000000 = false ∧
      rdB (scan 1) rMemPscanCtl 31 = true ∧ 0x2000000000 ≤ pscanBase (scan 1)) ∧
    (rdB (regs [(rMemRgnCtl 63, 0x80000000)]) (rMemRgnCtl 63) 31 = true ∧ rdB State.reset (rMemRgnCtl 63) 31 = false) :=
  ⟨⟨inv_of_invB (by decide +kernel), inv_of_invB (by decide +kernel), inv_of_invB (by decide +kernel), inv_of_invB (by decide +kernel),
    inv_of_invB (by decide +kernel), inv_of_invB (by decide +kernel), inv_of_invB (by decide +kernel)⟩, by decide +kernel⟩

end Sys2Proof.Tests
end

