-- ==== Sys2Proof/Tests/MetD.lean ====
section
/-! SUPPORT. A state for the premises of each statement on the host port, firmware's requests, programs, jobs, commit groups and
the security commands. -/

namespace Sys2Proof.Tests
set_option Elab.async false
open Sys2Proof Sys2Proof.Machine

/-- HostBurstsReachHostPortSram: an active channel at the first and the last backed offset in both bank modes, and past it; the other half of
64 bytes; a burst whose second half is to come, and none; the mode registers; a refresh on a live channel and on one in reset; power states. -/
theorem test_met_host_bursts :
    let s := regs [(rHptCtl, 7), (rHptStatus, 3)]
    let half := { s with hp := { s.hp with rest := [some 32, none] } }
    (Inv s ∧ Inv State.reset) ∧ (chanLive s 0 = true ∧ chanLive s 1 = true ∧ hostOff s 0 (devAddr 0 (.flat 0) 0) = some 0 ∧
      hostOff s 1 (devAddr 63 (.flat 15) 2047) = some 0x3FFFFF ∧ hostOff s 1 (devAddr 63 (.grouped 3 3) 2047) = some 0x3FFFFF ∧
      hostOff s 0 (devAddr 64 (.flat 0) 0) = none ∧ hostOff s 0 (restAddr 0) = some 32 ∧ (64 < 0x60 ∧ 0x40 < 64 + 32)) ∧
    (half.hp.rest.getD 0 none = some 32 ∧ hostOff half 0 32 = some 32 ∧ s.hp.rest.getD 1 none = none) ∧
    (s.hp.mrs.length = 2 ∧ mwf (fun _ => (0 : Byte)) (s.hp.mrs.getD 0 []) = true ∧ s.hp.tuf.length = 2 ∧ s.hp.wfifo.length = 2) ∧
    (chanOn s 0 = true ∧ chanPwr s 0 ≠ 3 ∧ chanLive State.reset 0 = false) :=
  ⟨⟨inv_of_invB (by decide +kernel), inv_of_invB (by decide +kernel)⟩, by decide +kernel⟩

/-- HostPortSignalsAndAttention: a write that reaches the attention bits. -/
theorem test_met_host_signals : Inv State.reset ∧ reachB State.reset rHptAttnSet = true ∧ 255 < 256 ∧ 1 < 2 :=
  ⟨inv_of_invB (by decide +kernel), by decide +kernel⟩

/-- Ring pair 0 with one request in it, and with REQ_PROD as given. -/
def ringState (prod : Nat) (e : List Byte := reqE 2) : State :=
  let p := hpAddr 0x100
  let s := ramPutNat (ramPutNat (ramPutNat (fwOn 4) p 4 0x1000) (p + 8) 4 0x2000) (p + 0x20) 4 prod
  { ramPut s (hpAddr 0x1000) e with trace := 0 }

/-- A result channel 0 of 4 slots of 2 units, and a result of job 1 that waits to be published. -/
def pubState (rel : List Nat := List.replicate 16 0) (g : Nat := 0) : State :=
  let c := chanPage 0
  let s := ramPutNat (ramPutNat (ramPutNat (ramPutNat (fwOn 4) c 4 0x50000) (c + 4) 2 4) (c + 6) 2 2) (c + 8) 4 g
  { s with fw := { s.fw with jobs := [{ job1 with rsrc := 0x2000000000, rlen := 32 }], pubs := [⟨1, 1, 0, 0, false, 0, 0, 0, 0⟩], relSeen := rel } }

/-- RequestsAndResultsPassTheRings: an empty ring, one request that passes its checks, one that fails them, one whose pair waits; a page
that the firewall keeps from firmware; an overrun new and known; ring pair 8; a result with and without room; a release that is valid and one that is not. -/
theorem test_met_rings :
    let d (s : State) := (ramNat s (pairPage s 0 + 0x20) 4 + 2 ^ 32 - ramNat s (pairPage s 0 + 0x40) 4) % 2 ^ 32
    let ent (s : State) := ramGet s (pairMem 0 + ramNat s (pairPage s 0) 4 + ramNat s (pairPage s 0 + 0x40) 4 %
      ramNat s (pairPage s 0 + 4) 4 * 64) 64
    let e8 := reqE 2 [] 0
    let s8 : State := { fwOn 4 with trace := 0, fw := { (fwOn 4).fw with in8 := [(1, e8)], neg := [(8, 0x100, 0x3FF)] } }
    let busy := { ringState 1 with fw := { (ringState 1).fw with taken := [(0, reqE 2)] } }
    let kept := regs [(rMemFwCtl, 1)] (ringState 1)
    (Inv busy ∧ Inv kept ∧ Inv (ringState 0) ∧ Inv (ringState 1) ∧ Inv (ringState 17) ∧ Inv (ringState 1 (reqE 0x99)) ∧ Inv s8 ∧ Inv (pubState) ∧
      Inv (pubState (List.replicate 16 1) 5)) ∧
    (pairServed (ringState 0) 0 = true ∧ (ringState 0).fw.wait = [] ∧ bitN (ringState 0).trace 0 = false ∧ d (ringState 0) = 0 ∧
      0 < ramNat (ringState 0) (pairPage (ringState 0) 0 + 4) 4) ∧
    (fwReads (ringState 1) (pairPage (ringState 1) 0) = true ∧
      fwReads (ringState 1) (pairMem 0 + ramNat (ringState 1) (pairPage (ringState 1) 0) 4) = true ∧
      accessCode (ringState 1) (whoFw (ringState 1)) true (pairPage (ringState 1) 0 + 0x40) = 0 ∧ pairOpen (ringState 1) 0 = true ∧
      d busy = 1 ∧ pairOpen busy 0 = false ∧ pairServed kept 0 = true ∧ fwReads kept (pairPage kept 0) = false) ∧
    (d (ringState 1) = 1 ∧ requestCheck (ringState 1) 0 0 (ent (ringState 1)) = 0 ∧
      requestCheck (ringState 1 (reqE 0x99)) 0 0 (ent (ringState 1 (reqE 0x99))) ≠ 0 ∧ d (ringState 17) = 17 ∧
      ramNat (ringState 17) (pairPage (ringState 17) 0 + 4) 4 < 17 ∧ 0 ∉ (ringState 17).fw.ovr) ∧
    (pairServed s8 8 = true ∧ roleOf s8 ≠ 1 ∧ s8.fw.in8 = [(1, e8)] ∧ bitN s8.trace 0 = false ∧ pairOpen s8 8 = true ∧
      pairOpen { s8 with fw := { s8.fw with taken := [(8, e8)] } } 8 = false ∧ requestCheck s8 8 s8.fw.cons8 e8 = 0) ∧
    ((pubOf (pubState) 0).isSome = true ∧ 32 + 32 ≤ ramNat pubState (chanPage 0 + 6) 2 * 32 ∧
      (ramNat pubState (chanPage 0 + 8) 4 + 1 ≤ 0 + ramNat pubState (chanPage 0 + 4) 2 ∧
        passReported pubState ⟨1, 1, 0, 0, false, 0, 0, 0, 0⟩ = true) ∧
      ¬(ramNat (pubState (List.replicate 16 1) 5) (chanPage 0 + 8) 4 + 1 ≤ 1 + ramNat (pubState (List.replicate 16 1) 5) (chanPage 0 + 4) 2)) ∧
    ((pubState).fw.relSeen.length = 16 ∧ (pubState).fw.relSeen.getD 0 0 ≤ ramNat pubState (chanPage 0 + 0x20) 4 ∧
      ramNat pubState (chanPage 0 + 0x20) 4 ≤ ramNat pubState (chanPage 0 + 8) 4 ∧
      ¬(pubState (List.replicate 16 1) 5).fw.relSeen.getD 0 0 ≤ ramNat (pubState (List.replicate 16 1) 5) (chanPage 0 + 0x20) 4) :=
  ⟨⟨inv_of_invB (by decide +kernel), inv_of_invB (by decide +kernel), inv_of_invB (by decide +kernel), inv_of_invB (by decide +kernel),
    inv_of_invB (by decide +kernel), inv_of_invB (by decide +kernel), inv_of_invB (by decide +kernel), inv_of_invB (by decide +kernel),
    inv_of_invB (by decide +kernel)⟩, by decide +kernel⟩

/-- Firmware with one object, whose handle is 1. -/
def objState (o : Obj) (s : State := fwOn 4) : State := { s with fw := { s.fw with objs := [o] } }

/-- An image object of a class in media SRAM. -/
def obj1 : Obj := { handle := 1, kind := 0, total := 4096, base := 0x2100000000, closed := true }

/-- RequestsSettleFeaturesAndObjects: a version that both sides speak and one that they do not; GET_INFO and SET_LOG; objects opened, with
room, without it and of an unknown kind; written, closed covered and not, freed in use and not. -/
theorem test_met_requests :
    let neg (hi : Nat) := askState 1 (leBytes 2 0x100 ++ leBytes 2 hi) (fwOn 4)
    let opn (k n : Nat) := askState 0x10 ([BitVec.ofNat 8 k, 0, 0, 0] ++ leBytes 4 n) (fwOn 4)
    let opened : Obj := { handle := 1, kind := 1, total := 64, base := 0x2100000000 }
    let wr1 := askState 0x11 (leBytes 4 1 ++ leBytes 4 0 ++ leBytes 8 0x1000 ++ leBytes 4 64) (objState opened)
    let e1 := reqE 0x11 (leBytes 4 1 ++ leBytes 4 0 ++ leBytes 8 0x1000 ++ leBytes 4 64)
    let cls (l : List (Nat × Nat)) := askState 0x12 (leBytes 2 1) (objState { opened with wr := l })
    let fre (b : Bool) := askState 0x13 (leBytes 2 1) (objState { opened with inUse := b })
    (Asked (neg 0x100) 0 1 (reqE 1 (leBytes 2 0x100 ++ leBytes 2 0x100)) { fwOn 4 with fw := { (fwOn 4).fw with taken := [] } } ∧
      Asked wr1 0 0x11 e1 { objState opened with fw := { (objState opened).fw with taken := [] } }) ∧
    (Inv (neg 0x100) ∧ Inv (neg 0xFF) ∧ Inv (opn 1 0x800000) ∧ Inv (opn 1 0x800001) ∧ Inv (opn 2 1) ∧ Inv wr1 ∧ Inv (cls []) ∧
      Inv (cls [(0, 64)]) ∧ Inv (fre true)) ∧
    ((protoRange (neg 0x100)) = (0x100, 0x100) ∧ min 0x100 (arg (reqE 1 (leBytes 2 0x100 ++ leBytes 2 0xFF)) 2 2) < 0x100 ∧
      min 0x100 (arg (reqE 1 (leBytes 2 0x100 ++ leBytes 2 0x100)) 2 2) = 0x100) ∧
    ((opn 1 0x800000).fw.objs.length < 16 ∧ objFits (opn 1 0x800000) 0x2100000000 0x800000 = true ∧
      objFits (opn 1 0x800001) 0x2100000000 0x800001 = false ∧ objFits (opn 1 1) 0x2100000001 1 = false) ∧
    (objOf wr1 (arg e1 0 2) = some opened ∧ opened.closed = false ∧ arg e1 4 4 + arg e1 16 4 ≤ opened.total ∧ arg e1 16 4 = 64 ∧
      (fabReads wr1 whoFwDma (ptrAddr 0 (arg e1 8 8)) 64).1.code = 0 ∧
      (fabWrites wr1 whoFwDma opened.base (List.replicate 64 0) (List.replicate 64 false)).1 = 0) ∧
    (covers [] 0 64 1 = false ∧ covers [(0, 64)] 0 64 2 = true ∧ (fabReads (cls [(0, 64)]) whoRoot opened.base 64).1.code = 0 ∧
      opened.region = none) :=
  ⟨⟨asked_of (by decide +kernel) (by decide +kernel), asked_of (by decide +kernel) (by decide +kernel)⟩,
    ⟨inv_of_invB (by decide +kernel), inv_of_invB (by decide +kernel), inv_of_invB (by decide +kernel), inv_of_invB (by decide +kernel),
    inv_of_invB (by decide +kernel), inv_of_invB (by decide +kernel), inv_of_invB (by decide +kernel), inv_of_invB (by decide +kernel),
    inv_of_invB (by decide +kernel)⟩, by decide +kernel⟩

/-- A program of one partition, of all eight clusters. -/
def prog1 : Prog := ⟨1, 0, 0, 0x16674110, 0, List.replicate 8 0, false, 1, [], [], [], [], []⟩

/-- Firmware with a program and jobs. -/
def jobState (js : List Job) (p : Option Prog := some prog1) (s : State := fwOn 4) : State :=
  { s with fw := { s.fw with prog := p, jobs := js } }

/-- ProgramsAndFirmwareStartAndStop: a program in place, none, a bundle that does not load (one that does needs a signature that the opaque
verification accepts); a stop with the engine off and running; a class 1 image with and without a free group, class 2, class 0, and no image. -/
theorem test_met_programs :
    let ask (c : Nat) (s : State) := askState c (leBytes 2 1) s
    let bun : Obj := { obj1 with kind := 1 }
    let stop (r : Nat) := ask 0x21 (regs [(rEngStatus, r)] (jobState []))
    let img (c : Nat) := ask 0x18 (objState { obj1 with cls := c })
    (Asked (ask 0x20 (jobState [])) 0 0x20 (reqE 0x20 (leBytes 2 1)) { jobState [] with fw := { (jobState []).fw with taken := [] } } ∧
      Asked (img 1) 0 0x18 (reqE 0x18 (leBytes 2 1))
        { objState { obj1 with cls := 1 } with fw := { (objState { obj1 with cls := 1 }).fw with taken := [] } }) ∧
    (Inv (stop 0) ∧ Inv (stop 1) ∧ Inv (img 0) ∧ Inv (img 1) ∧ Inv (img 2) ∧ Inv (img 3)) ∧
    (arg (reqE 0x20 (leBytes 2 1)) 16 8 = 0 ∧ objOf (ask 0x20 (objState bun)) 1 = some bun ∧
      (match (loadBundle (objState bun) bun (fun _ => List.replicate 8 0) [] none []).1 with
        | .bad c => c == 0x20
        | _ => false) = true) ∧
    ((stop 0).fw.stopping = false ∧ (stop 0).fw.prog.isSome = true ∧ rdB (stop 0) rEngStatus 0 = false ∧
      rdB (stop 1) rEngStatus 0 = true ∧ rdB (stop 1) rEngStatus 1 = false) ∧
    (fwState (img 1) = 4 ∧ (objOf (img 1) 1).isSome = true ∧ (fwGroup (img 1)).isSome = true ∧
      (fwGroup { img 1 with fw := { (img 1).fw with cgs := List.replicate 16 { isOpen := true } } }).isSome = false ∧
      (img 1).fw.cgs.length = 16 ∧ useCheck (img 2) { obj1 with cls := 2 } = 0 ∧ useCheck (img 0) obj1 = 0) :=
  ⟨⟨asked_of (by decide +kernel) (by decide +kernel), asked_of (by decide +kernel) (by decide +kernel)⟩,
    ⟨inv_of_invB (by decide +kernel), inv_of_invB (by decide +kernel), inv_of_invB (by decide +kernel), inv_of_invB (by decide +kernel),
    inv_of_invB (by decide +kernel), inv_of_invB (by decide +kernel)⟩, by decide +kernel⟩

/-- A program admitted on cluster 0, and job 1 queued for another partition (for partition 0 the firmware writes a generator record whose
place is opaque). -/
def idleState : State :=
  jobState [{ job1 with st := .queued, part := 1 }] (some { prog1 with parts := [0, 255, 255, 255, 255, 255, 255, 255] })
    (regs [(rEngCtl, 0x100), (rEngAdmitStatus, 0x40000000), (rEngProgClass, 0x16674110)] (fwOn 4))

/-- Job 1 in the last pass of it. -/
def job2 : Job := { job1 with left := true }

/-- JobsMoveThroughTheirStates: a job submitted with no program, and admitted; a queued and a running job aborted, bound, killed; a deadline
not yet and just reached; a boundary that is not there, and there; a program parked elsewhere; a job that waits for an idle engine. -/
theorem test_met_jobs :
    let args : List Byte := [0, 0, 0xFF, 0]
    let sub := askState 0x30 args (jobState [])
    let ask (c : Nat) (j : Job) := askState c (leBytes 2 1) (jobState [j])
    let late (t : Nat) : State := { jobState [{ job1 with deadlineUs := 1 }] with ns := t }
    let edge (b : Nat) := regs [(rCpPassCnt, 1), (rEngTieStatus, b)] (jobState [job1])
    let p : Prog := { prog1 with parts := [0, 255, 255, 255, 255, 255, 255, 255] }
    let v := engineTry (wr (tagsSet (unitsOn (foldS (idleInstall p) (partsOf p) (energyRead idleState)) p) p 0) rEngStartBar 0)
    let park := regs [(rEngCtl, 5), (rEngStatus, 3), (rEngTieStatus, 1)] (jobState [job1])
    let less := regs [(rRasRetireCores, 0xF)] (jobState [])
    (Asked sub 0 0x30 (reqE 0x30 args) { jobState [] with fw := { (jobState []).fw with taken := [] } } ∧
      Asked (ask 0x31 job1) 0 0x31 (reqE 0x31 (leBytes 2 1)) { jobState [job1] with fw := { (jobState [job1]).fw with taken := [] } }) ∧
    (Inv sub ∧ Inv (ask 0x31 job1) ∧ Inv (late 999) ∧ Inv (late 1000) ∧ Inv (edge 0) ∧ Inv (edge 1) ∧ Inv idleState ∧ Inv park) ∧
    ((askState 0x30 args (fwOn 4)).fw.prog = none ∧ sub.fw.prog = some prog1 ∧ prog1.chips = [] ∧ prog1.twins = [] ∧ sub.fw.stopping = false ∧
      shapeClass sub ≠ 0 ∧ shapeClass less = 0 ∧ less.fw.prog = some prog1 ∧ arg (reqE 0x30 args) 0 1 ≤ 7 ∧ 0 ≠ 8 ∧
      arg (reqE 0x30 args) 0 1 ∈ prog1.parts ∧ (admitted sub).length < 256 ∧ jobArgsBad sub (reqE 0x30 args) = false ∧
      arg (reqE 0x30 args) 0x24 2 = 0 ∧ arg (reqE 0x30 args) 0xC 4 = 0 ∧
      (jobExtents prog1.args (List.replicate 14 0) 0).toOption.isSome = true) ∧
    (askedJob (ask 0x31 job1) (reqE 0x31 (leBytes 2 1)) = some job1 ∧ job1.ending = none ∧ job1.left = false ∧ jobLive job1 = true ∧
      (bindReg 2 7).isSome = true ∧ rdF (ask 0x33 job1) (rCpJobDma 7) 11 0 = 0 ∧ reachB (ask 0x33 job1) (rCpJobDma 7) = true ∧
      askedJob (ask 0x31 job2) (reqE 0x31 (leBytes 2 1)) = some job2 ∧ job2.left = true ∧ job2.st = .running ∧
      running (ask 0x31 job2) = false) ∧
    (parkedB park = true ∧ prog1.cg = false ∧ rdF park rEngTieStatus 19 0 ≠ prog1.barCount - 1 ∧
      ¬((rd park rCpPassCnt).toNat ≠ park.fw.passSeen ∧ rdF park rEngTieStatus 19 0 = prog1.barCount - 1) ∧
      (shapeClass park).toNat = prog1.cls ∧ parkedB (edge 1) = false) ∧
    (now (late 999) < 1000 ∧ 1000 ≤ now (late 1000) ∧ (late 0).fw.pubs = []) ∧
    ((rd (edge 0) rCpPassCnt).toNat ≠ (edge 0).fw.passSeen ∧ rdF (edge 0) rEngTieStatus 19 0 = prog1.barCount - 1 ∧
      rdF (edge 1) rEngTieStatus 19 0 ≠ prog1.barCount - 1 ∧ job1.passes = 0 ∧ job1.rlen = 0 ∧ job1.killCode = none) ∧
    (partsOf p = [0] ∧ p.cg = false ∧ idleState.fw.jobs.map (fun j => j.id) = [1] ∧ rdB idleState rEngCtl 0 = false ∧ rdB v rEngCtl 0 = true ∧
      holderOf idleState 0 = none ∧ (queuedOf idleState 1).isSome = true) :=
  ⟨⟨asked_of (by decide +kernel) (by decide +kernel), asked_of (by decide +kernel) (by decide +kernel)⟩,
    ⟨inv_of_invB (by decide +kernel), inv_of_invB (by decide +kernel), inv_of_invB (by decide +kernel), inv_of_invB (by decide +kernel),
    inv_of_invB (by decide +kernel), inv_of_invB (by decide +kernel), inv_of_invB (by decide +kernel),
    inv_of_invB (by decide +kernel)⟩, by decide +kernel⟩

/-- Group g as given, with its state and point. -/
def cgState1 (g : Nat) (x : Cg) (st kind : Nat) (s : State := fwOn 4) : State :=
  cgUpd (regs [(rCpCgCtl g, st * 2 ^ 27), (rCpCgPoint g, kind * 2 ^ 30), (rCpCgTimeout g, 1)] s) g fun _ => x

/-- CommitGroupsPrepareArmAndEnd: no group free, and the last one; actions staged up to the last; a group open, prepared, armed; an island
that passes, one that fails, the last of them; a group that a partition switch names; one that waits behind another of its point. -/
theorem test_met_groups :
    let opn (l : List Cg) : State := askState 0x40 [] { fwOn 4 with fw := { (fwOn 4).fw with cgs := l ++ List.replicate 8 {} } }
    let stg := askState 0x41 [15, 0, 3, 0] (cgState1 15 { isOpen := true, staged := 61 } 0 1)
    let prep (l : List Nat) (a : Nat) := regs [(rCpCgAddr 15 0, a)] (cgState1 15 { isOpen := true, wait := l } 1 1)
    let good := rVidSesCtl 0 - regBase
    let two : State := cgUpd (cgState1 15 { tagged := true } 2 2 (cgState1 14 { tagged := true } 2 2)) 15 id
    let arm (l : List Nat) : State := { two with fw := { two.fw with armed := l, switches := [⟨0, 1, [14, 15], false⟩] } }
    (Asked stg 0 0x41 (reqE 0x41 [15, 0, 3, 0])
      { cgState1 15 { isOpen := true, staged := 61 } 0 1 with
        fw := { (cgState1 15 { isOpen := true, staged := 61 } 0 1).fw with taken := [] } }) ∧
    (Inv (opn (List.replicate 8 { isOpen := true })) ∧ Inv (opn (List.replicate 7 { isOpen := true } ++ [({} : Cg)])) ∧ Inv stg ∧
      Inv (prep [0xA] good) ∧ Inv (cgState1 15 { tagged := true } 2 2)) ∧
    (((upto 8).find? fun g => !cgLive (opn (List.replicate 8 { isOpen := true })) g && !(cgOf (opn (List.replicate 8 { isOpen := true })) g).isOpen) = none ∧
      ((upto 8).find? fun g => !cgLive (opn (List.replicate 7 { isOpen := true } ++ [({} : Cg)])) g &&
        !(cgOf (opn (List.replicate 7 { isOpen := true } ++ [({} : Cg)])) g).isOpen) = some 7) ∧
    (openGroup stg (reqE 0x41 [15, 0, 3, 0]) = some 15 ∧ arg (reqE 0x41 [15, 0, 3, 0]) 2 1 = 3 ∧ (cgOf stg 15).staged + 3 ≤ 64 ∧
      (cgOf stg 15).isOpen = true ∧ (cgOf stg 15).tagged = false ∧ cgLive stg 15 = false ∧ stg.fw.cgs.length = 16 ∧ chkBusy stg 1 = false) ∧
    (cgState (prep [0xA] good) 15 = 1 ∧ cgLive (prep [0xA] good) 15 = true ∧ 0xA ∈ (cgOf (prep [0xA] good) 15).wait ∧
      islandCheck (prep [0xA] good) 15 0xA = 0 ∧ islandCheck (prep [0xA] 0x5FFFFFC) 15 0xA = 0xA8 ∧
      islandCheck (wrB (prep [0xC] good) rRasQuar 0xC true) 15 0xC = 0xAB ∧ (∃ j ∈ (cgOf (prep [0xA, 0xC] good) 15).wait, j ≠ 0xA) ∧
      (∀ j ∈ (cgOf (prep [0xA] good) 15).wait, j = 0xA) ∧ cgKind (prep [0xA] good) 15 ≠ 0) ∧
    (cgState (cgState1 15 {} 2 2) 15 = 2 ∧ cgKind (cgState1 15 {} 2 2) 15 = 2 ∧ rdF (cgState1 15 {} 2 2) (rCpCgTimeout 15) 23 0 ≠ 0 ∧
      (cgOf (cgState1 15 { tagged := true } 2 2) 15).tagged = true ∧ cgBehind (arm [14, 15]) 15 = true ∧ cgBehind (arm [15, 14]) 15 = false ∧
      cgLive (arm []) 15 = true ∧ cgLive (arm []) 14 = true ∧ ((arm []).fw.switches.find? fun w => w.groups.contains 15).isSome = true ∧
      (cgState1 15 {} 2 2).fw.switches = []) :=
  ⟨asked_of (by decide +kernel) (by decide +kernel),
    ⟨inv_of_invB (by decide +kernel), inv_of_invB (by decide +kernel), inv_of_invB (by decide +kernel), inv_of_invB (by decide +kernel),
    inv_of_invB (by decide +kernel)⟩, by decide +kernel⟩

/-- SecurityCommandsKeepTheirGuards: a snapshot of the job held, and of another; a class with an image in use, and an emergency; a token that
revokes another slot (where a boot key is left, which the fuses decide) and its own; an identity that can be used, and none; a debug
token that is good, and one that is not. -/
theorem test_met_security :
    let snap (b : Nat) := askState 0x50 (leBytes 2 5 ++ List.replicate 14 0 ++ leBytes 4 64) (regs [(rRasSnapCtl, 0x40000000 + b),
      (rRasSnapBaseHi, 0x21)] (fwOn 4))
    let esn := reqE 0x50 (leBytes 2 5 ++ List.replicate 14 0 ++ leBytes 4 64)
    let rb (em : Nat) : State := askState 0x61 [3] { regs [(rPwrEmerg, em)] (fwOn 4) with
      root := { State.reset.root with inUse := List.replicate 4 (some ⟨1, 2, []⟩) } }
    let tok (c slot : Nat) (body : List Byte) (cmd : Nat) := askState cmd (leBytes 2 1)
      (objState { obj1 with cls := c, slot := slot, body := body, bind := serial State.reset } (fwOn 4))
    let one : List Byte := 2 :: List.replicate 63 0
    let grant (b : Byte) := leBytes 4 0x47444B5A ++ List.replicate 27 0 ++ (b :: List.replicate 32 0)
    let att (id : Bool) : State := askState 0x63 (List.replicate 40 0 ++ leBytes 4 1600) { fwOn 4 with
      root := { State.reset.root with seed := some [], idKey := id } }
    (Asked (snap 5) 0 0x50 esn { regs [(rRasSnapCtl, 0x40000005), (rRasSnapBaseHi, 0x21)] (fwOn 4) with
        fw := { (fwOn 4).fw with taken := [] } }) ∧
    (Inv (snap 5) ∧ Inv (snap 6) ∧ Inv (tok 4 0 (grant 0) 0x64)) ∧
    (rdB (snap 5) rRasSnapCtl 30 = true ∧ rdF (snap 5) rRasSnapCtl 11 0 = arg esn 0 2 ∧ rdF (snap 6) rRasSnapCtl 11 0 ≠ arg esn 0 2 ∧
      (fabReads (snap 5) whoCp 0x2100000000 64).1.code = 0 ∧
      (fabWrites (snap 5) whoCp (ptrAddr 0 0) (List.replicate 64 0) (List.replicate 64 false)).1 = 0) ∧
    (emergency (rb 1) = true ∧ emergency (rb 0) = false ∧ fwState (rb 0) = 4 ∧ ((rb 0).root.inUse.getD 3 none).isSome = true ∧
      3 < (rb 0).root.rb.length) ∧
    (let o : Obj := { obj1 with cls := 5, slot := 1, body := one, bind := serial State.reset }
     useCheck (tok 5 1 one 0x62) o = 0 ∧ leAt o.body 0 1 = 2 ∧ (o.body.drop 1).any (· != 0) = false ∧ o.slot ≠ 2 ∧
      leAt { o with slot := 2 }.body 0 1 = { o with slot := 2 }.slot ∧
      (slotFilled 3 = true → bitN (Config.keyPerm 3) 0 = true → ∃ i, i < 4 ∧ i ≠ 2 ∧ slotFilled i = true ∧
        bitN (tok 5 1 one 0x62).root.revoke i = false ∧ bitN (Config.keyPerm i) 0 = true)) ∧
    (arg (reqE 0x63 (List.replicate 40 0 ++ leBytes 4 1600)) 40 4 = 1600 ∧ idUsable (att true) = true ∧ idUsable (att false) = false ∧
      (att true).root.seed.isSome = true) ∧
    (fwState (tok 4 0 (grant 0) 0x64) ≠ 5 ∧ useCheck (tok 4 0 (grant 0) 0x64) { obj1 with cls := 4 } = 0 ∧
      leAt (grant 0) 0 4 = 0x47444B5A ∧ (slice (grant 0) 4 28).any (· != 0) = false ∧ (slice (grant 1) 4 28).any (· != 0) = true ∧
      slice (grant 0) 32 32 = bootNonce (tok 4 0 (grant 0) 0x64)) :=
  ⟨asked_of (by decide +kernel) (by decide +kernel),
    ⟨inv_of_invB (by decide +kernel), inv_of_invB (by decide +kernel), inv_of_invB (by decide +kernel)⟩, by decide +kernel, by decide +kernel,
    ⟨by decide +kernel, by decide +kernel, by decide +kernel, by decide +kernel, by decide +kernel,
      fun h1 h2 => ⟨3, by decide, by decide, h1, by decide +kernel, h2⟩⟩, by decide +kernel, by decide +kernel⟩

/-- A flash read of the last byte of the second partition. -/
def flashAsk : State := askState 0x60 ([2, 0, 0, 0] ++ leBytes 4 65535 ++ leBytes 8 0 ++ leBytes 4 1) norState

theorem flashAsk_nor : flashAsk.root.nor = norTab := rfl

/-- SecurityCommandsKeepTheirGuards, FLASH_READ: the last byte of a partition. -/
theorem test_met_flash_read :
    let e := reqE 0x60 ([2, 0, 0, 0] ++ leBytes 4 65535 ++ leBytes 8 0 ++ leBytes 4 1)
    Asked flashAsk 0 0x60 e { norState with fw := { (fwOn 4).fw with taken := [] } } ∧ flashSrc flashAsk = some false ∧
      partOf flashAsk false 2 = some (0x12000, 0x10000) ∧ arg e 0 1 = 2 ∧ arg e 4 4 + arg e 16 4 ≤ 0x10000 ∧ 0 < arg e 16 4 := by
  refine ⟨asked_of (by decide +kernel) rfl, rfl, (partOf_nor flashAsk_nor).2.1, ?_⟩
  decide +kernel

end Sys2Proof.Tests
end

