-- ==== Sys2Proof/Tests/MetE.lean ====
section
/-! SUPPORT. A state for the premises of each statement on the links, the chips of a system, windows, tests and events. -/

namespace Sys2Proof.Tests
set_option Elab.async false
open Sys2Proof Sys2Proof.Machine

/-- Link 0 as given, in a state of LINK_STATUS, with all lanes. -/
def lnkState (x : Lnk) (st : Nat := 4) (s : State := State.reset) : State :=
  { regs [(rLinkStatus 0, st * 2 ^ 28 + 0xFF0000)] s with lk := { s.lk with l := x :: List.replicate 5 {} } }

/-- A data flit without segments, of a SEQ. -/
def flit0 (seq : Nat := 0) (gs : List Seg := []) : Flit := ⟨1, false, 0, false, seq, 0, [0, 0, 0, 0], true, true, gs, none⟩

/-- A segment of 64 bytes to chip 2. -/
def seg2 (kind : Nat := 1) : Seg := ⟨0, 63, 0, kind, 0, 5, 0, 0, 0, 2, 8, 0, []⟩

/-- LinkFlitsKeepSequenceAndCredit: flits with a bad CRC, out of order, in order, and one whose segment is routed on; data to send and none;
a replay that is the last, and not; retraining; a lane that retires, in a link that goes on and one that goes down; a key; a timed out
operation. -/
theorem test_met_links :
    let s := lnkState {}
    let fwd := regs [(rDdlChip, 0x40000000), (rDdlRoute 2, 0x80000001), (rLinkStatus 1, 0x40000000)] (lnkState {})
    let tx := lnkState { txq := [seg2] }
    let nak (n : Nat) := lnkState { nakIn := true, lastNak := 0, nakCnt := n }
    let lanes (m : Nat) := regs [(rLinkStatus 0, 0x40000000 + m * 2 ^ 16), (rLinkCtl 0, 0x10000000)]
    let op : ROp := ⟨9, true, .none, 0, 64, 0, 0, 1, 0, 0, 0⟩
    let ops : State := { State.reset with lk := { State.reset.lk with ops := [op] } }
    (Inv s ∧ Inv fwd ∧ Inv tx ∧ Inv (nak 15) ∧ Inv (nak 14) ∧ Inv (lanes 0xFF) ∧ Inv ops) ∧
    (2 ≤ linkState s 0 ∧ (lnk s 0).rxHold = [] ∧ ({ flit0 with crcOk := false } : Flit).crcOk = false ∧ (flit0 0).seq = ((lnk s 0).rxSeq + 1) % 4096 ∧
      (flit0 4095).seq ≠ ((lnk s 0).rxSeq + 1) % 4096 ∧ (∀ g ∈ (flit0).segs, g.kind < 9)) ∧
    (linkState fwd 0 = 4 ∧ (seg2 8).dst ≠ ownChip fwd ∧ 0 < (seg2 8).ttl ∧ routeOf fwd (seg2 8).dst = some 1) ∧
    (let k := lnk tx 0
     k.sinceCtrl < 59 ∧ k.replay.length < 512 ∧ (pickSegs false k.txq 15 k.credit []).1 ≠ [] ∧ rdB tx (rLinkCtl 0) 30 = false ∧
      (pickSegs false (lnk s 0).txq 15 (lnk s 0).credit []).1 = []) ∧
    ((lnk (nak 15) 0).nakIn = true ∧ (lnk (nak 15) 0).lastNak = (lnk (nak 15) 0).txSeq ∧ (lnk (nak 15) 0).nakCnt = 15 ∧
      (lnk (nak 14) 0).nakCnt ≠ 15 ∧ linkState (lnkState {} 5) 0 = 5 ∧ (lnk (lnkState {} 5) 0).nakCnt ≠ 15) ∧
    (linkState (lanes 0xFF) 0 = 4 ∧ bitN (rdF (lanes 0xFF) (rLinkStatus 0) 23 16) 7 = true ∧ 7 ≤ popN 8 (0xFF - 2 ^ 7) ∧
      rdB (lanes 0xFF) (rLinkCtl 0) 28 = true ∧ bitN (rdF (lanes 0x7F) (rLinkStatus 0) 23 16) 6 = true ∧ popN 8 (0x7F - 2 ^ 6) < 7) ∧
    (linkState (lnkState {} 1) 0 = 1 ∧ reachB s (rKeyCtl 5 1) = true ∧ (lnk s 0).keys.length = 2 ∧ (lnk s 0).keyCnt.length = 2) ∧
    ((ops.lk.ops.find? fun o => o.tag == 9) = some op ∧ op.owner = .none ∧ op.rd = true) :=
  ⟨⟨inv_of_invB (by decide +kernel), inv_of_invB (by decide +kernel), inv_of_invB (by decide +kernel), inv_of_invB (by decide +kernel),
    inv_of_invB (by decide +kernel), inv_of_invB (by decide +kernel), inv_of_invB (by decide +kernel)⟩, by decide +kernel⟩

/-- A state of a role with a message from chip 1 on link 0 in the inbox. -/
def heardState (d : List Byte) (s : State := State.reset) : State := { s with lk := { s.lk with inbox := [(0, 1, d)] } }

/-- Its premise of the message statements. -/
theorem heard_of {kind : Nat} {d : List Byte} {s : State} (h : leAt d 0 1 = kind) :
    Heard (heardState d s) kind (0, 1, d) { s with lk := { s.lk with inbox := [] } } := by
  refine ⟨by simp [heardState, h], by simp [heardState]⟩

/-- A peer's CTRL payload. -/
def ctrl1 (role hl : Nat) : Ctrl := ⟨role, 2, 1, 0, 5, hl, [], 0⟩

/-- A Headland with chips. -/
def headState (ps : List Peer) : State :=
  let s := regs [(rDdlChip, 0x40000000)]
  { s with lk := { s.lk with peers := ps } }

/-- ChipsJoinAndLeaveTheSystem: two lone chips, a lone chip and a system, two chips of one system and of two; a chip without a number, with
one free and with none; each message; an election won and lost; a message sent again and for the last time; an ASSIGN that is
answered; the last link gone. -/
theorem test_met_chips :
    let role (r : Nat) (s : State := State.reset) := regs [(rDdlChip, r * 2 ^ 30), (rDdlPref, 1), (rLinkStatus 0, 0x10000000)] s
    let sys : State := { role 2 with lk := { State.reset.lk with hlSerial := some 5 } }
    let new := headState [⟨5, none, 0, [], none, false⟩]
    let all := headState (⟨5, none, 0, [], none, false⟩ :: (List.range 63).map fun i => ⟨100 + i, some (i + 1), 0, [], none, false⟩)
    let old := headState [⟨5, some 1, 0, [], none, false⟩]
    let q : Mgmt := ⟨0, some 0, mgmtMsg 3 [1, 0], 0, 4⟩
    let acked : State := heardState (mgmtMsg 7 [3, 0]) { headState [⟨5, none, 0, [], some 1, false⟩] with lk :=
      { (headState [⟨5, none, 0, [], some 1, false⟩]).lk with mgmt := [q] } }
    (Inv (role 0) ∧ Inv sys ∧ Inv new ∧ Inv (role 2)) ∧
    (linkState (role 0) 0 = 1 ∧ roleOf (role 0) = 0 ∧ (ctrl1 0 5).role = 0 ∧ (ctrl1 1 5).role ≠ 0 ∧ linkState sys 0 = 1 ∧ roleOf sys ≠ 0 ∧
      (ctrl1 1 5).hlSerial = hlSerialOf sys ∧ (ctrl1 1 6).hlSerial ≠ hlSerialOf sys) ∧
    (roleOf new = 1 ∧ (new.lk.peers[0]?).isSome = true ∧ numFor new 5 = some (1, none) ∧ roleOf all = 1 ∧ numFor all 5 = none ∧
      (old.lk.peers.find? fun p => !p.left && p.chip == some 1).isSome = true) ∧
    (Heard (heardState (mgmtMsg 2 [])) 2 (0, 1, mgmtMsg 2 []) State.reset ∧ Heard (heardState (mgmtMsg 8 [])) 8 (0, 1, mgmtMsg 8 []) State.reset ∧
      Heard (heardState (mgmtMsg 1 [])) 1 (0, 1, mgmtMsg 1 []) State.reset ∧ Heard (heardState (mgmtMsg 3 [])) 3 (0, 1, mgmtMsg 3 []) State.reset ∧
      Heard (heardState (mgmtMsg 4 [])) 4 (0, 1, mgmtMsg 4 []) State.reset) ∧
    (rdB (regs [(rEngStatus, 1)]) rEngStatus 0 = true ∧ rdB (role 2) rEngStatus 0 = false ∧ roleOf (role 2) = 2) ∧
    ((∀ c ∈ [(0, 7, 3)], prefAbove (c.1, c.2.1) (rdF (role 2) rDdlPref 3 0, serialOf (role 2)) = false) ∧
      prefAbove (2, serialOf (role 2) + 1) (rdF (role 2) rDdlPref 3 0, serialOf (role 2)) = true) ∧
    (q.sends = 4 ∧ ({ q with sends := 3 } : Mgmt).sends < 4) ∧
    (Heard acked 7 (0, 1, mgmtMsg 7 [3, 0]) { acked with lk := { acked.lk with inbox := [] } } ∧ leAt (mgmtMsg 7 [3, 0]) 8 1 = 3 ∧
      leAt (mgmtMsg 7 [3, 0]) 9 1 = 0 ∧
      (acked.lk.mgmt.find? fun q => leAt q.data 0 1 == 3 && (q.via == some 0 || (q.via.isNone && q.dst == 1))) = some q ∧
      (acked.lk.peers.find? fun p => p.offer == some (leAt q.data 8 1)).isSome = true) ∧
    ((∀ l ∈ List.range 6, linkState (role 2) l ≠ 4) ∧ roleOf (role 2) ≠ 0) :=
  ⟨⟨inv_of_invB (by decide +kernel), inv_of_invB (by decide +kernel), inv_of_invB (by decide +kernel), inv_of_invB (by decide +kernel)⟩,
    by decide +kernel, by decide +kernel,
    ⟨heard_of (by decide +kernel), heard_of (by decide +kernel), heard_of (by decide +kernel), heard_of (by decide +kernel), heard_of (by decide +kernel)⟩,
    by decide +kernel, ⟨by decide +kernel, by decide +kernel⟩, by decide +kernel,
    ⟨heard_of (by decide +kernel), by decide +kernel⟩, by decide +kernel⟩

/-- WindowsOpenAndCloseInOrder: a window that opens and one that is open; a grant that a region covers; a window that its check lets through;
a grant and a window that end, with and without an operation in flight that passed it. -/
theorem test_met_windows :
    let hl (l : List SysWin) : State := { headState [] with lk := { (headState []).lk with wins := l } }
    let msg (k op : Nat) := mgmtMsg k (leBytes 1 op ++ [1, 1, 1] ++ leBytes 4 0 ++ leBytes 4 1)
    let rgn := regs [(rMemRgnCtl 63, 0x80000000), (rMemRgnSize 63, 1), (rMemRgnMask 63, 0x10001000)]
    let win := regs [(rMemWinCtl 31, 0xB0000001), (rMemWinSize 31, 1)]
    (Inv (hl []) ∧ Inv (heardState (msg 5 0) rgn) ∧ Inv (heardState (msg 6 1) win)) ∧
    (roleOf (hl []) = 1 ∧ 1 ≠ ownChip (hl []) ∧ 2 ≠ ownChip (hl []) ∧
      ((hl [⟨1, 2, true, true, 0, 1, .isOpen⟩]).lk.wins.find? fun v => v.src == 1 && v.dst == 2 && v.base == 0 && v.size == 1).isSome = true) ∧
    (Heard (heardState (msg 5 0) rgn) 5 (0, 1, msg 5 0) rgn ∧ roleOf rgn ≠ 1 ∧ leAt (msg 5 0) 8 1 = 0 ∧
      ((upto 64).find? fun r => rdB rgn (rMemRgnCtl r) 31 && rgnCovers rgn r 0 0x10000 &&
        (rd rgn (rMemRgnMask r)).toNat &&& remoteBits true true == remoteBits true true) = some 63) ∧
    (leAt (msg 5 1) 8 1 ≠ 0 ∧ leAt (msg 5 1) 12 4 = 0 ∧ leAt (msg 5 1) 16 4 = 1 ∧ (winEnable State.reset 1 true true 0 1).1.1 = 0 ∧
      ((upto 32).find? fun i => !rdB State.reset (rMemWinCtl i) 31 && !winBusy State.reset i) = some 0) ∧
    (rdB rgn (rMemRgnCtl 63) 30 = false ∧ winFind (heardState (msg 6 1) win) 1 0 1 = some 31 ∧
      winBusy (winShut (heardState (msg 6 1) win) 31) 31 = false ∧
      (let op : ROp := ⟨9, true, .none, 0, 64, 31, 0, 1, 0, 0, 0⟩
       winBusy (winShut (heardState (msg 6 1) { win with lk := { win.lk with ops := [op] } }) 31) 31) = true) :=
  ⟨⟨inv_of_invB (by decide +kernel), inv_of_invB (by decide +kernel), inv_of_invB (by decide +kernel)⟩, by decide +kernel,
    ⟨heard_of (by decide +kernel), by decide +kernel⟩, by decide +kernel⟩

/-- TestsScrubsAndQuarantineAct: canary cores with room in the event FIFO; canary tiles on and off, and their check; a comparison under way and none, of two lines that differ; a job
and its shadow; a memory under kill scrub, written and not; an island that rejoins and one that does not. -/
theorem test_met_tests :
    let can := regs [(rRasCtl, 1), (rRasCanaryCtl, 0x80000000)]
    let cmp := regs [(rRasCmpCtl, 0x80000000), (rRasCmpLen, 1), (rRasCmpAHi, 0x21), (rRasCmpBHi, 0x21), (rRasCmpBLo, 32)] (ramPut State.reset 0x2100000000 [1])
    let dual : State := { State.reset with fw := { State.reset.fw with
      jobs := [{ job1 with done := 1, rlen := 32 }, { job1 with id := 2, done := 1, shadowOf := some 1 }] } }
    let scr (z : Bool) : State := { State.reset with ras := { scrub := [⟨39, 1, z, none⟩] } }
    (Inv can ∧ Inv cmp ∧ Inv dual ∧ Inv (scr true) ∧ Inv (scr false)) ∧
    (rdB can rRasCtl 0 = true ∧ rdB can rRasCanaryCtl 31 = true ∧ canary can 0 = true ∧ canary can 31 = true ∧ canary can 5 = true ∧
      fifoFull 256 can.rasEvt = false ∧ reachB can rRasCanaryCtl = true ∧ reachB can rRasCmpCtl = true ∧ reachB can rRasSnapCtl = true ∧
      reachB can rRasQuarRel = true ∧ rdB can rRasCmpCtl 31 = false) ∧
    (rdB State.reset rRasCanaryCtl 31 = false ∧ reachB State.reset rRasCanaryCtl = true ∧ State.reset.rf.held = [] ∧
      rdB State.reset rRasQuar 12 = false) ∧
    (rdB cmp rRasCmpCtl 31 = true ∧ cmp.ras.scrub = [] ∧ cmp.mem.ecc = [] ∧ (rd cmp rRasCmpLen).toNat = 1 ∧
      cmpBase cmp rRasCmpALo rRasCmpAHi = 0x2100000000 ∧ cmpBase cmp rRasCmpBLo rRasCmpBHi = 0x2100000020 ∧ ownChip cmp = 0 ∧
      regionOf 0x2100000020 = some .media ∧ accessCode cmp whoCp false 0x2100000000 = 0 ∧ barred cmp whoCp false 0x2100000020 = false ∧
      ramGet cmp 0x2100000000 32 ≠ ramGet cmp 0x2100000020 32) ∧
    ((jobOf dual 1).isSome = true ∧ (dual.fw.jobs.find? fun x => x.shadowOf == some 1).isSome = true ∧ dual.fw.pubs = [] ∧
      ({ job1 with rlen := 32 } : Job).rlen ≠ 0 ∧ rdB dual rRasCmpCtl 31 = false ∧ job1.cmped < 1) ∧
    ((∀ y ∈ (scr true).ras.scrub, y.mem ≠ 39 → memClu y.mem ≠ memClu 39) ∧ ((scr false).ras.scrub.find? fun x => x.mem == 39) = some ⟨39, 1, false, none⟩ ∧
      ((scr true).ras.scrub.find? fun x => x.mem == 39) = some ⟨39, 1, true, none⟩) ∧
    (rdF (regs [(rRasIslEpoch 14, 9)]) (rRasIslEpoch 14) 15 0 ≠ rdF (regs [(rRasIslEpoch 14, 9)]) rRasCfgEpoch 15 0 ∧
      rdF can (rRasIslEpoch 14) 15 0 = rdF can rRasCfgEpoch 15 0) :=
  ⟨⟨inv_of_invB (by decide +kernel), inv_of_invB (by decide +kernel), inv_of_invB (by decide +kernel), inv_of_invB (by decide +kernel),
    inv_of_invB (by decide +kernel)⟩, by decide +kernel⟩

/-- The NOR flash with an open segment of the journal and a usable identity. -/
def jrnState (cnt : Nat) : State :=
  { norState State.reset with root := { (norState State.reset).root with jcnt := cnt, jsegSeq := 1, jq := [[]], seed := some [], idKey := true } }

theorem jrnState_nor (cnt : Nat) : (jrnState cnt).root.nor = norTab := rfl

/-- A program of a class. -/
def progOf (c : Nat) (s : State) : State :=
  { s with fw := { s.fw with prog := some ⟨1, 0, 0, c, 0, List.replicate 8 0, false, 1, [], [], [], [], []⟩ } }

/-- EventsAreClassifiedAndUnitsRetired: an event that is not classified, a first one, and the third of its kind; a poll that finds nothing; a
record to write, and a segment to seal; a program whose class is right, wrong, and no class left; a mismatch of the control processors. -/
theorem test_met_events :
    let evt (w0 : Word) (rs : List JRec) : State := { State.reset with
      rasEvt := { State.reset.rasEvt with ents := [[w0, 0x1F000000, 0, 0], [0, 0, 0, 0]] }, root := { State.reset.root with recs := rs } }
    let rec1 : JRec := ⟨0, 31, 0, 0, 0, 0⟩
    (Inv (evt 0x02920000 []) ∧ Inv (evt 0x0F000000 []) ∧ Inv (evt 0x02920000 [rec1, rec1]) ∧ Inv State.reset ∧ Inv (progOf 0 State.reset)) ∧
    (classified (evF [0x0F000000, 0x1F000000] 0 31 28) (evF [0x0F000000, 0x1F000000] 0 27 24) = false ∧
      classified (evF [0x02920000, 0x1F000000] 0 31 28) (evF [0x02920000, 0x1F000000] 0 27 24) = true ∧
      evF [0x02920000, 0x1F000000] 1 31 24 = 31 ∧
      2 ≤ ((evt 0x02920000 [rec1, rec1]).root.recs.filter fun r => poweredMs State.reset ≤ r.powered + windowMs 0).length) ∧
    (State.reset.fw.ceSeen.length = 30 ∧ (∀ i ∈ List.range 30, (rd State.reset (rMemCe (i / 5) (i % 5))).toNat = State.reset.fw.ceSeen.getD i 0)) ∧
    ((jrnState 0).root.jq = [[]] ∧ (jrnState 0).root.sealed = false ∧ (jrnState 0).root.jsegSeq ≠ 0 ∧ (jrnState 999).root.jcnt < 1000) ∧
    (1000 ≤ (jrnState 1000).root.jcnt ∧ idUsable (jrnState 1000) = true ∧ journalAt (jrnState 1000) = some (false, 0x22000) ∧
      (jrnState 1000).root.seed = some []) ∧
    (reachB State.reset rRasRetireCores = true ∧ rdF State.reset rEngTieStatus 19 0 = 0 ∧
      rdF (regs [(rRasCfgEpoch, 65535)]) rRasCfgEpoch 15 0 = 65535 ∧ (shapeClass State.reset).toNat = 0x16674110 ∧ shapeClass State.reset ≠ 0 ∧
      shapeClass (regs [(rRasRetireCores, 0xF)]) = 0 ∧ rdB (regs [(rEngStatus, 1)]) rEngStatus 0 = true ∧
      rdB (regs [(rEngStatus, 1)]) rEngStatus 1 = false ∧ (rd State.reset rCpPassCnt).toNat = State.reset.fw.passSeen) := by
  refine ⟨⟨inv_of_invB (by decide +kernel), inv_of_invB (by decide +kernel), inv_of_invB (by decide +kernel), inv_of_invB (by decide +kernel),
    inv_of_invB (by decide +kernel)⟩, by decide +kernel, by decide +kernel, by decide +kernel,
    ⟨by decide +kernel, by decide +kernel, ?_, by decide +kernel⟩, by decide +kernel⟩
  have h := (partOf_nor (jrnState_nor 1000)).2.2
  have hf : flashSrc (jrnState 1000) = some false := rfl
  simp only [journalAt, hf, h, Option.map_some]

end Sys2Proof.Tests
end

