-- ==== Sys2Proof/Tests/MetF.lean ====
section
/-! SUPPORT. A state for the premises of each statement on power, boot, resets, the service island, time, ports and triggers. -/

namespace Sys2Proof.Tests
set_option Elab.async false
open Sys2Proof Sys2Proof.Machine

/-- ModesTelemetryAndEmergenciesFollowTheirRules: the mode there is, one that a pending emergency, a link or the engine forbids, and one that
is let in; a rail that is present and one that is not; temperatures at both limits of the thermal cap; the loop on; a droop in
progress; an emergency latched, with its condition and without; energy to share out. -/
theorem test_met_power :
    let em := regs [(rPwrEmerg, 1), (rPwrStatus, 3)]
    let up := regs [(rLinkStatus 5, 0x40000000)]
    let run := regs [(rEngStatus, 1)]
    let tj (n : Nat) := regs [(rPwrTj, n), (rPwrCtl, 1)]
    let droop := barState { droop := some 50 }
    (Inv em ∧ Inv up ∧ Inv run ∧ Inv (tj 1840) ∧ Inv droop) ∧
    (reachB em rPwrCtl = true ∧ reachB up rPwrCtl = true ∧ reachB run rPwrCtl = true ∧ cgDrops em rPwrEmerg = false ∧ rdF em rPwrStatus 1 0 = 3 ∧ rdF em rPwrEmerg 3 0 ≠ 0 ∧ rdF State.reset rPwrStatus 1 0 = 0 ∧
      rdF State.reset rPwrEmerg 3 0 = 0 ∧
      ((upto 6).any fun l => !rdB up (rPwrNeapLinks) l && rdF up (rLinkStatus l) 31 28 == 4) = true ∧ rdB run rEngStatus 0 = true ∧
      ¬(2 < ((upto 6).filter fun l => rdB State.reset rPwrNeapLinks l).length) ∧
      ((upto 6).any fun l => !rdB State.reset rPwrNeapLinks l && rdF State.reset (rLinkStatus l) 31 28 == 4) = false) ∧
    ((List.replicate 8 ((none : Option (Nat × Nat)), true)).length = 8 ∧ State.reset.pwr.mw.length = 8 ∧
      rdB (regs [(rPwrRail 7, 0x80000000)]) (rPwrRail 7) 31 = true ∧ rdB State.reset (rPwrRail 7) 31 = false) ∧
    ((∀ x ∈ List.replicate 13 (0 : Int) ++ [-32768], -32768 ≤ x ∧ x < 32768) ∧ (0 : Int) ∈ List.replicate 13 (0 : Int) ++ [-32768] ∧
      (∀ x ∈ List.replicate 13 (0 : Int) ++ [-32768], x ≤ 0) ∧ sextN 16 (rdF (tj 1839) rPwrTj 15 0) < 16 * 115 ∧
      16 * 115 ≤ sextN 16 (rdF (tj 1840) rPwrTj 15 0)) ∧
    (16 * 100 ≤ sextN 16 (rdF (tj 1600) rPwrTj 15 0) ∧ sextN 16 (rdF (tj 1568) rPwrTj 15 0) ≤ 16 * 98 ∧
      16 * 98 < sextN 16 (rdF (tj 1569) rPwrTj 15 0) ∧ sextN 16 (rdF (tj 1599) rPwrTj 15 0) < 16 * 100 ∧ rdB (tj 0) rPwrCtl 0 = true ∧
      rdB State.reset rPwrCtl 0 = false) ∧
    ((clu droop 0).droop = some 50 ∧ (clu State.reset 0).droop = none) ∧
    (rdB em rPwrEmerg 0 = true ∧ bitN em.pwr.cond 0 = false ∧ rdB em rPwrEmerg 3 = false ∧ bitN 8 3 = true) ∧
    (mwf nat0 State.reset.pwr.seen = true ∧ ([(1, 5), (2, 7)].map fun x => x.1).Nodup ∧
      (jobOf ({ State.reset with fw := { State.reset.fw with jobs := [job1] } }) 1).isSome = true ∧ job1.shadowOf = none) :=
  ⟨⟨inv_of_invB (by decide +kernel), inv_of_invB (by decide +kernel), inv_of_invB (by decide +kernel), inv_of_invB (by decide +kernel),
    inv_of_invB (by decide +kernel)⟩, by decide +kernel⟩

/-- A chip that tries source `i` of boot order `ord`, with the host's parameters and a BOOT_REQ for n bytes at o. -/
def bootState (ord i q o n : Nat) : State :=
  let s := regs [(rBootOrder, ord * 256)]
  let s := [(6, 1), (0x800, 0x10000), (0x804, 0x40000), (0xC20, q), (0xC24, o), (0xC28, n)].foldl (fun s x => ramPutNat s (hpAddr x.1) 4 x.2) s
  { s with root := { s.root with src := some i } }

/-- The object of an activation, of a class and slot. -/
def actState (st : Nat) (o : Obj) (s : State := State.reset) : State :=
  askState 0x18 (leBytes 2 1) (let s := fwOn st s; { s with fw := { s.fw with objs := [o] } })

/-- An image object in media SRAM. -/
def img1 : Obj := { handle := 1, kind := 0, total := 4096, base := 0x2100000000, closed := true }

/-- BootTriesItsSourcesAndTheMonitorsActivate: the ROM due and not; a BOOT_REQ of the host seen, out of its area, too short, and good but for
the signature that the opaque verification judges; a source that times out; recovery with no flash source, a bad
object, a revoked slot and an old version; a restart that is the second, one in an emergency, one whose image cannot be read and one
that can; Shallows not yet and due. -/
theorem test_met_boot :
    let rom : State := { State.reset with io := { State.reset.io with released := true } }
    let rst (n : Nat) (o : Obj) : State := { actState 3 o with root := { State.reset.root with held := true, lockCnt := n } }
    let sh : State := { regs [(rMemCtl, 1), (rRasQuar, 0xFF)] (fwOn 2) with root := { State.reset.root with held := false, shal := some (1, 2) } }
    let ord3 := regs [(rBootOrder, 0x300)]
    (Inv rom ∧ Inv (bootState 3 0 1 0x10000 3200) ∧ Inv (actState 5 img1 ord3) ∧ Inv (rst 1 img1) ∧ Inv sh) ∧
    (rom.io.released = true ∧ rom.root.src = none ∧ rdF rom rBootStatus 7 6 = 0 ∧ State.reset.io.released = false ∧ rom.root.straps < 8) ∧
    (let b := bootState 3 0 1 0x10000
     (b 3200).root.src = some 0 ∧ fwState (b 3200) = 1 ∧ (bootOrder (b 3200))[0]? = some 2 ∧ ramNat (b 3200) (hpAddr 0x800) 4 = 0x10000 ∧
      ramNat (b 3200) (hpAddr 0x804) 4 = 0x40000 ∧ ramNat (b 3200) (hpAddr 0xC20) 4 ≠ (b 3200).root.reqSeq ∧
      ramNat (b 3200) (hpAddr 0xC24) 4 % 64 = 0 ∧ ramNat (b 3200) (hpAddr 0xC28) 4 = 3200 ∧ ramNat (b 3199) (hpAddr 0xC28) 4 < 3200 ∧
      ¬0x10000 ≤ ramNat (bootState 3 0 1 0xFFC0 3200) (hpAddr 0xC24) 4 ∧ (bootOrder (b 0))[1]? = none ∧
      ramNat (bootState 3 0 0 0 0) (hpAddr 0xC20) 4 = (bootState 3 0 0 0 0).root.reqSeq) ∧
    ((bootState 4 0 0 0 0).root.src = some 0 ∧ fwState (bootState 4 0 0 0 0) = 1 ∧ rdF (bootState 4 0 0 0 0) rBootOrder 10 8 = 4 ∧
      (bootOrder (bootState 3 0 0 0 0)).length ≤ 1) ∧
    (fwState (actState 5 img1) = 5 ∧ (objOf (actState 5 img1) 1).isSome = true ∧ objOf (actState 5 { img1 with handle := 2 }) 1 = none ∧
      bitN (actState 5 img1).root.revoke img1.slot = false ∧ (actState 5 img1).root.rb.getD 0 0 ≤ img1.version ∧ bitN 1 img1.slot = true ∧
      img1.version < [1].getD 0 0 ∧ (∀ x ∈ bootOrder (actState 5 img1 ord3), 2 ≤ x)) ∧
    (fwState (rst 1 img1) = 3 ∧ (rst 1 img1).root.held = true ∧ (rst 2 img1).root.lockCnt = 2 ∧ rdF (rst 1 img1) rPwrEmerg 3 0 = 0 ∧
      (bankLoad (rst 1 img1) img1).1 = 0 ∧ (bankLoad (rst 1 img1) { img1 with base := 0 }).1 ≠ 0) ∧
    (fwState sh = 2 ∧ sh.root.held = false ∧ rdB sh rMemCtl 0 = true ∧ sh.root.shal ≠ none ∧ sh.fw.prog = none ∧
      ∀ k ∈ List.range 8, rdB sh rRasQuar k = true) ∧
    (PageSafe (bootState 3 0 1 0x10000 3200) 0 0x1000 ∧ PageSafe (actState 5 img1 ord3) 6 2 ∧ PageSafe (rst 1 img1) 6 2 ∧
      rgnOf (actState 5 img1 ord3) (hpAddr 6) ≠ some 61 ∧ (∀ r ∈ List.range 57, rdB rom (rMemRgnCtl r) 31 = false) ∧
      rdB rom rTopIslRst 9 = false) :=
  ⟨⟨inv_of_invB (by decide +kernel), inv_of_invB (by decide +kernel), inv_of_invB (by decide +kernel), inv_of_invB (by decide +kernel),
    inv_of_invB (by decide +kernel)⟩, by decide +kernel, by decide +kernel, by decide +kernel, by decide +kernel, by decide +kernel,
    by decide +kernel, pageSafe_of (by decide) (by decide +kernel), pageSafe_of (by decide) (by decide +kernel),
    pageSafe_of (by decide) (by decide +kernel), by decide +kernel, by decide +kernel, by decide +kernel⟩

/-- A recovery that writes the two copies of the boot image to NOR flash. -/
def recState : State := { actState 5 { img1 with total := 65536 } with root := { State.reset.root with nor := norTab } }

theorem recState_nor : recState.root.nor = norTab := rfl

/-- BootTriesItsSourcesAndTheMonitorsActivate, recovery to flash: an image that fills both partitions. -/
theorem test_met_recovery :
    (bootOrder recState).find? (fun x => decide (x < 2)) = some 0 ∧ mwf (Config.flashByte false) recState.root.nor = true ∧
      partOf recState false 1 = some (0x2000, 0x10000) ∧ partOf recState false 2 = some (0x12000, 0x10000) ∧ 8192 ≤ 0x2000 ∧
      0x2000 + 0x10000 ≤ 0x12000 :=
  ⟨by decide +kernel, by rw [recState_nor]; exact norTab_wf, (partOf_nor recState_nor).1, (partOf_nor recState_nor).2.1, by decide, by decide⟩

/-- ResetsInitialiseAndReleaseTheirScope: pins low and high, REFCLK lost and not; a PLL locked and not, of a running cluster and not; an island
that runs, one of the engine that does not, the DDR island, and an island in reset. -/
theorem test_met_resets :
    let up : State := { State.reset with io := { State.reset.io with porLow := false } }
    let run := regs [(rEngStatus, 1), (rEngCtl, 0x8001)]
    let held := regs [(rTopIslRst, 0x80), (rRasIslEpoch 7, 3)]
    (Inv run ∧ Inv held ∧ Inv State.reset) ∧
    (State.reset.io.porLow = true ∧ State.reset.io.refLost = false ∧ up.io.porLow = false ∧ up.io.rstLow = false) ∧
    (rdB State.reset rTopPllLock 14 = rdB State.reset rTopPllLock 7 ∧ rdB (regs [(rTopPllLock, 0x7F7F)]) rTopPllLock 7 = false ∧
      rdB (regs [(rTopPllLock, 0x7FFF)]) rTopPllLock 7 = true) ∧
    (reachB run rTopIslRst = true ∧ reachB State.reset rTopIslRst = true ∧ reachB held rTopIslRst = true ∧ rdB run rTopIslRst 7 = false ∧ rdB run rEngStatus 0 = true ∧ bitN (place run) 7 = true ∧
      rdB State.reset rTopIslRst 7 = false ∧ rdB State.reset rEngStatus 0 = false ∧
      (∀ g ∈ List.range 16, cgState State.reset g ≠ 1 ∧ cgState State.reset g ≠ 2)) ∧
    (rdB held rTopIslRst 7 = true ∧ rdF held (rRasIslEpoch 7) 15 0 ≠ rdF held rRasCfgEpoch 15 0 ∧
      rdF (regs [(rTopIslRst, 0x80)]) (rRasIslEpoch 7) 15 0 = rdF (regs [(rTopIslRst, 0x80)]) rRasCfgEpoch 15 0) :=
  ⟨⟨inv_of_invB (by decide +kernel), inv_of_invB (by decide +kernel), inv_of_invB (by decide +kernel)⟩, by decide +kernel⟩

/-- An image header with one load entry of one byte to a destination on the fabric. -/
def svcHead (dst : Nat) : List Byte :=
  leBytes 4 0x4D494B5A ++ leBytes 4 1 ++ leBytes 8 0 ++ leBytes 4 3 ++ leBytes 4 1 ++ leBytes 8 0 ++ leBytes 8 dst

/-- A class 2 activation that waits for its harts. -/
def svcState (base dst : Nat) : State :=
  let s := ramPut (fwOn 4) 0x2100000000 (svcHead dst)
  { s with fw := { s.fw with objs := [{ img1 with cls := 2, base := base }] }, io := { s.io with svc := some (⟨0, 0, 0⟩, 1) } }

/-- ServiceCoresAndTheSystemTimeFollowTheirRules: an activation whose object is gone, cannot be read, cannot be copied, and is copied; a step of
the time, let in and not; a link servo without a route, on a link that is down, and on one that is up; a response that is another's, that
was retried, that is near and that is far. -/
theorem test_met_time :
    let svc (b d : Nat) := svcState b d
    let hd (b d : Nat) := objBytes { svc b d with io := { (svc b d).io with svc := none } } { img1 with cls := 2, base := b } 0 256
    let pay (b d : Nat) := (payloadCopy (hd b d).2 { img1 with cls := 2, base := b } ((loadTable (hd b d).1.1 2 (4096 - 3200)).getD [])).1
    let srv (rt st : Nat) := regs [(rTimCtl, 3), (rDdlChip, 0x80000000), (rDdlRoute 0, rt), (rLinkStatus 0, st * 2 ^ 28), (rTimLinkCfg, 0x640001)]
    let rsp (id n th : Nat) : State := { srv 0x80000000 4 with io := { State.reset.io with
      sync := some ⟨1, 0, some (0, 0)⟩, rsp := some ⟨id, 2 * th, 0, 0, n⟩ } }
    let out := regs [(rTrgOutCtl 0, 0xA0000000), (rTrgOutPeriod 0, 100)]
    (Inv (svc 0x2100000000 0x2100001000) ∧ Inv (srv 0 0) ∧ Inv (rsp 1 0 50) ∧ Inv out) ∧
    ((svc 0x2100000000 0x2100001000).io.svc.isSome = true ∧ (objOf (svc 0 0) 1).isSome = true ∧ objOf (svc 0 0) 2 = none ∧
      (hd 0 0).1.2 ≠ 0 ∧ (hd 0x2100000000 0x2100001000).1.2 = 0 ∧ pay 0x2100000000 0x2100001000 = 0 ∧ pay 0x2100000000 0x2600000000 ≠ 0 ∧
      (svc 0 0).io.harts.length = 8 ∧ reachB State.reset rEthSvcIrqSet = true) ∧
    (rdB (srv 0 0) rTimCtl 1 = true ∧ rdB State.reset rTimCtl 1 = false ∧ reachB (srv 0 0) rTimStepHi = true ∧ reachB State.reset rTimStepHi = true ∧
      rdB out (rTrgOutCtl 0) 31 = true ∧ rdF out (rTrgOutCtl 0) 30 29 = 1 ∧ rd out (rTrgOutCount 0) = 0 ∧ rd out (rTrgOutPeriod 0) ≠ 0 ∧
      (outOf out 0).closing = false) ∧
    (rdB (srv 0 0) rTimCtl 0 = true ∧ rdF (srv 0 0) rDdlChip 31 30 = 2 ∧ (srv 0 0).io.rsp = none ∧
      rdB (srv 0 0) (rDdlRoute (rdF (srv 0 0) rDdlChip 21 16)) 31 = false ∧ rdB (srv 0x80000000 0) (rDdlRoute 0) 31 = true ∧
      linkState (srv 0x80000000 0) 0 ≠ 4 ∧ linkState (srv 0x80000000 4) 0 = 4) ∧
    ((rsp 2 0 0).io.rsp.isSome = true ∧ 2 ≠ 1 ∧ linkState (rsp 1 0 50) 0 = 4 ∧ rdF (rsp 1 0 50) rTimLinkCfg 31 16 = 100 ∧
      ((((2 * 100 : Nat) : Int) - 0) - ((0 : Int) - 0)) / 2 = 100 ∧ 100 < (101 : Int).natAbs) :=
  ⟨⟨inv_of_invB (by decide +kernel), inv_of_invB (by decide +kernel), inv_of_invB (by decide +kernel), inv_of_invB (by decide +kernel)⟩,
    by decide +kernel⟩

/-- Port 0 in service, with a ring of 16 entries and the descriptor at the start of media SRAM. -/
def portState (d : List Byte) (pois : Bool := false) : State :=
  let s := regs [(rEthCtl, 1), (rEthPCtl 0, 0x80002400), (rEthPStatus 0, 1), (rEthPTxHead 0, 1), (rEthPTxBaseHi 0, 0x21),
    (rEthPRxHead 0, 1), (rEthPRxBaseHi 0, 0x21)] (ramPut State.reset 0x2100000000 d)
  if pois then poisPut s (0x2100001000 / 32) true else s

/-- A descriptor of a buffer at 4 KiB, of a length and flags. -/
def desc1 (len flags : Nat) : List Byte := leBytes 8 0x2100001000 ++ leBytes 2 len ++ leBytes 2 0 ++ leBytes 4 flags ++ leBytes 16 0

/-- Controller 0 of the I2C with one command. -/
def serState (x : Ser) : State :=
  { regs [(rSioCtl, 1), (serBase 0, 0x80000000)] with io := { State.reset.io with ser := x :: List.replicate 9 {} } }

/-- PortsTriggersAndSerialControllersAct: a port that is live and one that is not, a ring that is empty; a descriptor that is bad, poisoned, good,
with and without a time; a receive buffer that is there and free; an edge that is taken; an output with a pulse that is due, scheduled and
linked, with one in progress, and closing; each command of a serial controller. -/
theorem test_met_ports :
    let p := portState (desc1 60 0)
    let rx := desc1 60 0
    let trg := regs [(rTrgCtl, 1), (rTrgInCfg 23, 0xC0000000)]
    let out (x : TrgOut) (m : Nat) : State := { regs [(rTrgCtl, 1), (rTrgOutCtl 23, 0x80000000 + m * 2 ^ 29), (rTrgOutPeriod 23, 100)] with
      io := { State.reset.io with outs := List.replicate 23 {} ++ [x] } }
    let ser (op : Nat) (o : Bool := false) := serState { cmd := { ents := [[BitVec.ofNat 32 (op * 2 ^ 28)]] }, isOpen := o }
    (Inv p ∧ Inv trg ∧ Inv (out { next := some 0 } 1) ∧ Inv (ser 0)) ∧
    (rdB p rEthCtl 0 = true ∧ rdB p (rEthPCtl 0) 31 = true ∧ rdB p (rEthPStatus 0) 0 = true ∧ p.io.tx.length = 2 ∧
      rdB State.reset rEthCtl 0 = false ∧ rdF p (rEthPTxHead 0) 9 0 % 16 ≠ rdF p (rEthPTxTail 0) 9 0 ∧
      rdF (wr p (rEthPTxHead 0) 0) (rEthPTxHead 0) 9 0 = rdF p (rEthPTxTail 0) 9 0) ∧
    ((ethRead p 0x2100000000 32).1.data = desc1 60 0 ∧ 64 ≤ 60 + 4 ∧ 60 + 4 ≤ max 64 (min (rdF p (rEthPCtl 0) 13 0) 9216) ∧
      (ethRead p 0x2100001000 60).1.pois.any id = false ∧ (ethRead (portState (desc1 60 0) true) 0x2100001000 60).1.pois.any id = true ∧
      leAt (desc1 59 0) 8 2 + 4 < 64 ∧ bitN (leAt (desc1 60 2) 12 4) 1 = true ∧ bitN (leAt (desc1 60 0) 12 4) 1 = false) ∧
    (rdF p (rEthPRxHead 0) 9 0 % 16 ≠ rdF p (rEthPRxTail 0) 9 0 ∧ leAt rx 0 8 / 2 ^ 40 = ownChip p ∧ 60 ≤ leAt rx 8 2 ∧
      0x2100000000 + 32 ≤ leAt rx 0 8 % 2 ^ 40 ∧ regionOf 0x210000103B = some .media ∧ accessCode p whoEth true 0x210000103B = 0 ∧
      barred p whoEth true 0x210000103B = false) ∧
    (rdB trg rTrgCtl 0 = true ∧ rdB trg (rTrgInCfg 23) 31 = true ∧ rdF trg (rTrgInCfg 23) 30 29 = 2 ∧ fifoFull 256 trg.io.trg = false ∧
      rdB State.reset (rTrgInCfg 23) 31 = false ∧ 0 ≤ trg.ns) ∧
    (reachB (out {} 1) (rTrgOutCtl 23) = true ∧ (out {} 1).rf.held = [] ∧ rdB (out {} 1) rRasQuar 12 = false ∧
      rdB (regs [(rTrgOutCtl 23, 0x20000000), (rTrgOutPeriod 23, 100)]) (rTrgOutCtl 23) 31 = false ∧
      rdF (regs [(rTrgOutCtl 23, 0x20000000)]) (rTrgOutCtl 23) 30 29 = 1 ∧ (outOf (out { ends := some 9 } 1) 23).ends ≠ none ∧ rdB (out {} 1) (rTrgOutCtl 23) 31 = true ∧ (outOf (out { next := some 0 } 1) 23).next = some 0 ∧
      rdF (out {} 1) (rTrgOutCtl 23) 30 29 = 1 ∧ rd (out {} 1) (rTrgOutCount 23) = 0 ∧ rd (out {} 1) (rTrgOutPeriod 23) ≠ 0 ∧
      (outOf (out { next := some 1 } 1) 23).next = some 1 ∧ (out {} 1).ns < 1 ∧ (outOf (out { due := [0] } 2) 23).due = [0] ∧
      rdF (out {} 2) (rTrgOutCtl 23) 30 29 = 2 ∧ (outOf (out { ends := some 0, closing := true } 1) 23).ends = some 0 ∧
      rdB State.reset (rTrgOutCtl 23) 31 = false) ∧
    (rdB (ser 0) rSioCtl 0 = true ∧ rdB (ser 0) (serBase 0) 31 = true ∧ (serOf (ser 3) 0).cmd.ents = [[0x30000000]] ∧
      fld (0x30000000 : Word) 31 28 = 3 ∧ (serOf (ser 1 true) 0).isOpen = true ∧ (serOf (ser 1) 0).isOpen = false) :=
  ⟨⟨inv_of_invB (by decide +kernel), inv_of_invB (by decide +kernel), inv_of_invB (by decide +kernel), inv_of_invB (by decide +kernel)⟩,
    by decide +kernel⟩

end Sys2Proof.Tests
end

