-- ==== Sys2Proof/WellFormed.lean ====
section
/-! DEFINITION. Well-formed commands: every operand lies in the range that the spec's encoding of it, or the number of
units it names, admits. A command outside these ranges spells nothing that the ZK96 can be sent. -/

namespace Sys2Proof

/-- R362: banks 0 to 15, or groups and banks 0 to 3. -/
def wfBank : Bank → Bool
  | .flat b => b < 16
  | .grouped bg ba => bg < 4 && ba < 4

/-- NC0 to NC31 (R24), and a beat index of a bar, whose REP field has 10 bits (Table 3.2). -/
def At.wf (a : At) : Bool := a.core < 32 && a.j < 1024

/-- CL0 to CL7 (R24). -/
def CAt.wf (c : CAt) : Bool := c.cl < 8

/-- The widths of Table 4.1. -/
def MxArgs.wf (m : MxArgs) : Bool :=
  m.plane < 16 && m.wfmt < 16 && m.afmt < 16 && m.rows < 64 && m.cols < 64 && m.rq < 4

/-- The widths of Table 4.7. -/
def VxArgs.wf (x : VxArgs) : Bool :=
  x.vd < 32 && x.va < 32 && x.vb < 32 && x.vc < 32 && x.fmt < 16 && x.mode < 4 && x.mask < 8 && x.arg < 4096

/-- The widths of Table 5.8. -/
def XArgs.wf (x : XArgs) : Bool :=
  x.src < 4 && x.dst < 4 && x.len < 4096 && x.rows < 256 && x.pf < 8 && x.nest < 256 && x.step < 4

/-- The widths of R191 and R192. -/
def RArgs.wf (r : RArgs) : Bool := r.mask < 16 && r.src < 4 && r.dst < 4 && r.len < 16384 && r.rows < 256

/-- The widths of Tables 15.3 and 15.4. -/
def Seg.wf (g : Seg) : Bool :=
  g.len < 64 && g.pois < 4 && g.kind < 16 && g.status < 4 && g.tag < 8192 && g.epoch < 65536 && g.job < 4096 &&
    g.src < 64 && g.dst < 64 && g.ttl < 8 && g.code < 256 && g.data.length ≤ 64

/-- The widths of Table 15.6. -/
def Ctrl.wf (c : Ctrl) : Bool := c.role < 4 && c.pref < 16 && c.chip < 64 && c.link < 8 && c.retire < 256

/-- The widths of Table 15.2. -/
def Flit.wf (f : Flit) : Bool :=
  f.typ < 16 && f.kid < 2 && f.seq < 4096 && f.ack < 4096 && f.credit.length == 4 && f.segs.all Seg.wf &&
    f.ctrl.all Ctrl.wf

/-- The widths of a CSI-2 packet header, and the three outcomes of its ECC. -/
def CsiPkt.wf (k : CsiPkt) : Bool := k.vc < 32 && k.dt < 64 && k.num < 65536 && k.hdr < 3

/-- R4, R8: a 4-byte aligned address of the register region of Table 12.1. -/
def isReg (a : Nat) : Bool := 0x3000000000 ≤ a && a < 0x3008000000 && a % 4 == 0

/-- A run of bytes of the bar store (Table 12.1). -/
def inBars (a n : Nat) : Bool := 0x2400000000 ≤ a && 0 < n && a + n ≤ 0x2400800000

/-- Slots of the 40 engine memories, each with the source of its first transfer: HALO 1 or LINK 2 (Table 5.3). -/
def srcsWf (l : List (Nat × Nat)) : Bool := l.all fun y => y.1 < 20480 && (y.2 == 1 || y.2 == 2)

/-- An injected upset, or a read of the scrubber of another SRAM, that comes with SPM_SCRUB_READ: its kind (0 to 4 damaged bits of
the word at a pointer, 5 to 9 a tag's parity, 10 a write path's parity, 11 a damaged bit of a word of media or control SRAM, 12 a
scrub read of media or control SRAM) and its slot, word or number. -/
def Ups.wf (y : Nat × Nat) : Bool :=
  let sram (w : Nat) (lo n : Nat) : Bool := lo / 32 ≤ w && w < (lo + n) / 32
  y.1 < 5 || (y.1 < 10 && y.2 < 512) ||
  ((y.1 == 10 || y.1 == 11) && (sram y.2 0x2000000000 0x5000000 || sram y.2 0x2100000000 0x800000 ||
    sram y.2 0x2300000000 0x100000)) || (y.1 == 12 && y.2 < 2)

/-- Whether every operand of a command lies in its range. -/
def Instr.wf : Instr → Bool
  | .registerWrite g a _ => g < 16 && isReg a
  | .badAccess _ => true
  | .readLoLatch a => isReg a
  | .enableWrite g a _ => g < 16 && isReg a
  | .consistencyCheckEnd k => k < 128
  | .disableWrite g a _ => g < 16 && isReg a
  | .fifoWrite a _ _ _ => isReg a
  | .fifoDataRead a => isReg a
  | .fifoStallEnd a => isReg a
  | .islandCrossingDeliver src dst => src < 15 && dst < 15
  | .blockedBeat c cs acc => c.wf && cs.all (fun y => y.1 < 5 && y.2 < 16) && acc.all (fun y => y.1 < 4)
  | .barFetch c _ _ => c.wf
  | .barStoreWrite a bs _ => inBars a bs.length
  | .tieArrival c => c.wf
  | .tieRelease b => b < 1048576
  | .releaseSeen ix => ix < 15
  | .programStall late => late < 256
  | .programScanStart => true
  | .programScanDone _ => true
  | .engineEnable pl _ => pl < 256
  | .engineDisable _ => true
  | .engStopSet => true
  | .engStopClear => true
  | .nestStep c => c.wf
  | .slotWait a slot _ => a.wf && slot < 512
  | .slotRelease a slot => a.wf && slot < 512
  | .boundLd a slot => a.wf && slot < 512
  | .guard a lvl mode v => a.wf && lvl < 8 && mode < 4 && v < 64
  | .event a num => a.wf && num < 2048
  | .nest c n => c.wf && n < 256
  | .mmul a m _ => a.wf && m.wf
  | .mmulStart a m _ => a.wf && m.wf
  | .vld a x => a.wf && x.wf
  | .vst a x _ => a.wf && x.wf
  | .vldr a x => a.wf && x.wf
  | .vstr a x _ => a.wf && x.wf
  | .vgath a x => a.wf && x.wf
  | .vscat a x _ => a.wf && x.wf
  | .vbcast a x => a.wf && x.wf
  | .vpld a x => a.wf && x.wf
  | .vlutld a x => a.wf && x.wf
  | .drcfg a x => a.wf && x.wf
  | .drain a x _ => a.wf && x.wf
  | .vunpk a x => a.wf && x.wf
  | .viota a x => a.wf && x.wf
  | .vadd a x => a.wf && x.wf
  | .vsub a x => a.wf && x.wf
  | .vmul a x => a.wf && x.wf
  | .vfma a x => a.wf && x.wf
  | .vmin a x => a.wf && x.wf
  | .vmax a x => a.wf && x.wf
  | .vabs a x => a.wf && x.wf
  | .vneg a x => a.wf && x.wf
  | .vand a x => a.wf && x.wf
  | .vor a x => a.wf && x.wf
  | .vxor a x => a.wf && x.wf
  | .vshl a x => a.wf && x.wf
  | .vshr a x => a.wf && x.wf
  | .vcvt a x => a.wf && x.wf
  | .vcmp a x => a.wf && x.wf
  | .vsel a x => a.wf && x.wf
  | .vdot4 a x => a.wf && x.wf
  | .vlut a x => a.wf && x.wf
  | .vrcp a x => a.wf && x.wf
  | .vrsqrt a x => a.wf && x.wf
  | .vexp2 a x => a.wf && x.wf
  | .vrsum a x => a.wf && x.wf
  | .vrmax a x => a.wf && x.wf
  | .vrmin a x => a.wf && x.wf
  | .vrargmax a x => a.wf && x.wf
  | .vsort a x => a.wf && x.wf
  | .vmerge a x => a.wf && x.wf
  | .vxform a x => a.wf && x.wf
  | .vproj a x => a.wf && x.wf
  | .vdepth a x => a.wf && x.wf
  | .vvox a x => a.wf && x.wf
  | .vrset a x => a.wf && x.wf
  | .vrand a x => a.wf && x.wf
  | .vdrop a x => a.wf && x.wf
  | .vgumb a x => a.wf && x.wf
  | .voptq a x => a.wf && x.wf
  | .voptu a x => a.wf && x.wf
  | .sclaim a slot => a.wf && slot < 512
  | .scommit a slot => a.wf && slot < 512
  | .mcopy a src dst len => a.wf && src < 4 && dst < 4 && len < 256
  | .mtrans a src dst e pitch cnt => a.wf && src < 4 && dst < 4 && e < 4 && pitch < 16384 && cnt < 32
  | .xfer c x => c.wf && x.wf
  | .xpre c x => c.wf && x.wf
  | .ring c r => c.wf && r.wf
  | .halo c r => c.wf && r.wf
  | .qpopRead c q dst len _ => c.wf && q < 64 && dst < 4 && len < 4096
  | .qpopMark c q => c.wf && q < 64
  | .qpopRewind c q => c.wf && q < 64
  | .qpopRelease c q => c.wf && q < 64
  | .fence c => c.wf
  | .transferOperationIssue k _ => k < 8
  | .transferWriteArrive k _ _ _ => k < 8
  | .transferReadReturn k _ _ => k < 8
  | .transferCommit k _ => k < 8
  | .holdStoreLand m slot => m < 40 && slot < 512
  | .spmScrubRead c ups => c.wf && ups.all Ups.wf
  | .eccWriteBack _ => true
  | .tagCmd g k v par => g < 16 && k < 8 && v < 4294967296 && par.all (fun y => y < 512)
  | .dmaDescriptor n => n < 8
  | .dmaWriteback n => n < 8
  | .stagedRegisterWrite g a _ => g < 16 && isReg a
  | .csiPacketReceive p k => p < 12 && k.wf
  | .portFlush p => p < 12
  | .flushBoundary p => p < 12
  | .portDisable p => p < 12
  | .frameStart p => p < 12
  | .frameEnd p chk => p < 12 && chk.all (fun y => y < 48)
  | .lineStart p => p < 12
  | .linePacket p => p < 12
  | .embeddedDataPacket p => p < 12
  | .pipeLine q _ => q < 3
  | .frameDone m => m < 48
  | .setTimeout g => g < 17
  | .bufferRelease m v => m < 48 && v < 4294967296
  | .ispArm m => m < 48
  | .decodeUnit n _ => n < 32
  | .budgetExceeded n _ _ => n < 32
  | .encodeUnit n _ _ _ _ => n < 32
  | .shapeSample n _ => n < 32
  | .sessionDisable n => n < 32
  | .queueFlush q => q < 64
  | .queueCopyComplete q => q < 64
  | .fabricAccess g job write ga n bs ps => g < 16 && job < 4096 && ga < 0x400000000000 && 0 < n && (bs.length == if write then n else 0) && (ps.length == bs.length)
  | .dramRead l ups => l < 0x80000000 && ups.all (fun y => y.1 < 80 && y.2 < 256)
  | .dramWrite a bs ps agent job fmt => a < 0x2000000000 && (0 < bs.length && a % 64 + bs.length ≤ 64) && (ps.length == bs.length) && agent < 16 && job < 4096 && fmt.all (fun y => y < 16)
  | .fallbackTraining => true
  | .fallbackTrainingDone fail => fail.all (fun y => y.2 < 6)
  | .fullTraining => true
  | .fullTrainingDone fail => fail.all (fun y => y.2 < 6)
  | .memDisable => true
  | .dramRefresh sub _ => sub < 6
  | .dqsOscillatorRun sub => sub < 6
  | .ddrRateSwitch rate => rate < 65536
  | .patrolScrub sub upsA upsB => sub < 6 && (upsA ++ upsB).all (fun y => y.1 < 40 && y.2 < 256)
  | .pscanStart => true
  | .pscanDone => true
  | .fwEnforce => true
  | .regionLock r => r < 64
  | .windowClose w => w < 32
  | .lpddrRead c row bank col _ _ => c < 2 && row < 32768 && wfBank bank && col < 2048 && col % 32 == 0
  | .lpddrWrite c row bank col bs mask _ =>
    c < 2 && row < 32768 && wfBank bank && col < 2048 && col % 32 == 0 && (bs.length == 32 || bs.length == 64) && (mask.length == bs.length)
  | .lpddrRefresh c _ => c < 2
  | .lpddrModeRegisterWrite c ma _ _ => c < 2 && ma < 128
  | .lpddrModeRegisterRead c ma _ => c < 2 && ma < 128
  | .lpddrPowerDown c cmd => c < 2 && cmd.st < 3
  | .hostResetN _ => true
  | .hostCkSwitch c _ => c < 2
  | .attnSet v => v < 4294967296
  | .attnPinUpdate => true
  | .ringPoll r => r < 9
  | .resultPublish k => k < 16
  | .resultRelease k => k < 16
  | .negotiate r => r < 9
  | .getInfo r => r < 9
  | .setLog r => r < 9
  | .objOpen r _ => r < 9
  | .objWrite r => r < 9
  | .objClose r => r < 9
  | .objFree r => r < 9
  | .fwActivate r => r < 9
  | .programStart r srcs => r < 9 && srcsWf srcs
  | .programStop r => r < 9
  | .jobSubmit r => r < 9
  | .jobAbort r => r < 9
  | .jobQuery r => r < 9
  | .jobBind r => r < 9
  | .cgOpen r => r < 9
  | .cgStage r => r < 9
  | .cgCommit r => r < 9
  | .cgCancel r => r < 9
  | .debugSnapshot r => r < 9
  | .flashRead r => r < 9
  | .rollbackAdvance r => r < 9
  | .keyRevoke r => r < 9
  | .attest r => r < 9
  | .debugGrant r => r < 9
  | .passBoundary => true
  | .jobSwitchIdle => true
  | .deadlineTimer id => id < 4096
  | .jobKill id code => id < 4096 && code < 256
  | .cgPrepare g => g < 16
  | .cgIslandAnswer g ix => g < 16 && ix < 15
  | .cgPrepareTimeout g => g < 16
  | .cgApply g => g < 16
  | .cgPointTimeout g => g < 16
  | .cgCancelWrite g => g < 16
  | .flitReceive l f => l < 6 && f.wf
  | .linkReplay l => l < 6
  | .linkDown l code => l < 6 && (code == 0x73 || code == 0x74)
  | .laneRetire l lane => l < 6 && lane < 8
  | .linkTrained l lanes peer => l < 6 && (0 < lanes && lanes ≤ 8) && peer.wf
  | .probe via c => via.all (fun y => y < 6) && c < 64
  | .ident via ver _ _ => via.all (fun y => y < 6) && ver < 4294967296
  | .assign _ => true
  | .routes c tbl => c < 64 && tbl.all (fun y => y < 8)
  | .winOpen src dst _ _ _ _ => src < 64 && dst < 64
  | .winClose src dst _ _ => src < 64 && dst < 64
  | .mgmtAck => true
  | .leave => true
  | .mgmtResend _ => true
  | .chipDepart c => c < 64
  | .headlandElection cands => cands.all (fun y => y.2.2 < 64)
  | .loneTimeout => true
  | .opTimeout _ => true
  | .keySlotLoad l k => l < 6 && k < 2
  | .canaryTile n c col second _ => n < 32 && c < 32 && col.all (fun y => y < 64) && second.all (fun y => y.1 < 32)
  | .dualRunCompare id => id < 4096
  | .eventClassify => true
  | .journalWrite => true
  | .journalSeal => true
  | .rasRetire kind mask => kind < 3 && mask < 4294967296
  | .variantSwitch srcs => srcsWf srcs
  | .islandRejoin ix _ => ix < 15
  | .quarantineRelease mask => mask < 32768
  | .killScrub m => m < 40
  | .killScrubDone m => m < 40
  | .snapHeldClear => true
  | .canaryEnable interval => interval < 1048576
  | .cmpStart => true
  | .cmpDone _ => true
  | .lockstepMismatch => true
  | .modeWrite m => m < 4
  | .telemetrySample rails => (rails.length == 8)
  | .telemetryLost r => r < 8
  | .cappingLoopUpdate obs => obs ≤ 256
  | .droopTrip k => k < 8
  | .droopRiseStep k => k < 8
  | .temperatureSample temps => (temps.length == 14)
  | .thermalTrip => true
  | .emergencyLatch ix => ix < 4
  | .emergencyClearable ix => ix < 4
  | .emergencyClear m => m < 16
  | .energyReconcile => true
  | .romBoot => true
  | .bootReq _ => true
  | .bootSourceTimeout => true
  | .recoveryActivate r => r < 9
  | .restartActivate r => r < 9
  | .serviceCoreStart => true
  | .svcIrqSet => true
  | .timStep hi => hi < 4294967296
  | .tsyncReq => true
  | .tsyncRsp => true
  | .ethTxDescriptor p => p < 2
  | .ethRxFrame p _ _ _ => p < 2
  | .triggerInputEdge ix _ _ => ix < 24
  | .triggerPulse o => o < 24
  | .triggerOutputEnable o _ => o < 24
  | .sioStart ch _ => ch < 8
  | .sioWrite ch _ => ch < 8
  | .sioRead ch _ _ => ch < 8
  | .sioStop ch => ch < 8
  | .i2cTimeout ch => ch < 6
  | .powerOnReset _ => true
  | .chipReset _ => true
  | .clkLost => true
  | .pllLockLoss ix => ix < 15
  | .islandReset mask => mask < 32768
  | .islandResetRelease ix => ix < 15
  | .flitTransmit l => l < 6
  | .linkTrainFailed l => l < 6
  | .linkRetrainDone l => l < 6
  | .assignRetry _ => true
  | .ethLinkChange p _ => p < 2
  | .lpddrTrainingCommand c kind _ _ => c < 2 && kind < 7
  | .pllRelock ix _ => ix < 15
  | .refclkReturn => true
  | .resetDeassert straps _ => straps < 8
  | .shallowsStart srcs _ _ => srcsWf srcs
  | .memCePoll => true

end Sys2Proof
end

