-- ==== Sys2Proof/Tests/Slice0.lean ====
section
/-! SUPPORT. The smoke test of well-formed commands, and single steps whose results the spec states in numbers. -/

namespace Sys2Proof.Tests
set_option Elab.async false
open Sys2Proof Sys2Proof.Machine

/-! ### Ill-formed terms are refused, one for each check -/

def a0 : At := ⟨31, 0, 1023⟩
def a1 : At := ⟨32, 0, 0⟩
def a2 : At := ⟨0, 0, 1024⟩
def c0 : CAt := ⟨7, 0⟩
def c1 : CAt := ⟨8, 0⟩
def m0 : MxArgs := ⟨15, 15, 15, 63, 63, 3, true, true⟩
def m1 : MxArgs := { m0 with plane := 16 }
def x0 : VxArgs := ⟨31, 31, 31, 31, 15, 3, true, 7, 4095⟩
def x1 : VxArgs := { x0 with vd := 32 }
def t0 : XArgs := ⟨3, 3, 4095, 255, 7, true, true, true, true, 255, 3⟩
def t1 : XArgs := { t0 with src := 4 }
def r0 : RArgs := ⟨15, true, 3, 3, 16383, 255, true, true, true⟩
def r1 : RArgs := { r0 with mask := 16 }
def g0 : Seg := ⟨0, 63, 3, 15, 3, 8191, 65535, 4095, 63, 63, 7, 255, List.replicate 64 0⟩
def p0 : Ctrl := ⟨3, 15, 63, 7, 0, 0, [], 255⟩
def p1 : Ctrl := { p0 with role := 4 }
def f0 : Flit := ⟨15, true, 1, true, 4095, 4095, [0, 0, 0, 0], true, true, [g0], some p0⟩
def f1 : Flit := { f0 with typ := 16 }
def k0 : CsiPkt := ⟨31, 63, 65535, [], 2, true⟩
def k1 : CsiPkt := { k0 with vc := 32 }
def d0 : DecOut := ⟨[], 0, none, 8, 8, [], none, false, 0, [], false⟩

/-- Each field of the operand records at its limit and past it. -/
theorem test_wf_records :
    (m0.wf && !m1.wf && !{ m0 with wfmt := 16 }.wf && !{ m0 with afmt := 16 }.wf && !{ m0 with rows := 64 }.wf && !{ m0 with cols := 64 }.wf &&
      !{ m0 with rq := 4 }.wf &&
    x0.wf && !x1.wf && !{ x0 with va := 32 }.wf && !{ x0 with vb := 32 }.wf && !{ x0 with vc := 32 }.wf && !{ x0 with fmt := 16 }.wf &&
      !{ x0 with mode := 4 }.wf && !{ x0 with mask := 8 }.wf && !{ x0 with arg := 4096 }.wf &&
    t0.wf && !t1.wf && !{ t0 with dst := 4 }.wf && !{ t0 with len := 4096 }.wf && !{ t0 with rows := 256 }.wf && !{ t0 with pf := 8 }.wf &&
      !{ t0 with nest := 256 }.wf && !{ t0 with step := 4 }.wf &&
    r0.wf && !r1.wf && !{ r0 with src := 4 }.wf && !{ r0 with dst := 4 }.wf && !{ r0 with len := 16384 }.wf && !{ r0 with rows := 256 }.wf) = true := by
  decide +kernel

/-- The same of segments, flits and packets. -/
theorem test_wf_flits :
    (g0.wf && !{ g0 with len := 64 }.wf && !{ g0 with pois := 4 }.wf && !{ g0 with kind := 16 }.wf && !{ g0 with status := 4 }.wf &&
      !{ g0 with tag := 8192 }.wf && !{ g0 with epoch := 65536 }.wf && !{ g0 with job := 4096 }.wf && !{ g0 with src := 64 }.wf &&
      !{ g0 with dst := 64 }.wf && !{ g0 with ttl := 8 }.wf && !{ g0 with code := 256 }.wf && !{ g0 with data := List.replicate 65 0 }.wf &&
    p0.wf && !p1.wf && !{ p0 with pref := 16 }.wf && !{ p0 with chip := 64 }.wf && !{ p0 with link := 8 }.wf && !{ p0 with retire := 256 }.wf &&
    f0.wf && !f1.wf && !{ f0 with kid := 2 }.wf && !{ f0 with seq := 4096 }.wf && !{ f0 with ack := 4096 }.wf && !{ f0 with credit := [] }.wf &&
      !{ f0 with segs := [{ g0 with len := 64 }] }.wf && !{ f0 with ctrl := some p1 }.wf &&
    k0.wf && !k1.wf && !{ k0 with dt := 64 }.wf && !{ k0 with num := 65536 }.wf && !{ k0 with hdr := 3 }.wf) = true := by
  decide +kernel

/-- Well-formed commands with each operand at its limit, and the same with one operand past it. -/
theorem test_wf_1 : (
    ([Instr.registerWrite, Instr.enableWrite, Instr.disableWrite, Instr.stagedRegisterWrite] : List (Nat → Nat → Word → Instr)).all
      (fun f => (f 15 0x3007FFFFFC 0).wf && !(f 16 0x3007FFFFFC 0).wf && !(f 15 0x2FFFFFFFFC 0).wf && !(f 15 0x3008000000 0).wf && !(f
      15 0x3000000002 0).wf) &&
    ([Instr.readLoLatch, Instr.fifoDataRead, Instr.fifoStallEnd] : List (Nat → Instr)).all (fun f => (f 0x3007FFFFFC).wf && !(f
      0x2FFFFFFFFC).wf && !(f 0x3008000000).wf && !(f 0x3000000002).wf) &&
    (Instr.consistencyCheckEnd 127).wf && !(Instr.consistencyCheckEnd 128).wf &&
    (Instr.fifoWrite 0x3007FFFFFC 0 false false).wf && !(Instr.fifoWrite 0x2FFFFFFFFC 0 false false).wf && !(Instr.fifoWrite
      0x3008000000 0 false false).wf && !(Instr.fifoWrite 0x3000000002 0 false false).wf &&
    (Instr.islandCrossingDeliver 14 14).wf && !(Instr.islandCrossingDeliver 15 14).wf && !(Instr.islandCrossingDeliver 14 15).wf &&
    (Instr.blockedBeat c0 [] []).wf && !(Instr.blockedBeat c1 [] []).wf && !(Instr.blockedBeat c0 [(5, 0)] []).wf &&
      !(Instr.blockedBeat c0 [(0, 16)] []).wf && !(Instr.blockedBeat c0 [] [(4, [])]).wf &&
    (Instr.barFetch c0 [] false).wf && !(Instr.barFetch c1 [] false).wf &&
    (Instr.barStoreWrite 0x2400000000 [0] false).wf && !(Instr.barStoreWrite 0x2400800000 [0] false).wf && !(Instr.barStoreWrite
      0x23FFFFFFFF [0] false).wf &&
    ([Instr.tieArrival, Instr.nestStep, Instr.fence] : List (CAt → Instr)).all (fun f => (f c0).wf && !(f c1).wf) &&
    ([Instr.tieRelease, Instr.canaryEnable] : List (Nat → Instr)).all (fun f => (f 1048575).wf && !(f 1048576).wf)) = true := by
  decide +kernel

/-- Well-formed commands with each operand at its limit, and the same with one operand past it. -/
theorem test_wf_2 : (
    ([Instr.releaseSeen, Instr.pllLockLoss, Instr.islandResetRelease] : List (Nat → Instr)).all (fun f => (f 14).wf && !(f 15).wf) &&
    (Instr.programStall 255).wf && !(Instr.programStall 256).wf &&
    (Instr.engineEnable 255 false).wf && !(Instr.engineEnable 256 false).wf &&
    (Instr.slotWait a0 511 false).wf && !(Instr.slotWait a1 511 false).wf && !(Instr.slotWait a2 511 false).wf && !(Instr.slotWait
      a0 512 false).wf &&
    ([Instr.slotRelease, Instr.boundLd, Instr.sclaim, Instr.scommit] : List (At → Nat → Instr)).all (fun f => (f a0 511).wf && !(f
      a1 511).wf && !(f a2 511).wf && !(f a0 512).wf) &&
    (Instr.guard a0 7 3 63).wf && !(Instr.guard a1 7 3 63).wf && !(Instr.guard a2 7 3 63).wf && !(Instr.guard a0 8 3 63).wf &&
      !(Instr.guard a0 7 4 63).wf && !(Instr.guard a0 7 3 64).wf &&
    (Instr.event a0 2047).wf && !(Instr.event a1 2047).wf && !(Instr.event a2 2047).wf && !(Instr.event a0 2048).wf &&
    (Instr.nest c0 255).wf && !(Instr.nest c1 255).wf && !(Instr.nest c0 256).wf &&
    ([Instr.mmul, Instr.mmulStart] : List (At → MxArgs → (List (Nat × Int)) → Instr)).all (fun f => (f a0 m0 []).wf && !(f a1 m0
      []).wf && !(f a2 m0 []).wf && !(f a0 m1 []).wf) &&
    ([Instr.vld, Instr.vldr, Instr.vgath, Instr.vbcast, Instr.vpld, Instr.vlutld, Instr.drcfg, Instr.vunpk, Instr.viota, Instr.vadd,
      Instr.vsub, Instr.vmul, Instr.vfma, Instr.vmin, Instr.vmax, Instr.vabs, Instr.vneg, Instr.vand, Instr.vor, Instr.vxor,
      Instr.vshl, Instr.vshr, Instr.vcvt, Instr.vcmp, Instr.vsel, Instr.vdot4, Instr.vlut, Instr.vrcp, Instr.vrsqrt, Instr.vexp2,
      Instr.vrsum, Instr.vrmax, Instr.vrmin, Instr.vrargmax, Instr.vsort, Instr.vmerge, Instr.vxform, Instr.vproj, Instr.vdepth,
      Instr.vvox, Instr.vrset, Instr.vrand, Instr.vdrop, Instr.vgumb, Instr.voptq, Instr.voptu] : List (At → VxArgs → Instr)).all (fun
      f => (f a0 x0).wf && !(f a1 x0).wf && !(f a2 x0).wf && !(f a0 x1).wf)) = true := by
  decide +kernel

/-- Well-formed commands with each operand at its limit, and the same with one operand past it. -/
theorem test_wf_3 : (
    ([Instr.vst, Instr.vstr, Instr.vscat] : List (At → VxArgs → Bool → Instr)).all (fun f => (f a0 x0 false).wf && !(f a1 x0
      false).wf && !(f a2 x0 false).wf && !(f a0 x1 false).wf) &&
    (Instr.drain a0 x0 []).wf && !(Instr.drain a1 x0 []).wf && !(Instr.drain a2 x0 []).wf && !(Instr.drain a0 x1 []).wf &&
    (Instr.mcopy a0 3 3 255).wf && !(Instr.mcopy a1 3 3 255).wf && !(Instr.mcopy a2 3 3 255).wf && !(Instr.mcopy a0 4 3 255).wf &&
      !(Instr.mcopy a0 3 4 255).wf && !(Instr.mcopy a0 3 3 256).wf &&
    (Instr.mtrans a0 3 3 3 16383 31).wf && !(Instr.mtrans a1 3 3 3 16383 31).wf && !(Instr.mtrans a2 3 3 3 16383 31).wf &&
      !(Instr.mtrans a0 4 3 3 16383 31).wf && !(Instr.mtrans a0 3 4 3 16383 31).wf && !(Instr.mtrans a0 3 3 4 16383 31).wf &&
      !(Instr.mtrans a0 3 3 3 16384 31).wf && !(Instr.mtrans a0 3 3 3 16383 32).wf &&
    ([Instr.xfer, Instr.xpre] : List (CAt → XArgs → Instr)).all (fun f => (f c0 t0).wf && !(f c1 t0).wf && !(f c0 t1).wf) &&
    ([Instr.ring, Instr.halo] : List (CAt → RArgs → Instr)).all (fun f => (f c0 r0).wf && !(f c1 r0).wf && !(f c0 r1).wf) &&
    (Instr.qpopRead c0 63 3 4095 false).wf && !(Instr.qpopRead c1 63 3 4095 false).wf && !(Instr.qpopRead c0 64 3 4095 false).wf &&
      !(Instr.qpopRead c0 63 4 4095 false).wf && !(Instr.qpopRead c0 63 3 4096 false).wf &&
    ([Instr.qpopMark, Instr.qpopRewind, Instr.qpopRelease] : List (CAt → Nat → Instr)).all (fun f => (f c0 63).wf && !(f c1 63).wf
      && !(f c0 64).wf) &&
    ([Instr.transferOperationIssue, Instr.transferCommit] : List (Nat → Nat → Instr)).all (fun f => (f 7 0).wf && !(f 8 0).wf) &&
    (Instr.transferWriteArrive 7 0 0 false).wf && !(Instr.transferWriteArrive 8 0 0 false).wf) = true := by
  decide +kernel

/-- Well-formed commands with each operand at its limit, and the same with one operand past it. -/
theorem test_wf_4 : (
    (Instr.transferReadReturn 7 0 0).wf && !(Instr.transferReadReturn 8 0 0).wf &&
    (Instr.holdStoreLand 39 511).wf && !(Instr.holdStoreLand 40 511).wf && !(Instr.holdStoreLand 39 512).wf &&
    (Instr.spmScrubRead c0 []).wf && !(Instr.spmScrubRead c1 []).wf && (Instr.spmScrubRead c0 [(9, 511), (12, 1)]).wf &&
      !(Instr.spmScrubRead c0 [(13, 0)]).wf && !(Instr.spmScrubRead c0 [(5, 512)]).wf && !(Instr.spmScrubRead c0 [(12, 2)]).wf &&
    (Instr.tagCmd 15 7 4294967295 none).wf && !(Instr.tagCmd 16 7 4294967295 none).wf && !(Instr.tagCmd 15 8 4294967295 none).wf &&
      !(Instr.tagCmd 15 7 4294967296 none).wf && !(Instr.tagCmd 15 7 4294967295 (some 512)).wf &&
    ([Instr.dmaDescriptor, Instr.dmaWriteback, Instr.telemetryLost, Instr.droopTrip, Instr.droopRiseStep, Instr.sioStop] : List (Nat
      → Instr)).all (fun f => (f 7).wf && !(f 8).wf) &&
    (Instr.csiPacketReceive 11 k0).wf && !(Instr.csiPacketReceive 12 k0).wf && !(Instr.csiPacketReceive 11 k1).wf &&
    ([Instr.portFlush, Instr.flushBoundary, Instr.portDisable, Instr.frameStart, Instr.lineStart, Instr.linePacket,
      Instr.embeddedDataPacket] : List (Nat → Instr)).all (fun f => (f 11).wf && !(f 12).wf) &&
    (Instr.frameEnd 11 []).wf && !(Instr.frameEnd 12 []).wf && !(Instr.frameEnd 11 [48]).wf &&
    (Instr.pipeLine 2 false).wf && !(Instr.pipeLine 3 false).wf &&
    ([Instr.frameDone, Instr.ispArm] : List (Nat → Instr)).all (fun f => (f 47).wf && !(f 48).wf)) = true := by
  decide +kernel

/-- Well-formed commands with each operand at its limit, and the same with one operand past it. -/
theorem test_wf_5 : (
    (Instr.setTimeout 16).wf && !(Instr.setTimeout 17).wf &&
    (Instr.bufferRelease 47 4294967295).wf && !(Instr.bufferRelease 48 4294967295).wf && !(Instr.bufferRelease 47 4294967296).wf &&
    (Instr.decodeUnit 31 d0).wf && !(Instr.decodeUnit 32 d0).wf &&
    (Instr.budgetExceeded 31 [] 0).wf && !(Instr.budgetExceeded 32 [] 0).wf &&
    (Instr.encodeUnit 31 0 0 [] 0).wf && !(Instr.encodeUnit 32 0 0 [] 0).wf &&
    (Instr.shapeSample 31 0).wf && !(Instr.shapeSample 32 0).wf &&
    ([Instr.sessionDisable, Instr.windowClose] : List (Nat → Instr)).all (fun f => (f 31).wf && !(f 32).wf) &&
    ([Instr.queueFlush, Instr.queueCopyComplete, Instr.regionLock, Instr.chipDepart] : List (Nat → Instr)).all (fun f => (f 63).wf
      && !(f 64).wf) &&
    (Instr.fabricAccess 15 4095 false 70368744177663 1 [] []).wf && !(Instr.fabricAccess 16 4095 false 70368744177663 1 [] []).wf &&
      !(Instr.fabricAccess 15 4096 false 70368744177663 1 [] []).wf && !(Instr.fabricAccess 15 4095 false 0x400000000000 1 [] []).wf
      && !(Instr.fabricAccess 15 4095 false 70368744177663 0 [] []).wf && !(Instr.fabricAccess 15 4095 false 70368744177663 1 [0]
      []).wf && !(Instr.fabricAccess 15 4095 false 70368744177663 1 [] [false, true]).wf &&
    (Instr.dramRead 2147483647 []).wf && !(Instr.dramRead 0x80000000 []).wf && !(Instr.dramRead 2147483647 [(80, 0)]).wf &&
      !(Instr.dramRead 2147483647 [(0, 256)]).wf) = true := by
  decide +kernel

/-- Well-formed commands with each operand at its limit, and the same with one operand past it. -/
theorem test_wf_6 : (
    (Instr.dramWrite 0 [0] [false] 15 4095 none).wf && !(Instr.dramWrite 0x2000000000 [0] [false] 15 4095 none).wf &&
      !(Instr.dramWrite 0 [] [false] 15 4095 none).wf && !(Instr.dramWrite 0 (List.replicate 65 0) [false] 15 4095 none).wf &&
      !(Instr.dramWrite 0 [0] [false, true] 15 4095 none).wf && !(Instr.dramWrite 0 [0] [false] 16 4095 none).wf && !(Instr.dramWrite
      0 [0] [false] 15 4096 none).wf && !(Instr.dramWrite 0 [0] [false] 15 4095 (some 16)).wf &&
    ([Instr.fallbackTrainingDone, Instr.fullTrainingDone] : List ((Option (Nat × Nat)) → Instr)).all (fun f => (f none).wf && !(f
      (some (0, 6))).wf) &&
    (Instr.dramRefresh 5 0).wf && !(Instr.dramRefresh 6 0).wf &&
    ([Instr.dqsOscillatorRun, Instr.linkReplay, Instr.i2cTimeout, Instr.flitTransmit, Instr.linkTrainFailed, Instr.linkRetrainDone]
      : List (Nat → Instr)).all (fun f => (f 5).wf && !(f 6).wf) &&
    (Instr.ddrRateSwitch 65535).wf && !(Instr.ddrRateSwitch 65536).wf &&
    (Instr.patrolScrub 5 [] []).wf && !(Instr.patrolScrub 6 [] []).wf && !(Instr.patrolScrub 5 [(40, 0)] []).wf &&
      !(Instr.patrolScrub 5 [] [(0, 256)]).wf &&
    (Instr.lpddrRead 1 32767 (.flat 15) 2016 .bl16 false).wf && !(Instr.lpddrRead 2 32767 (.flat 15) 2016 .bl16 false).wf &&
      !(Instr.lpddrRead 1 32768 (.flat 15) 2016 .bl32 false).wf && !(Instr.lpddrRead 1 32767 (.flat 16) 2016 .bl16 false).wf &&
      !(Instr.lpddrRead 1 32767 (.flat 15) 2047 .bl16 false).wf && !(Instr.lpddrRead 1 32767 (.flat 15) 2048 .rest false).wf &&
      (Instr.lpddrRead 1 32767 (.grouped 3 3) 0 .rest false).wf && !(Instr.lpddrRead 1 32767 (.grouped 4 3) 0 .rest false).wf &&
    (let w (c row : Nat) (b : Bank) (col n k : Nat) : Bool := (Instr.lpddrWrite c row b col (List.replicate n 0) (List.replicate k true) false).wf
     w 1 32767 (.flat 15) 2016 32 32 && w 1 32767 (.grouped 3 3) 2016 64 64 && !w 2 32767 (.flat 15) 2016 32 32 &&
      !w 1 32768 (.flat 15) 2016 32 32 && !w 1 32767 (.flat 16) 2016 32 32 && !w 1 32767 (.flat 15) 2047 32 32 &&
      !w 1 32767 (.flat 15) 2016 31 31 && !w 1 32767 (.flat 15) 2016 32 31) &&
    ([Instr.lpddrRefresh, Instr.hostCkSwitch, Instr.ethLinkChange] : List (Nat → Bool → Instr)).all (fun f => (f 1 false).wf && !(f
      2 false).wf) &&
    (Instr.lpddrModeRegisterWrite 1 127 0 false).wf && !(Instr.lpddrModeRegisterWrite 2 127 0 false).wf &&
      !(Instr.lpddrModeRegisterWrite 1 128 0 false).wf) = true := by
  decide +kernel

/-- Well-formed commands with each operand at its limit, and the same with one operand past it. -/
theorem test_wf_7 : (
    (Instr.lpddrModeRegisterRead 1 127 false).wf && !(Instr.lpddrModeRegisterRead 2 127 false).wf && !(Instr.lpddrModeRegisterRead 1
      128 false).wf &&
    (Instr.lpddrPowerDown 1 ⟨2, true⟩).wf && !(Instr.lpddrPowerDown 2 ⟨2, true⟩).wf && !(Instr.lpddrPowerDown 1 ⟨3, true⟩).wf &&
    ([Instr.attnSet, Instr.timStep] : List (Nat → Instr)).all (fun f => (f 4294967295).wf && !(f 4294967296).wf) &&
    ([Instr.ringPoll, Instr.negotiate, Instr.getInfo, Instr.setLog, Instr.objWrite, Instr.objClose, Instr.objFree, Instr.fwActivate,
      Instr.programStop, Instr.jobSubmit, Instr.jobAbort, Instr.jobQuery, Instr.jobBind, Instr.cgOpen, Instr.cgStage, Instr.cgCommit,
      Instr.cgCancel, Instr.debugSnapshot, Instr.flashRead, Instr.rollbackAdvance, Instr.keyRevoke, Instr.attest, Instr.debugGrant,
      Instr.recoveryActivate, Instr.restartActivate] : List (Nat → Instr)).all (fun f => (f 8).wf && !(f 9).wf) &&
    ([Instr.resultPublish, Instr.resultRelease, Instr.cgPrepare, Instr.cgPrepareTimeout, Instr.cgApply, Instr.cgPointTimeout,
      Instr.cgCancelWrite, Instr.emergencyClear] : List (Nat → Instr)).all (fun f => (f 15).wf && !(f 16).wf) &&
    (Instr.objOpen 8 0).wf && !(Instr.objOpen 9 0).wf &&
    (Instr.programStart 8 []).wf && !(Instr.programStart 9 []).wf && !(Instr.programStart 8 [(20480, 1)]).wf && !(Instr.programStart
      8 [(0, 3)]).wf && !(Instr.programStart 8 [(0, 0)]).wf &&
    ([Instr.deadlineTimer, Instr.dualRunCompare] : List (Nat → Instr)).all (fun f => (f 4095).wf && !(f 4096).wf) &&
    (Instr.jobKill 4095 255).wf && !(Instr.jobKill 4096 255).wf && !(Instr.jobKill 4095 256).wf &&
    (Instr.cgIslandAnswer 15 14).wf && !(Instr.cgIslandAnswer 16 14).wf && !(Instr.cgIslandAnswer 15 15).wf) = true := by
  decide +kernel

/-- Well-formed commands with each operand at its limit, and the same with one operand past it. -/
theorem test_wf_8 : (
    (Instr.flitReceive 5 f0).wf && !(Instr.flitReceive 6 f0).wf && !(Instr.flitReceive 5 f1).wf &&
    (Instr.linkDown 5 0x73).wf && !(Instr.linkDown 6 0x73).wf && !(Instr.linkDown 5 0x75).wf &&
    (Instr.laneRetire 5 7).wf && !(Instr.laneRetire 6 7).wf && !(Instr.laneRetire 5 8).wf &&
    (Instr.linkTrained 5 8 p0).wf && !(Instr.linkTrained 6 8 p0).wf && !(Instr.linkTrained 5 0 p0).wf && !(Instr.linkTrained 5 9
      p0).wf && !(Instr.linkTrained 5 8 p1).wf &&
    (Instr.probe none 63).wf && !(Instr.probe (some 6) 63).wf && !(Instr.probe none 64).wf &&
    (Instr.ident none 4294967295 0 0).wf && !(Instr.ident (some 6) 4294967295 0 0).wf && !(Instr.ident none 4294967296 0 0).wf &&
    (Instr.routes 63 []).wf && !(Instr.routes 64 []).wf && !(Instr.routes 63 [8]).wf &&
    (Instr.winOpen 63 63 false false 0 0).wf && !(Instr.winOpen 64 63 false false 0 0).wf && !(Instr.winOpen 63 64 false false 0
      0).wf &&
    (Instr.winClose 63 63 0 0).wf && !(Instr.winClose 64 63 0 0).wf && !(Instr.winClose 63 64 0 0).wf &&
    (Instr.headlandElection []).wf && !(Instr.headlandElection [(0, 0, 64)]).wf) = true := by
  decide +kernel

/-- Well-formed commands with each operand at its limit, and the same with one operand past it. -/
theorem test_wf_9 : (
    (Instr.keySlotLoad 5 1).wf && !(Instr.keySlotLoad 6 1).wf && !(Instr.keySlotLoad 5 2).wf &&
    (Instr.canaryTile 31 31 none none []).wf && !(Instr.canaryTile 32 31 none none []).wf && !(Instr.canaryTile 31 32 none none
      []).wf && !(Instr.canaryTile 31 31 (some 64) none []).wf && !(Instr.canaryTile 31 31 none (some (32, false)) []).wf &&
    (Instr.rasRetire 2 4294967295).wf && !(Instr.rasRetire 3 4294967295).wf && !(Instr.rasRetire 2 4294967296).wf &&
    (Instr.variantSwitch []).wf && !(Instr.variantSwitch [(20480, 1)]).wf && !(Instr.variantSwitch [(0, 3)]).wf &&
      !(Instr.variantSwitch [(0, 0)]).wf &&
    (Instr.islandRejoin 14 false).wf && !(Instr.islandRejoin 15 false).wf &&
    ([Instr.quarantineRelease, Instr.islandReset] : List (Nat → Instr)).all (fun f => (f 32767).wf && !(f 32768).wf) &&
    ([Instr.killScrub, Instr.killScrubDone] : List (Nat → Instr)).all (fun f => (f 39).wf && !(f 40).wf) &&
    ([Instr.modeWrite, Instr.emergencyLatch, Instr.emergencyClearable] : List (Nat → Instr)).all (fun f => (f 3).wf && !(f 4).wf) &&
    (Instr.telemetrySample (List.replicate 8 (none, false))).wf && !(Instr.telemetrySample []).wf &&
    (Instr.cappingLoopUpdate 0).wf && !(Instr.cappingLoopUpdate 257).wf) = true := by
  decide +kernel

/-- Well-formed commands with each operand at its limit, and the same with one operand past it. -/
theorem test_wf_10 : (
    (Instr.temperatureSample (List.replicate 14 0)).wf && !(Instr.temperatureSample []).wf &&
    (Instr.ethTxDescriptor 1).wf && !(Instr.ethTxDescriptor 2).wf &&
    (Instr.ethRxFrame 1 [] false 0).wf && !(Instr.ethRxFrame 2 [] false 0).wf &&
    (Instr.triggerInputEdge 23 false 0).wf && !(Instr.triggerInputEdge 24 false 0).wf &&
    (Instr.triggerPulse 23).wf && !(Instr.triggerPulse 24).wf &&
    (Instr.triggerOutputEnable 23 false).wf && !(Instr.triggerOutputEnable 24 false).wf &&
    ([Instr.sioStart, Instr.sioWrite] : List (Nat → (Option Nat) → Instr)).all (fun f => (f 7 none).wf && !(f 8 none).wf) &&
    (Instr.sioRead 7 0 none).wf && !(Instr.sioRead 8 0 none).wf &&
    (Instr.lpddrTrainingCommand 1 6 [] false).wf && !(Instr.lpddrTrainingCommand 2 6 [] false).wf && !(Instr.lpddrTrainingCommand 1
      7 [] false).wf &&
    (Instr.pllRelock 14 0).wf && !(Instr.pllRelock 15 0).wf) = true := by
  decide +kernel

/-- Well-formed commands with each operand at its limit, and the same with one operand past it. -/
theorem test_wf_11 : (
    (Instr.resetDeassert 7 false).wf && !(Instr.resetDeassert 8 false).wf &&
    (Instr.shallowsStart [] 0 0).wf && !(Instr.shallowsStart [(20480, 1)] 0 0).wf && !(Instr.shallowsStart [(0, 3)] 0 0).wf &&
      !(Instr.shallowsStart [(0, 0)] 0 0).wf) = true := by
  decide +kernel

/-! ### Numbers that the spec works out -/

/-- 02 section 5, the example: FP32 0.3 to E4M3 rounds to 0x2A, and with slices 0x2F and 0x9A to 0x2A and 0x29; 500.0 saturates. -/
theorem test_e4m3 :
    numRun (convert 4 .rne true (dec32 0x3E99999A)) = (0x2A, {}) ∧ (numRun (convert 4 (.sr 0x2F) true (dec32 0x3E99999A))).1 = 0x2A ∧
      (numRun (convert 4 (.sr 0x9A) true (dec32 0x3E99999A))).1 = 0x29 ∧ (numRun (convert 4 .rne true (dec32 0x43FA0000))).1 = 0x7E ∧
      (numRun (convert 4 .rne true (dec32 0x43FA0000))).2.cvtSat = 1 := by
  decide +kernel

/-- The drain record and plane element of 02 section 8, the example. -/
def drainCore : Core :=
  let put (o : Nat) (bs : List Byte) (m : Sparse Byte) := mputRun byte0 o bs m
  { acc := [(0, 1250300)], rs := [(0, 92160)],
    drec := put 0 (leBytes 4 0x2C) (put 4 (leBytes 4 4608) (put 8 (leBytes 4 3) (put 0xC (leBytes 4 0xFFFFFFFE) (put 0x14 (leBytes 4 0x3B400000)
      (put 0x1C (leBytes 4 0x41000000) (put 0x40 [0x5A] (put 0x100 (leBytes 4 0xFFFFF400) (put 0x200 (leBytes 4 0xBF000000) [])))))))) }

/-- 02 section 8, the example: t, y with its bias (15,407,827 · 2^-20), and the output 118; a neighbour at 40.0 clamps to 255. -/
theorem test_drain_element :
    drainT drainCore 0 0 0 = 1416188 ∧ fEq (numRun (drainY drainCore 0 0 0 (dec32 0x3D400000))).1 (.fin false 15407827 (-20)) = true ∧
      (numRun (drainOut drainCore .rne (.fin false 15407827 (-20)))).1 = 118 ∧
      (numRun (drainOut drainCore .rne (.fin false 40 0))).1 = 255 ∧ (numRun (drainOut drainCore .rne (.fin false 40 0))).2.cvtSat = 1 := by
  decide +kernel

/-- 04 section 3, the example: the residue of the column, and of the sum with bit 6 flipped. -/
theorem test_residue :
    residue .i8 1 [3, 0xFB, 100] [[7], [2], [0xF7]] 0 = 0 ∧ mod7 (-889) = 0 ∧ mod7 (-825) = 1 := by decide +kernel

/-- Table 7.1 and the paragraph below it: MIRROR and EDGE coordinates of (10, 20) on 38 rows and 50 columns. -/
theorem test_padding :
    [resolve (-30) 38 2, resolve 10 38 2, resolve 50 38 2, resolve (-20) 50 2, resolve 60 50 2, resolve 90 38 2] =
      [(30, false), (10, false), (24, false), (20, false), (38, false), (37, false)] ∧
    [resolve (-30) 38 3, resolve 50 38 3, resolve 60 50 3] = [(0, false), (37, false), (49, false)] ∧
    [(resolve (-30) 38 0).2, (resolve 10 38 0).2, (resolve 50 38 1).2] = [true, false, true] := by decide +kernel

/-- Table 7.5: the sixteen elements that the 2:1 unit 0C 03 02 68 81 18 20 01 decodes to, and the saturation at 127. -/
theorem test_frc :
    ((List.range 16).map fun i => (frcElem false false i [0x0C, 0x03, 0x02, 0x68, 0x81, 0x18, 0x20, 0x01]).toNat) =
      [16, 16, 24, 16, 16, 32, 40, 24, 16, 32, 48, 24, 16, 16, 24, 24] ∧
    frcElem false true 0 (leBytes 8 (110 + 2 * 256 + 4 * 2048)) = 127 := by decide +kernel

/-- 08 section 5, the example: slices 0xD5, 0xE8, 0x27, 0x66 of element 0 to 3, and KIND 1 of element 0, 6,694,888 · 2^-24. -/
theorem test_philox :
    [genSlice {} 0 0, genSlice {} 0 1, genSlice {} 0 2, genSlice {} 0 3] = [0xD5, 0xE8, 0x27, 0x66] ∧ genWord {} 0 0 = 0x6627E8D5 ∧
      randVal {} 1 0 0 = fw (.fin false 6694888 (-24)) := by decide +kernel

/-- The registers of one lane of Table 9.7. -/
def optCore : Core :=
  { vreg := [(0, 0x3E800000), (64, 0x3FC00000), (128, 0x3F800000), (192, 0x40000000), (256, 0x3F000000), (320, 0x3F800000), (384, 0x3F000000)],
    pb := [(0, 0x3F800000), (1, 0x39800000), (2, 0x3F600000), (3, 0x3E000000), (4, 0x3F7E0000), (5, 0x3C000000), (6, 0x3A800000), (7, 0x3B800000),
      (12, 0x3A800000), (13, 0x32000000), (14, 0x37800000)] }

/-- 09 section 6, the example: m2 is 59 · 2^-16; w2 stored as BF16 with a slice of 135 is 0x3E80, with 136 0x3E7F. -/
theorem test_voptu_lane :
    let r := (numRun (optu optCore 0 0 0)).1
    fw r.2.1 = 0x3A6C0000 ∧ (numRun (convert 6 (.sr 135) true r.1)).1 = 0x3E80 ∧ (numRun (convert 6 (.sr 136) true r.1)).1 = 0x3E7F := by
  decide +kernel

/-- The same example: a block whose largest |m2| is 59 · 2^-16 takes scale code 0x31, and stores m2 as E4M3 416 (0x7D). -/
theorem test_voptq_lane :
    (numRun (optq (dec32 0x44800000) (dec32 0x40124925) [(0, dec32 0x3A6C0000)])).1.map
      (fun y => (fEq y.2.2 (ue5m3 0x31), (numRun (convert 4 .rne true y.2.1)).1)) = [(true, 0x7D)] := by decide +kernel

/-- Table 3.18: the fields of three bar headers, and the bytes of their segments in bank 2. -/
theorem test_headers :
    [0x0000000400000000, 0x0FC0000000000100, 0x0001210000000000].map (fun w => segLen (hdrOf w) 2) = [16, 24, 8] ∧
      (hdrOf 0x0FC0000000000100).rep = 63 ∧ (hdrOf 0x0FC0000000000100).cpres = 256 ∧ (hdrOf 0x0001210000000000).tie = true ∧
      (hdrOf 0x0001210000000000).cg = true ∧ (hdrOf 0x0001210000000000).tpart = 4 := by decide +kernel

/-- Table 3.19 as words. -/
def desc5 : List Nat :=
  [2, 0x79, 0x79, 0, 0x100000, 0x408000, 0, 0x8000, 0x120000, 0x408000, 0, 0, 0x03000010, 0x1000, 0x1000, 0, 0, 0x0A000010, 0, 0x10000, 0x1000, 0]

/-- 03 section 11: where descriptor 5 lies, and the addresses of B, A and OUT at step 53. -/
theorem test_streams :
    let ns : NestSt := ⟨5, descOf desc5, [16, 16], [], [5, 3], 0, true⟩
    let s := ramPutNat State.reset (bankBase 2 + 0xFC000) 8 0x2001000000
    descBase 2 5 = 0x24002F03C0 ∧ ns.desc.bodyFirst = 121 ∧ steps ns = 256 ∧ idxAfter ns 53 = [5, 3] ∧
      [strmBase s 2 0 ns ns.idx 1, strmBase s 2 0 ns ns.idx 0, strmBase s 2 0 ns ns.idx 2] = [0x2001035000, 0x2001105000, 0x2001123000] ∧
      [strmInc ns 0, strmInc ns 1] = [64, 0] := by decide +kernel

/-- 05 section 8, the example: the cluster slot 0x4310_8FFC_0000_0000. -/
theorem test_ring_slot : ringArgs 0x43108FFC00000000 = ⟨3, false, 0, 2, 0x47F, 0, true, true, true⟩ ∧ kslotOk 4 0x43108FFC00000000 = true := by
  decide +kernel

/-- Table 16.8: with NC13 retired the shape class reads 0x1667_3110. -/
theorem test_shape_class : shapeClass (regs [(rRasRetireCores, 0x2000)]) = 0x16673110 := by decide +kernel

/-- A state in Mean with the capping loop on, a rate R and one power sample. -/
def loopState (r pm : Nat) : State :=
  let s := regs [(rPwrCtl, 0x11), (rPwrStatus, 1), (rPwrKp, 496), (rPwrR, r), (rPwrCapLim, 75000)]
  { s with pwr := { s.pwr with samples := [pm], therm := 45000 } }

/-- R after one update of the loop, with an observed rate. -/
def loopR (r pm obs : Nat) : Option Nat :=
  match exec (.cappingLoopUpdate obs) (loopState r pm) with
  | .next t => some (rdF t rPwrR 8 0)
  | _ => none

/-- Table 17.7: 256 with 84 observed falls to 47, then to 31, and stays there. -/
theorem test_capping_loop : loopR 256 52000 84 = some 47 ∧ loopR 47 47080 47 = some 31 ∧ loopR 31 44950 31 = some 31 := by decide +kernel

/-- Rate and bucket of cluster 0 after a trip and n rises, at R = 256. -/
def droopAfter (n : Nat) (s : State) : Option (Option Nat × Nat) :=
  let out := (List.range n).foldl (fun (o : Host.Outcome State Fault Refusal) _ => match o with
    | .next t => exec (.droopRiseStep 0) t
    | o => o) (exec (.droopTrip 0) s)
  match out with
  | .next t => some ((clu t 0).droop, (clu t 0).bucket)
  | _ => none

/-- Table 17.5: 128 and a bucket of 15,000 at the trip, 144 after one rise, 192 after four, 256 (no droop) after eight. -/
theorem test_droop :
    let s := regs [(rPwrCtl, 1), (rPwrR, 256)] (barState { bucket := 30000 })
    droopAfter 0 s = some (some 128, 15000) ∧ droopAfter 1 s = some (some 144, 15000) ∧ droopAfter 4 s = some (some 192, 15000) ∧
      droopAfter 8 s = some (none, 15000) := by decide +kernel

/-- The CRC-32 of Ethernet frames and flash tables (R516): its check value for the digits 1 to 9. -/
theorem test_crc32 : crc32 [0x31, 0x32, 0x33, 0x34, 0x35, 0x36, 0x37, 0x38, 0x39] = 0xCBF43926 := by decide +kernel

/-- R514: a step of −1 ns from 5 ns, and one from 0 ns that wraps. -/
theorem test_time_step :
    let step (ns : Nat) : Option Nat := match exec (.timStep 0xFFFFFFFF) { regs [(rTimStepLo, 0xFFFFFFFF)] with ns := ns } with
      | .next t => some t.ns
      | _ => none
    step 5 = some 4 ∧ step 0 = some (2 ^ 64 - 1) := by decide +kernel

/-- A step takes the front command and leaves the rest of the queue. -/
theorem test_step_runs_front :
    (match step { State.reset with pending := [.getInfo 0, .probe none 0] } with
      | .next t => t.pending
      | _ => []) = [.probe none 0] := by decide +kernel

end Sys2Proof.Tests
end

section
/-! PROOFS. Chapter 00: bad accesses (R8) and the latched reads of 64-bit quantities (R9). -/

namespace Sys2Proof.Machine
open Sys2Proof

/-! ### What a delivered value leaves alone -/

@[simp] theorem rd_delivered (s : State) (w : Word) (a : Nat) : rd (delivered s w) a = rd s a := rfl
@[simp] theorem delivered_rdata (s : State) (w : Word) : (delivered s w).rf.rdata = w := rfl
@[simp] theorem delivered_val (s : State) (w : Word) : (delivered s w).rf.val = s.rf.val := rfl
@[simp] theorem delivered_stall (s : State) (w : Word) : (delivered s w).rf.stall = s.rf.stall := rfl
@[simp] theorem delivered_fabStall (s : State) (w : Word) : (delivered s w).rf.fabStall = s.rf.fabStall := rfl
@[simp] theorem deliver_rf (s : State) (bs : List Byte) (ps : List Bool) : (deliver s bs ps).rf = s.rf := rfl

/-- A delivered value is not a register, so it does not add to the registers that changed. -/
theorem onlyRegs_delivered {s t : State} {as : List Nat} (w : Word) (h : OnlyRegs s t as) : OnlyRegs s (delivered t w) as := by
  obtain ⟨hframe, hregs⟩ := h
  refine ⟨?_, hregs⟩
  rw [hframe]
  rfl

/-! ### Bad accesses (R8) -/

/-- A bad access is counted once, and nothing else changes. -/
theorem badAccess_counts {s : State} (h : Inv s) :
    rd (badAccess s) rTopBadaccCnt = rd s rTopBadaccCnt + 1 ∧ OnlyRegs s (badAccess s) [rTopBadaccCnt] :=
  ⟨rd_incr _ h.regs, rfl, fun _ ha => rd_incr_ne s (by simpa using ha)⟩

/-- A bad read delivers 0 besides. -/
theorem badRead_counts {s : State} (h : Inv s) : rd (delivered (badAccess s) 0) rTopBadaccCnt = rd s rTopBadaccCnt + 1 ∧
    (delivered (badAccess s) 0).rf.rdata = 0 ∧ OnlyRegs s (delivered (badAccess s) 0) [rTopBadaccCnt] := by
  obtain ⟨hcount, hframe⟩ := badAccess_counts h
  exact ⟨(rd_delivered _ _ _).trans hcount, delivered_rdata _ _, onlyRegs_delivered 0 hframe⟩

/-- Delivering 0 and counting commute. -/
theorem badAccess_delivered (s : State) (w : Word) : badAccess (delivered s w) = delivered (badAccess s) w := rfl

/-- A write to an address of no register, by any agent, is a bad access. -/
theorem regWrite_of_no_register {a : Nat} (h : regRow a = none) (s : State) (g : Nat) (v : Word) :
    regWrite s g a v = badAccess s := by simp [regWrite, h]

/-- A read of an address of no register is a bad access that gives 0. -/
theorem regRead_of_no_register {a : Nat} (h : regRow a = none) (s : State) : regRead s a = (0, badAccess s) := by
  simp [regRead, h]

/-- READ_LO_LATCH at an address that is no data port delivers what the register read gives. -/
theorem exec_readLoLatch {a : Nat} (h : portData a = none) (s : State) :
    exec (.readLoLatch a) s = .next (delivered (regRead s a).2 (regRead s a).1) := by
  simp [exec, execReadLoLatch, h]

/-- A fabric write into the register space that is not 4 aligned bytes is a bad access. -/
theorem exec_fabricAccess_bad_write {s : State} {ga a n : Nat} (g job : Nat) (bs : List Byte) (ps : List Bool)
    (hloc : localOf s ga = some a) (hreg : regionOf a = some .regs) (hbad : n ≠ 4 ∨ a % 4 ≠ 0) :
    exec (.fabricAccess g job true ga n bs ps) s = .next (badAccess s) := by
  simp [exec, execFabricAccess, hloc, hreg, regAccess, hbad]

/-- Settles O9: every clause is a bad access, which counts and changes nothing else. -/
theorem badAccessReadsZero : Obligations.BadAccessReadsZero := by
  unfold Obligations.BadAccessReadsZero
  refine ⟨fun s h => ⟨_, rfl, ?_⟩, fun s h => ⟨_, rfl, badAccess_counts h⟩, fun s g a v h hrow => ?_,
    fun s a h hrow hport => ?_, fun s g job ga n bs ps a h hloc hreg hbad => ?_⟩
  · rw [if_pos rfl, badAccess_delivered]
    exact badRead_counts h
  · exact ⟨_, congrArg Host.Outcome.next (regWrite_of_no_register hrow s g v), badAccess_counts h⟩
  · refine ⟨_, exec_readLoLatch hport s, ?_⟩
    rw [regRead_of_no_register hrow]
    exact badRead_counts h
  · exact ⟨_, exec_fabricAccess_bad_write g job bs ps hloc hreg hbad, badAccess_counts h⟩

/-! ### Array registers -/

/-- An element found in an array register lies within its count, at its stride. -/
theorem ixOf_eq_some {a base stride n i : Nat} (h : ixOf a base stride n = some i) : i < n ∧ a = base + stride * i := by
  refine ⟨?_, ?_⟩
  · simpa [upto] using List.mem_of_find?_eq_some h
  · simpa using List.find?_some h

/-! ### Latched reads (R9) -/

/-- No register of CLUk_TAG_READ is a _LO register or the _HI register of one. -/
theorem tagRead_register_is_no_pair : ∀ k < 8, isLo (rCluTagRead 0 + 0x100000 * k) = false ∧
    isLo (rCluTagRead 0 + 0x100000 * k - 4) = false := by decide +kernel

/-- A read of a _LO register reads no tag. -/
theorem tagRead_of_isLo {a : Nat} (h : isLo a = true) (s : State) : tagRead s a = s := by
  unfold tagRead
  split
  · rfl
  · next k hk =>
    obtain ⟨hlt, rfl⟩ := ixOf_eq_some hk
    simp [(tagRead_register_is_no_pair k hlt).1] at h

/-- A read of the _HI register of a pair reads no tag. -/
theorem tagRead_of_isLo_below {a : Nat} (h : isLo a = true) (s : State) : tagRead s (a + 4) = s := by
  unfold tagRead
  split
  · rfl
  · next k hk =>
    obtain ⟨hlt, ha⟩ := ixOf_eq_some hk
    obtain rfl : a = rCluTagRead 0 + 0x100000 * k - 4 := by omega
    simp [(tagRead_register_is_no_pair k hlt).2] at h

/-- The latched values after a read of the _LO register a: a fresh one for the _HI register above it. -/
def latch (s : State) (a : Nat) : List (Nat × Word) :=
  s.rf.hi.filter (fun x => x.1 != a + 4) ++ [(a + 4, regView s (a + 4))]

/-- The value that a _LO read latches is the one found for its _HI register. -/
theorem find?_latch (s : State) (a : Nat) :
    (latch s a).find? (fun x => x.1 == a + 4) = some (a + 4, regView s (a + 4)) := by
  have hcleared : (s.rf.hi.filter fun x => x.1 != a + 4).find? (fun x => x.1 == a + 4) = none := by
    simp [List.find?_eq_none]
  rw [latch, List.find?_append, hcleared]
  simp

/-- A read of a _LO register gives the live value and latches its _HI value. -/
theorem regRead_lo {a : Nat} (hrow : regRow a ≠ none) (hlo : isLo a = true) (s : State) :
    regRead s a = (regView s a, { s with rf := { s.rf with hi := latch s a } }) := by
  obtain ⟨r, hr⟩ := Option.ne_none_iff_exists'.mp hrow
  simp [regRead, hr, hlo, tagRead_of_isLo, latch]

/-- A read of a register with a latched value gives that value, and takes it. -/
theorem regRead_latched {s : State} {a : Nat} {w : Word} (hrow : regRow a ≠ none) (htag : tagRead s a = s)
    (hlo : isLo a = false) (hfind : s.rf.hi.find? (fun x => x.1 == a) = some (a, w)) :
    regRead s a = (w, { s with rf := { s.rf with hi := s.rf.hi.filter fun x => x.1 != a } }) := by
  obtain ⟨r, hr⟩ := Option.ne_none_iff_exists'.mp hrow
  simp [regRead, hr, htag, hlo, hfind]

/-- A read of any other register gives the live value and changes nothing. -/
theorem regRead_live {s : State} {a : Nat} (hrow : regRow a ≠ none) (htag : tagRead s a = s) (hlo : isLo a = false)
    (hfind : ∀ x ∈ s.rf.hi, x.1 ≠ a) : regRead s a = (regView s a, s) := by
  obtain ⟨r, hr⟩ := Option.ne_none_iff_exists'.mp hrow
  have hnone : s.rf.hi.find? (fun x => x.1 == a) = none := by simpa using hfind
  simp [regRead, hr, htag, hlo, hnone]

/-- Settles O10: a pair's reads touch no tag, so they come down to what is latched for the _HI register. -/
theorem loReadLatchesHi : Obligations.LoReadLatchesHi := by
  unfold Obligations.LoReadLatchesHi
  intro s a hlo hrow hport hrowHi hportHi hloHi
  refine ⟨⟨_, exec_readLoLatch hport s, ?_⟩, fun hlive => ⟨_, exec_readLoLatch hportHi s, ?_⟩⟩
  · rw [regRead_lo hrow hlo]
    refine ⟨rfl, rfl, ⟨rfl, fun _ _ => rfl⟩, fun u hu => ⟨_, exec_readLoLatch hportHi u, ?_⟩⟩
    have hfind : u.rf.hi.find? (fun x => x.1 == a + 4) = some (a + 4, regView s (a + 4)) := by
      rw [hu]
      exact find?_latch s a
    rw [regRead_latched hrowHi (tagRead_of_isLo_below hlo u) hloHi hfind]
    exact ⟨rfl, rfl, rfl, fun _ _ => rfl⟩
  · rw [regRead_live hrowHi (tagRead_of_isLo_below hlo s) hloHi hlive]
    exact ⟨rfl, rfl⟩

end Sys2Proof.Machine
end

section
/-! PROOFS. Chapter 00: the FIFOs that registers expose (R15 to R17). -/

namespace Sys2Proof.Machine
open Sys2Proof

/-! ### What a log record changes (R412) -/

/-- From s to t nothing changes but register values, SRAM bytes and the count of free values. -/
def LogFrame (s t : State) : Prop := ∃ v m n,
  t = { s with rf := { s.rf with val := v }, mem := { s.mem with sram := m }, free := n }

theorem logFrame_refl (s : State) : LogFrame s s := ⟨s.rf.val, s.mem.sram, s.free, rfl⟩

theorem logFrame_trans {s t u : State} (h : LogFrame s t) (g : LogFrame t u) : LogFrame s u := by
  obtain ⟨_, _, _, rfl⟩ := h
  obtain ⟨v, m, n, rfl⟩ := g
  exact ⟨v, m, n, rfl⟩

theorem logFrame_ite {s t u : State} {c : Prop} [Decidable c] (h : LogFrame s t) (g : LogFrame s u) :
    LogFrame s (if c then t else u) := by
  split
  · exact h
  · exact g

theorem wr_logFrame (s : State) (a : Nat) (v : Word) : LogFrame s (wr s a v) := ⟨_, s.mem.sram, s.free, rfl⟩

theorem ramPut_logFrame (s : State) (a : Nat) (bs : List Byte) : LogFrame s (ramPut s a bs) := ⟨s.rf.val, _, s.free, rfl⟩

theorem freeSkip_logFrame (s : State) (n : Nat) : LogFrame s (freeSkip s n) := ⟨s.rf.val, s.mem.sram, _, rfl⟩

theorem attnSet_logFrame (s : State) (i : Nat) : LogFrame s (attnSet s i) :=
  logFrame_ite (logFrame_trans (wr_logFrame s _ _) (wr_logFrame _ _ _)) (wr_logFrame s _ _)

theorem logPut_logFrame (s : State) (a : Nat) (bs : List Byte) : LogFrame s (logPut s a bs) :=
  logFrame_ite (ramPut_logFrame s a bs) (logFrame_ite (wr_logFrame s _ _) (wr_logFrame s _ _))

theorem logRec_logFrame (s : State) (sev src code typ job : Nat) (data : List Byte) :
    LogFrame s (logRec s sev src code typ job data) := by
  have hputs : ∀ a b c d (w x y z : List Byte), LogFrame s (logPut (logPut (logPut (logPut s a w) b x) c y) d z) :=
    fun a b c d w x y z => logFrame_trans (logFrame_trans (logFrame_trans (logPut_logFrame s a w) (logPut_logFrame _ b x))
      (logPut_logFrame _ c y)) (logPut_logFrame _ d z)
  exact logFrame_ite (logFrame_refl s) (logFrame_ite (logFrame_trans (hputs ..) (attnSet_logFrame _ 2)) (hputs ..))

theorem traceRec_logFrame (s : State) (cat job : Nat) : LogFrame s (traceRec s cat job) :=
  logFrame_ite (logFrame_refl s) (logFrame_trans (freeSkip_logFrame s 16) (logRec_logFrame ..))

/-- What firmware traces when it reads a FIFO (R414) is at most a log record. -/
theorem portTrace_logFrame (s : State) (p : Port) : LogFrame s (portTrace s p) := by
  cases p with
  | events => exact traceRec_logFrame s 4 0
  | _ => exact logFrame_refl s

section Traced
variable (s : State) (p : Port)

@[simp] theorem portTrace_rdata : (portTrace s p).rf.rdata = s.rf.rdata := by
  obtain ⟨_, _, _, h⟩ := portTrace_logFrame s p
  rw [h]

@[simp] theorem portTrace_stall : (portTrace s p).rf.stall = s.rf.stall := by
  obtain ⟨_, _, _, h⟩ := portTrace_logFrame s p
  rw [h]

@[simp] theorem portTrace_fabStall : (portTrace s p).rf.fabStall = s.rf.fabStall := by
  obtain ⟨_, _, _, h⟩ := portTrace_logFrame s p
  rw [h]

@[simp] theorem portTrace_out : (portTrace s p).mem.out = s.mem.out := by
  obtain ⟨_, _, _, h⟩ := portTrace_logFrame s p
  rw [h]

@[simp] theorem portGet_portTrace (q : Port) : portGet (portTrace s p) q = portGet s q := by
  obtain ⟨_, _, _, h⟩ := portTrace_logFrame s p
  rw [h]
  cases q <;> rfl

end Traced

/-! ### Which FIFOs there are -/

/-- The chip has the FIFO p (R1). -/
def PortThere (s : State) : Port → Prop
  | .setq g => g < s.csi.fgs.length
  | .reports n => n < s.vid.ses.length
  | .rx ch | .cmd ch => ch < s.io.ser.length
  | _ => True

/-- There are ten serial controllers. -/
theorem serIx_lt {a o ch : Nat} (h : serIx a o = some ch) : ch < 10 := by
  simp only [serIx, Option.orElse_eq_orElse, Option.orElse_eq_or, Option.or_eq_some_iff, Option.map_eq_some_iff] at h
  rcases h with h | ⟨-, ⟨i, h, rfl⟩ | ⟨-, i, h, rfl⟩⟩
  all_goals
    have := (ixOf_eq_some h).1
    omega

/-- The FIFO behind a data port is one of the chip's. -/
theorem portThere_of_portData {s : State} {a : Nat} {p : Port} (h : Inv s) (hp : portData a = some p) : PortThere s p := by
  obtain ⟨_, _, _, _, _, _, hfgs, hses, _, hser, _⟩ := h.units
  unfold portData at hp
  split at hp
  · cases hp; trivial
  split at hp
  · cases hp; trivial
  split at hp
  · cases hp; trivial
  split at hp
  · cases hp; trivial
  simp only [Option.orElse_eq_orElse, Option.orElse_eq_or, Option.or_eq_some_iff, Option.map_eq_some_iff] at hp
  rcases hp with ⟨g, hg, rfl⟩ | ⟨-, ⟨n, hn, rfl⟩ | ⟨-, ch, hch, rfl⟩⟩
  · simpa [PortThere, hfgs] using (ixOf_eq_some hg).1
  · simpa [PortThere, hses] using (ixOf_eq_some hn).1
  · simpa [PortThere, hser] using serIx_lt hch

/-- A FIFO reads as it was put. -/
theorem portGet_portPut {s : State} {p : Port} (f : Fifo) (h : PortThere s p) : portGet (portPut s p f) p = f := by
  cases p with
  | setq g => simp only [PortThere] at h; simp [portGet, portPut, fgOf, updFg, List.getD, h]
  | reports n => simp only [PortThere] at h; simp [portGet, portPut, sesOf, updSes, List.getD, h]
  | rx ch => simp only [PortThere] at h; simp [portGet, portPut, serOf, updSer, updIo, List.getD, h]
  | cmd ch => simp only [PortThere] at h; simp [portGet, portPut, serOf, updSer, updIo, List.getD, h]
  | _ => rfl

section Put
variable (s : State) (p : Port) (f : Fifo)

@[simp] theorem portPut_stall : (portPut s p f).rf.stall = s.rf.stall := by cases p <;> rfl
@[simp] theorem portPut_fabStall : (portPut s p f).rf.fabStall = s.rf.fabStall := by cases p <;> rfl
@[simp] theorem portPut_rdata : (portPut s p f).rf.rdata = s.rf.rdata := by cases p <;> rfl
@[simp] theorem portPut_val : (portPut s p f).rf.val = s.rf.val := by cases p <;> rfl

end Put

/-! ### Words in (R16) -/

/-- The later words of a dropped packet are dropped, the last one with the packet's end. -/
theorem fifoWord_dropping {f : Fifo} (h : f.drop = true) (cap : Nat) (w : Word) (last bad : Bool) :
    fifoWord cap w last bad f = ({ f with drop := !last }, false) := by simp [fifoWord, h]

/-- A packet that meets a full FIFO is refused. -/
theorem fifoWord_refused {cap : Nat} {f : Fifo} (h : f.drop = false) (hpart : f.part = []) (hfull : cap ≤ f.ents.length)
    (w : Word) (last bad : Bool) :
    fifoWord cap w last bad f = ({ f with ovr := true, lost := (f.lost + 1) % 2 ^ 32, drop := !last }, true) := by
  simp [fifoWord, fifoFull, b2n, h, hpart, hfull]

/-- With room, the place that an open packet holds never refuses its own words. -/
theorem not_refused_of_room {cap : Nat} {f : Fifo} (h : f.ents.length < cap) : (f.part.isEmpty && fifoFull cap f) = false := by
  cases hpart : f.part with
  | nil => simp [fifoFull, b2n, hpart, h]
  | cons x xs => simp

section Room
variable {cap : Nat} {f : Fifo} (w : Word) (hdrop : f.drop = false) (hroom : f.ents.length < cap)
include hdrop hroom

theorem fifoWord_commit : fifoWord cap w true false f = ({ f with ents := f.ents ++ [f.part ++ [w]], part := [] }, false) := by
  simp [fifoWord, hdrop, not_refused_of_room hroom]

theorem fifoWord_rewind : fifoWord cap w true true f = ({ f with part := [] }, false) := by
  simp [fifoWord, hdrop, not_refused_of_room hroom]

theorem fifoWord_append (bad : Bool) : fifoWord cap w false bad f = ({ f with part := f.part ++ [w] }, false) := by
  simp [fifoWord, hdrop, not_refused_of_room hroom]

end Room

/-- A word that is not refused changes the FIFO alone. -/
theorem portWrite_of_taken {s : State} {p : Port} {w : Word} {last bad : Bool} {g : Fifo}
    (h : fifoWord (portCap p) w last bad (portGet s p) = (g, false)) : portWrite s p w last bad = portPut s p g := by
  simp [portWrite, h]

/-- A refused word is counted besides, where a register counts it. -/
theorem portWrite_of_refused {s : State} {p : Port} {w : Word} {last bad : Bool} {g : Fifo}
    (h : fifoWord (portCap p) w last bad (portGet s p) = (g, true)) :
    portWrite s p w last bad = portOver (portPut s p g) p := by
  simp [portWrite, h]

/-- FIFO_WRITE at a data port or at a serial controller's command register. -/
theorem exec_fifoWrite {a : Nat} {p : Port}
    (h : portData a = some p ∨ (portData a = none ∧ ∃ ch, serIx a 4 = some ch ∧ p = .cmd ch)) (s : State) (w : Word)
    (last bad : Bool) : exec (.fifoWrite a w last bad) s = .next (portWrite s p w last bad) := by
  rcases h with h | ⟨h, ch, hch, rfl⟩
  · simp [exec, execFifoWrite, h]
  · simp [exec, execFifoWrite, h, hch]

/-- FIFO_WRITE at any other address. -/
theorem exec_fifoWrite_elsewhere {a : Nat} (h : portData a = none) (hser : serIx a 4 = none) (s : State) (w : Word)
    (last bad : Bool) : exec (.fifoWrite a w last bad) s = .next s := by simp [exec, execFifoWrite, h, hser]

/-! ### Words out -/

/-- The FIFO after a read of its oldest entry e, with es behind it. -/
def fifoRest (f : Fifo) (e : List Word) (es : List (List Word)) : Fifo :=
  if e.length ≤ f.rd + 1 then { f with ents := es, rd := 0 } else { f with rd := f.rd + 1 }

theorem fifoPop_cons {f : Fifo} {e : List Word} {es : List (List Word)} (h : f.ents = e :: es) :
    fifoPop f = some (e.getD f.rd 0, fifoRest f e es) := by
  simp only [fifoPop, h, fifoRest]
  split <;> rfl

theorem fifoPop_nil {f : Fifo} (h : f.ents = []) : fifoPop f = none := by simp [fifoPop, h]

/-! ### Stalled readers (R17) -/

/-- The state with other stalled readers. -/
def withStalls (s : State) (l : List Nat) (m : List (Nat × Nat)) : State :=
  { s with rf := { s.rf with stall := l, fabStall := m } }

@[simp] theorem withStalls_stall (s : State) l m : (withStalls s l m).rf.stall = l := rfl
@[simp] theorem withStalls_fabStall (s : State) l m : (withStalls s l m).rf.fabStall = m := rfl
@[simp] theorem withStalls_val (s : State) l m : (withStalls s l m).rf.val = s.rf.val := rfl

@[simp] theorem portGet_withStalls (s : State) l m (p : Port) : portGet (withStalls s l m) p = portGet s p := by
  cases p <;> rfl

@[simp] theorem portThere_withStalls (s : State) l m (p : Port) : PortThere (withStalls s l m) p = PortThere s p := by
  cases p <;> rfl

@[simp] theorem portGet_delivered (s : State) (w : Word) (p : Port) : portGet (delivered s w) p = portGet s p := by
  cases p <;> rfl

@[simp] theorem portThere_delivered (s : State) (w : Word) (p : Port) : PortThere (delivered s w) p = PortThere s p := by
  cases p <;> rfl

@[simp] theorem portGet_deliver (s : State) bs ps (p : Port) : portGet (deliver s bs ps) p = portGet s p := by
  cases p <;> rfl

/-- A reader of FIFO_DATA_READ receives the delivered value alone. -/
theorem stallGive_local (s : State) (w : Word) : stallGive s false w = delivered s w := rfl

/-- A reader over the fabric receives its four bytes as well. -/
theorem stallGive_fabric (s : State) (w : Word) :
    stallGive s true w = deliver (delivered s w) (leBytes 4 w.toNat) (List.replicate 4 false) := rfl

/-- The reader of FIFO_DATA_READ leaves its wait first. -/
theorem stallPop_local {s : State} {a : Nat} (h : a ∈ s.rf.stall) :
    stallPop s a = some (false, withStalls s (s.rf.stall.filter (· != a)) s.rf.fabStall) := by
  simp [stallPop, h, withStalls]

/-- Without one, the first reader over the fabric leaves. -/
theorem stallPop_fabric {s : State} {a : Nat} (h : a ∉ s.rf.stall) (hfab : ∃ x ∈ s.rf.fabStall, x.2 = a) :
    ∃ x ∈ s.rf.fabStall, stallPop s a = some (true, withStalls s s.rf.stall (s.rf.fabStall.erase x)) := by
  obtain ⟨y, hy, hya⟩ := hfab
  cases hfind : s.rf.fabStall.find? fun x => x.2 == a with
  | none => exact absurd hya (by simpa using List.find?_eq_none.mp hfind y hy)
  | some x => exact ⟨x, List.mem_of_find?_eq_some hfind, by simp [stallPop, h, hfind, withStalls]⟩

theorem stallPop_none {s : State} {a : Nat} (h : a ∉ s.rf.stall) (hfab : ∀ x ∈ s.rf.fabStall, x.2 ≠ a) :
    stallPop s a = none := by
  have hfind : (s.rf.fabStall.find? fun x => x.2 == a) = none := by simpa using hfab
  simp [stallPop, h, hfind]

/-- A fold whose change does nothing to a state leaves it. -/
theorem foldS_fixed {α : Type} {f : State → α → State} {s : State} (h : ∀ x, f s x = s) (l : List α) : foldS f l s = s := by
  induction l with
  | nil => rfl
  | cons x xs ih => rw [foldS, h, ih]

/-- With no reader stalled there, no read of a data port ends. -/
theorem stallZero1_of_no_reader {s : State} {a : Nat} (h : stallPop s a = none) : stallZero1 s a = s := by
  simp [stallZero1, h]

/-- The only stalled read of a data port, by FIFO_DATA_READ, ends with 0 and is counted. -/
theorem stallZero_local {s : State} {a : Nat} {p : Port} (hp : portData a = some p) (h : a ∈ s.rf.stall)
    (hfab : ∀ x ∈ s.rf.fabStall, x.2 ≠ a) :
    stallZero s a = portPut (delivered (withStalls s (s.rf.stall.filter (· != a)) s.rf.fabStall) 0) p
      { portGet s p with dry := ((portGet s p).dry + 1) % 2 ^ 32 } := by
  have hfirst : stallZero1 s a = portPut (delivered (withStalls s (s.rf.stall.filter (· != a)) s.rf.fabStall) 0) p
      { portGet s p with dry := ((portGet s p).dry + 1) % 2 ^ 32 } := by
    simp [stallZero1, stallPop_local h, hp, stallGive_local]
  have hrest : stallZero1 (stallZero1 s a) a = stallZero1 s a := by
    apply stallZero1_of_no_reader
    apply stallPop_none
    · simp [hfirst]
    · simpa [hfirst] using hfab
  rw [stallZero, upto, List.range_succ_eq_map, foldS, foldS_fixed fun _ => hrest, hfirst]

/-! ### FIFO_DATA_READ and FIFO_STALL_END -/

section AtPort
variable {s : State} {a : Nat} {p : Port} (hp : portData a = some p)
include hp

theorem exec_fifoDataRead_entry {w : Word} {g : Fifo} (hpop : fifoPop (portGet s p) = some (w, g)) :
    exec (.fifoDataRead a) s = .next (portTrace (delivered (portPut s p g) w) p) := by
  simp [exec, execFifoDataRead, hp, hpop]

theorem exec_fifoDataRead_stalls (hpop : fifoPop (portGet s p) = none) (h : a ∉ s.rf.stall) :
    exec (.fifoDataRead a) s = .next { s with rf := { s.rf with stall := s.rf.stall ++ [a] } } := by
  simp [exec, execFifoDataRead, hp, hpop, h]

theorem exec_fifoDataRead_stalled (hpop : fifoPop (portGet s p) = none) (h : a ∈ s.rf.stall) :
    exec (.fifoDataRead a) s = .next s := by
  simp [exec, execFifoDataRead, hp, hpop, h]

theorem exec_fifoStallEnd_entry {w : Word} {g : Fifo} {fab : Bool} {t : State} (hpop : fifoPop (portGet s p) = some (w, g))
    (hst : stallPop s a = some (fab, t)) :
    exec (.fifoStallEnd a) s = .next (portTrace (stallGive (portPut t p g) fab w) p) := by
  simp [exec, execFifoStallEnd, hp, hpop, hst]

theorem exec_fifoStallEnd_no_reader (hst : stallPop s a = none) : exec (.fifoStallEnd a) s = .next s := by
  simp [exec, execFifoStallEnd, hp, hst]

theorem exec_fifoStallEnd_waits (hpop : fifoPop (portGet s p) = none) (hon : portOn s p = true) :
    exec (.fifoStallEnd a) s = .next s := by
  cases hst : stallPop s a with
  | none => exact exec_fifoStallEnd_no_reader hp hst
  | some r => simp [exec, execFifoStallEnd, hp, hpop, hst, hon]

theorem exec_fifoStallEnd_off {r : Bool × State} (hpop : fifoPop (portGet s p) = none) (hoff : portOn s p = false)
    (hst : stallPop s a = some r) : exec (.fifoStallEnd a) s = .next (stallZero s a) := by
  simp [exec, execFifoStallEnd, hp, hpop, hst, hoff]

/-- An entry ends the stall of the reader of FIFO_DATA_READ. -/
theorem fifoStallEnd_gives_local (hthere : PortThere s p) {w : Word} {g : Fifo} (hpop : fifoPop (portGet s p) = some (w, g))
    (h : a ∈ s.rf.stall) : Gives (.fifoStallEnd a) s fun t => t.rf.rdata = w ∧ a ∉ t.rf.stall ∧
      t.rf.fabStall = s.rf.fabStall ∧ portGet t p = g := by
  refine ⟨_, exec_fifoStallEnd_entry hp hpop (stallPop_local h), ?_⟩
  rw [stallGive_local]
  exact ⟨by simp, by simp, by simp, by simpa using portGet_portPut g (by simpa using hthere)⟩

/-- Without such a reader, it ends the stall of one over the fabric. -/
theorem fifoStallEnd_gives_fabric (hthere : PortThere s p) {w : Word} {g : Fifo} (hpop : fifoPop (portGet s p) = some (w, g))
    (h : a ∉ s.rf.stall) (hfab : ∃ x ∈ s.rf.fabStall, x.2 = a) : Gives (.fifoStallEnd a) s fun t => t.rf.rdata = w ∧
      t.mem.out = (leBytes 4 w.toNat).map (fun b => (b, false)) ∧ t.rf.fabStall.length + 1 = s.rf.fabStall.length ∧
      portGet t p = g := by
  obtain ⟨x, hx, hst⟩ := stallPop_fabric h hfab
  refine ⟨_, exec_fifoStallEnd_entry hp hpop hst, ?_⟩
  rw [stallGive_fabric]
  refine ⟨?_, ?_, ?_, ?_⟩
  · simp
  · rw [portTrace_out]
    rfl
  · have hone : (s.rf.fabStall.erase x).length + 1 = s.rf.fabStall.length := by
      rw [List.length_erase_of_mem hx, Nat.sub_add_cancel (List.length_pos_of_mem hx)]
    simpa only [portTrace_fabStall, deliver_rf, delivered_fabStall, portPut_fabStall, withStalls_fabStall] using hone
  · simpa using portGet_portPut g (by simpa using hthere)

/-- Where the block is disabled, the stall of an empty FIFO's reader ends with 0, counted. -/
theorem fifoStallEnd_gives_zero (hthere : PortThere s p) (hpop : fifoPop (portGet s p) = none) (hoff : portOn s p = false)
    (h : a ∈ s.rf.stall) (hfab : ∀ x ∈ s.rf.fabStall, x.2 ≠ a) : Gives (.fifoStallEnd a) s fun t => t.rf.rdata = 0 ∧
      a ∉ t.rf.stall ∧ portGet t p = { portGet s p with dry := ((portGet s p).dry + 1) % 2 ^ 32 } ∧ t.rf.val = s.rf.val := by
  refine ⟨_, exec_fifoStallEnd_off hp hpop hoff (stallPop_local h), ?_⟩
  rw [stallZero_local hp h hfab]
  exact ⟨by simp, by simp, portGet_portPut _ (by simpa using hthere), by simp⟩

end AtPort

/-- Settles O12: R16 word by word of the packet, R17 by what the FIFO holds and who waits for it. -/
theorem fifosKeepTheirEntries : Obligations.FifosKeepTheirEntries := by
  unfold Obligations.FifosKeepTheirEntries
  refine ⟨fun s a w p ha => ⟨fun hdrop hroom => ⟨?_, ?_, fun bad => ?_⟩, fun hdrop hpart hfull last bad => ?_,
      fun hdrop bad => ⟨?_, ?_⟩⟩,
    fun s a w last bad ha hser => exec_fifoWrite_elsewhere ha hser s w last bad, fun s a p hinv hp => ⟨?_, ?_, ?_⟩,
    fun s a hp => ⟨by simp [exec, execFifoDataRead, hp], by simp [exec, execFifoStallEnd, hp]⟩⟩
  · rw [exec_fifoWrite ha, portWrite_of_taken (fifoWord_commit w hdrop hroom)]
  · rw [exec_fifoWrite ha, portWrite_of_taken (fifoWord_rewind w hdrop hroom)]
  · rw [exec_fifoWrite ha, portWrite_of_taken (fifoWord_append w hdrop hroom bad)]
  · rw [exec_fifoWrite ha, portWrite_of_refused (fifoWord_refused hdrop hpart hfull w last bad)]
  · rw [exec_fifoWrite ha, portWrite_of_taken (fifoWord_dropping hdrop _ w true bad), Bool.not_true]
  · rw [exec_fifoWrite ha, portWrite_of_taken (fifoWord_dropping hdrop _ w false bad), Bool.not_false]
  · intro e es hents
    have hthere := portThere_of_portData hinv hp
    have hpop := fifoPop_cons hents
    refine ⟨⟨_, exec_fifoDataRead_entry hp hpop, ?_, rfl⟩, fifoStallEnd_gives_local hp hthere hpop,
      fifoStallEnd_gives_fabric hp hthere hpop⟩
    rw [portTrace_rdata, delivered_rdata]
  · intro hents
    have hpop := fifoPop_nil hents
    exact ⟨exec_fifoDataRead_stalls hp hpop, exec_fifoDataRead_stalled hp hpop, exec_fifoStallEnd_waits hp hpop,
      fifoStallEnd_gives_zero hp (portThere_of_portData hinv hp) hpop⟩
  · exact fun h hfab => exec_fifoStallEnd_no_reader hp (stallPop_none h hfab)

end Sys2Proof.Machine
end

section
/-! PROOFS. Chapter 02: the rows of an integer instruction, their sums and their residues (R59, R61, R133, R137). -/

namespace Sys2Proof.Machine
open Sys2Proof

/-! ### Residues modulo 7 (R137) -/

theorem cast_mod7 (x : Int) : ((mod7 x : Nat) : Int) = x % 7 :=
  Int.toNat_of_nonneg (Int.emod_nonneg x (by decide))

theorem mod7_eq_iff {x : Int} {m : Nat} : m = mod7 x ↔ (m : Int) = x % 7 := by
  rw [← cast_mod7]
  exact Int.ofNat_inj.symm

theorem mod7_add_mul (t a w : Int) : (mod7 t + mod7 a * mod7 w) % 7 = mod7 (t + a * w) := by
  rw [mod7_eq_iff]
  push_cast [cast_mod7]
  rw [Int.add_emod, Int.emod_emod, ← Int.mul_emod, ← Int.add_emod]

theorem mod7_add (x y : Int) : (mod7 x + mod7 y) % 7 = mod7 (x + y) := by
  simpa [mod7] using mod7_add_mul x y 1

theorem mod7_mod (x : Int) : mod7 x % 7 = mod7 x := by
  simpa [mod7] using mod7_add x 0

/-- A predicted residue accumulates as the sum it predicts does. -/
theorem foldl_residue (a w : Nat → Int) (ks : List Nat) (t : Int) :
    ks.foldl (fun t k => (t + mod7 (a k) * mod7 (w k)) % 7) (mod7 t) = mod7 (ks.foldl (fun t k => t + a k * w k) t) := by
  induction ks generalizing t with
  | nil => rfl
  | cons k ks ih =>
    rw [List.foldl_cons, List.foldl_cons, mod7_add_mul]
    exact ih _

theorem residue_eq_mod7_intSum (p : Pair) (afmt : Nat) (row : List Byte) (rows : List (List Byte)) (c : Nat) :
    residue p afmt row rows c = mod7 (intSum p afmt row rows c) :=
  foldl_residue (aInt afmt row) (fun k => wInt p rows k c) (upto (kBlock p)) 0

/-! ### The saturating add (R61) -/

theorem numRun_pure {α : Type} (a : α) : numRun (pure a : Num α) = (a, {}) := rfl

theorem numRun_satAdd (a b : Int) : (numRun (satAdd a b)).1 = max (-2147483648) (min 2147483647 (a + b)) := by
  unfold satAdd
  dsimp only
  split
  · change (-2147483648 : Int) = _
    omega
  · split
    · change (2147483647 : Int) = _
      omega
    · change a + b = _
      omega

/-! ### What arithmetic events change (02 section 9) -/

/-- From s to t nothing changes but register values, and of these only the named registers. -/
def ValsOnly (s t : State) (as : List Nat) : Prop :=
  t = { s with rf := { s.rf with val := t.rf.val } } ∧ ∀ a, a ∉ as → rd t a = rd s a

theorem valsOnly_refl (s : State) (as : List Nat) : ValsOnly s s as := ⟨rfl, fun _ _ => rfl⟩

theorem valsOnly_trans {s t u : State} {as : List Nat} (h : ValsOnly s t as) (g : ValsOnly t u as) : ValsOnly s u as := by
  obtain ⟨hst, hrd⟩ := h
  obtain ⟨htu, hrd'⟩ := g
  refine ⟨?_, fun a ha => (hrd' a ha).trans (hrd a ha)⟩
  rw [htu, hst]

theorem valsOnly_ite {s t u : State} {as : List Nat} {c : Prop} [Decidable c] (h : ValsOnly s t as) (g : ValsOnly s u as) :
    ValsOnly s (if c then t else u) as := by
  split
  · exact h
  · exact g

theorem wr_valsOnly (s : State) {a : Nat} {as : List Nat} (v : Word) (h : a ∈ as) : ValsOnly s (wr s a v) as :=
  ⟨rfl, fun _ hb => rd_wr_ne s v fun e => hb (e ▸ h)⟩

/-- The registers of a core's arithmetic events. -/
def arithRegs (n : Nat) : List Nat := [rNcArithStatus n, rNcAccSatCnt n, rNcCvtSatCnt n]

/-- Arithmetic events reach their status register and its two counters only. -/
theorem applyFl_valsOnly (s : State) (n : Nat) (fl : Fl) : ValsOnly s (applyFl s n fl) (arithRegs n) := by
  have hbit : ∀ t i b, ValsOnly t (wrB t (rNcArithStatus n) i b) (arithRegs n) := fun t _ _ =>
    wr_valsOnly t _ (by simp [arithRegs])
  have hacc : ∀ t c, ValsOnly t (incrBy t (rNcAccSatCnt n) c) (arithRegs n) := fun t _ =>
    wr_valsOnly t _ (by simp [arithRegs])
  have hcvt : ∀ t c, ValsOnly t (incrBy t (rNcCvtSatCnt n) c) (arithRegs n) := fun t _ =>
    wr_valsOnly t _ (by simp [arithRegs])
  have step : ∀ {t u : State} {c : Prop} [Decidable c], ValsOnly s t (arithRegs n) → ValsOnly t u (arithRegs n) →
      ValsOnly s (if c then u else t) (arithRegs n) := fun h g => valsOnly_ite (valsOnly_trans h g) h
  unfold applyFl
  exact step (step (step (step (step (valsOnly_refl s _) (valsOnly_trans (hbit ..) (hacc ..))) (hbit ..)) (hbit ..))
    (valsOnly_trans (hbit ..) (hcvt ..))) (hbit ..)

theorem applyFl_cores (s : State) (n : Nat) (fl : Fl) : (applyFl s n fl).cores = s.cores := by
  rw [(applyFl_valsOnly s n fl).1]

@[simp] theorem coreOf_applyFl (s : State) (n : Nat) (fl : Fl) (m : Nat) : coreOf (applyFl s n fl) m = coreOf s m := by
  rw [coreOf, applyFl_cores, coreOf]

/-! ### Plane elements and their shadows -/

/-- Both planes of a core are in their canonical form. -/
def PlanesWf (c : Core) : Prop := mwf word0 c.acc = true ∧ mwf nat0 c.shadow = true

/-- An element of a plane of core n, and its residue shadow. -/
def elemOf (s : State) (n plane r col : Nat) : Word × Nat := (accGet (coreOf s n) plane r col, shGet (coreOf s n) plane r col)

/-- R61, R133: what a row of an integer instruction, without faults, makes of an element, with the events of the add. -/
def elemSum (f : MxFlight) (p : Pair) (r col : Nat) (old : Word) : Int × Fl :=
  numRun (if f.start then pure (intSum p f.afmt (f.a.getD r []) f.b col)
    else satAdd old.toInt (intSum p f.afmt (f.a.getD r []) f.b col))

/-- R133, R137: an element and its shadow after such a row has landed on them. -/
def elemNext (f : MxFlight) (p : Pair) (r col : Nat) (e : Word × Nat) : Word × Nat :=
  (BitVec.ofInt 32 (elemSum f p r col e.1).1,
    ((if f.start then 0 else e.2) + mod7 (intSum p f.afmt (f.a.getD r []) f.b col)) % 7)

/-- From s to t nothing changes but core n and the registers of its arithmetic events. -/
def CoreOnly (s t : State) (n : Nat) : Prop :=
  t = { s with cores := t.cores, rf := { s.rf with val := t.rf.val } } ∧ t.cores.length = s.cores.length ∧
  (∀ m, m ≠ n → coreOf t m = coreOf s m) ∧ ∀ a, a ∉ arithRegs n → rd t a = rd s a

theorem coreOnly_refl (s : State) (n : Nat) : CoreOnly s s n := ⟨rfl, rfl, fun _ _ => rfl, fun _ _ => rfl⟩

theorem coreOnly_trans {s t u : State} {n : Nat} (h : CoreOnly s t n) (g : CoreOnly t u n) : CoreOnly s u n := by
  obtain ⟨hst, hlen, hcore, hrd⟩ := h
  obtain ⟨htu, hlen', hcore', hrd'⟩ := g
  refine ⟨?_, hlen'.trans hlen, fun m hm => (hcore' m hm).trans (hcore m hm), fun a ha => (hrd' a ha).trans (hrd a ha)⟩
  rw [htu, hst]

theorem setCore_coreOnly (s : State) (n : Nat) (c : Core) : CoreOnly s (setCore s n c) n :=
  ⟨rfl, by simp [setCore], fun _ hm => coreOf_setCore_ne s c hm, fun _ _ => rfl⟩

theorem applyFl_coreOnly (s : State) (n : Nat) (fl : Fl) : CoreOnly s (applyFl s n fl) n := by
  obtain ⟨hframe, hrd⟩ := applyFl_valsOnly s n fl
  refine ⟨?_, by rw [applyFl_cores], fun m _ => coreOf_applyFl s n fl m, hrd⟩
  rw [hframe]

/-- A core is replaced, and its arithmetic events are noted. -/
theorem applyFl_setCore_coreOnly (s : State) (n : Nat) (c : Core) (fl : Fl) :
    CoreOnly s (applyFl (setCore s n c) n fl) n := coreOnly_trans (setCore_coreOnly s n c) (applyFl_coreOnly _ n fl)

/-! ### One element (R133, R137) -/

theorem elem_key_ne {plane r col j : Nat} (h : j ≠ col) : 4096 * plane + r * 64 + j ≠ 4096 * plane + r * 64 + col := by omega

section Elem
variable {s : State} {n : Nat} {f : MxFlight} {p : Pair} {r pr col : Nat}

/-- Without a fault, an element lands with no mismatch: the element, its shadow, the row's saturation mark and the events of the
add change. -/
theorem intElem_eq (hflt : f.flt = []) : intElem s n f p r pr col =
    let e := elemOf s n f.plane pr col
    let mk := rowGet (coreOf s n) f.plane pr
    let fl := (elemSum f p r col e.1).2
    applyFl (setCore s n (rowPut (shPut (accPut (coreOf s n) f.plane pr col (elemNext f p r col e).1) f.plane pr col
      (elemNext f p r col e).2) f.plane pr { mk with sat := mk.sat || 0 < fl.accSat })) n fl := by
  unfold intElem
  simp only [hflt, faultAt, residue_eq_mod7_intSum, List.filter_nil, List.map_nil, List.sum_nil, Int.add_zero, bne_self_eq_false,
    Bool.or_false, Bool.false_eq_true, if_false]
  cases hst : f.start <;> simp only [elemNext, elemSum, elemOf, hst] <;> simp [shGet, accPut]

theorem intElem_coreOnly (hflt : f.flt = []) : CoreOnly s (intElem s n f p r pr col) n := by
  rw [intElem_eq hflt]
  exact applyFl_setCore_coreOnly ..

section Core
variable (hflt : f.flt = []) (hn : n < s.cores.length)
include hflt hn

theorem intElem_planesWf (hwf : PlanesWf (coreOf s n)) : PlanesWf (coreOf (intElem s n f p r pr col) n) := by
  rw [intElem_eq hflt, coreOf_applyFl, coreOf_setCore _ hn]
  exact ⟨mput_wf _ _ hwf.1, mput_wf _ _ hwf.2⟩

theorem elemOf_intElem_same (hwf : PlanesWf (coreOf s n)) :
    elemOf (intElem s n f p r pr col) n f.plane pr col = elemNext f p r col (elemOf s n f.plane pr col) := by
  rw [elemOf, intElem_eq hflt, coreOf_applyFl, coreOf_setCore _ hn]
  exact Prod.ext (mget_mput_same _ _ hwf.1) (mget_mput_same _ _ hwf.2)

theorem elemOf_intElem_ne {j : Nat} (hj : j ≠ col) :
    elemOf (intElem s n f p r pr col) n f.plane pr j = elemOf s n f.plane pr j := by
  rw [elemOf, intElem_eq hflt, coreOf_applyFl, coreOf_setCore _ hn]
  exact Prod.ext (mget_mput_ne _ _ (by omega)) (mget_mput_ne _ _ (by omega))

end Core
end Elem

/-! ### The elements of a row -/

section Row
variable {n : Nat} {f : MxFlight} (hflt : f.flt = []) {p : Pair} {r pr : Nat}
include hflt

theorem foldS_intElem_coreOnly (cols : List Nat) (s : State) :
    CoreOnly s (foldS (fun s col => intElem s n f p r pr col) cols s) n := by
  induction cols generalizing s with
  | nil => exact coreOnly_refl s n
  | cons c cols ih => exact coreOnly_trans (intElem_coreOnly hflt) (ih _)

theorem length_intElem (s : State) (col : Nat) : (intElem s n f p r pr col).cores.length = s.cores.length :=
  (intElem_coreOnly hflt).2.1

theorem elemOf_foldS_intElem_out (cols : List Nat) {s : State} (hn : n < s.cores.length) {j : Nat} (hj : j ∉ cols) :
    elemOf (foldS (fun s col => intElem s n f p r pr col) cols s) n f.plane pr j = elemOf s n f.plane pr j := by
  induction cols generalizing s with
  | nil => rfl
  | cons c cols ih =>
    rw [List.mem_cons, not_or] at hj
    rw [foldS, ih (by rwa [length_intElem hflt]) hj.2, elemOf_intElem_ne hflt hn hj.1]

/-- Each element of the row lands on the element and the shadow that the row found. -/
theorem elemOf_foldS_intElem (cols : List Nat) (hnd : cols.Nodup) {s : State} (hn : n < s.cores.length)
    (hwf : PlanesWf (coreOf s n)) {j : Nat} (hj : j ∈ cols) :
    elemOf (foldS (fun s col => intElem s n f p r pr col) cols s) n f.plane pr j =
      elemNext f p r j (elemOf s n f.plane pr j) := by
  induction cols generalizing s with
  | nil => cases hj
  | cons c cols ih =>
    rw [List.nodup_cons] at hnd
    have hn' : n < (intElem s n f p r pr c).cores.length := by rwa [length_intElem hflt]
    rw [foldS]
    rcases List.mem_cons.mp hj with rfl | hj
    · rw [elemOf_foldS_intElem_out hflt cols hn' hnd.1, elemOf_intElem_same hflt hn hwf]
    · rw [ih hnd.2 hn' (intElem_planesWf hflt hn hwf) hj, elemOf_intElem_ne hflt hn]
      exact fun e => hnd.1 (e ▸ hj)

end Row

/-! ### A row (R133, R140) -/

theorem not_pair16_of_pairInt {p : Pair} (h : pairInt p = true) : pair16 p = false := by cases p <;> simp_all [pairInt, pair16]

/-- Before its elements land, a row of an integer instruction touches its core's marks and row sum only, and clears the row's
elements and shadows if it starts the chain. -/
theorem rowLand_opens {s : State} {n r : Nat} {f : MxFlight} {p : Pair} (hp : pairOf f.wfmt f.afmt = some p)
    (hint : pairInt p = true) (hr : r < f.nr) (hnc : 0 < f.nc) (hn : n < s.cores.length) (hwf : PlanesWf (coreOf s n)) :
    ∃ t, rowLand s n f r = foldS (fun s col => intElem s n f p r r col) (upto f.nc) t ∧ CoreOnly s t n ∧
      PlanesWf (coreOf t n) ∧ (f.start = false → ∀ col, elemOf t n f.plane r col = elemOf s n f.plane r col) := by
  unfold rowLand
  simp only [hp, hint, not_pair16_of_pairInt hint, hr, hnc, decide_true, Bool.and_self, Bool.not_true, Bool.false_eq_true,
    if_false, if_true]
  cases f.start with
  | true =>
    refine ⟨_, rfl, coreOnly_trans (setCore_coreOnly ..) (applyFl_setCore_coreOnly ..), ?_, nofun⟩
    rw [coreOf_applyFl, coreOf_setCore _ (by simpa [updCore, setCore] using hn), if_pos rfl, coreOf_updCore _ hn]
    exact ⟨mclear_wf _ _ hwf.1, mclear_wf _ _ hwf.2⟩
  | false =>
    refine ⟨_, rfl, coreOnly_trans (setCore_coreOnly ..) (applyFl_setCore_coreOnly ..), ?_, fun _ col => ?_⟩
    · rw [coreOf_applyFl, coreOf_setCore _ (by simpa [updCore, setCore] using hn), if_neg nofun, coreOf_updCore _ hn]
      exact hwf
    · rw [elemOf, coreOf_applyFl, coreOf_setCore _ (by simpa [updCore, setCore] using hn), if_neg nofun, coreOf_updCore _ hn]
      rfl

section Land
variable {s : State} {n r : Nat} {f : MxFlight} {p : Pair} (hp : pairOf f.wfmt f.afmt = some p) (hint : pairInt p = true)
  (hr : r < f.nr) (hnc : 0 < f.nc) (hflt : f.flt = []) (hn : n < s.cores.length) (hwf : PlanesWf (coreOf s n))
include hp hint hr hnc hflt hn hwf

theorem rowLand_coreOnly : CoreOnly s (rowLand s n f r) n := by
  obtain ⟨t, ht, hframe, -, -⟩ := rowLand_opens hp hint hr hnc hn hwf
  rw [ht]
  exact coreOnly_trans hframe (foldS_intElem_coreOnly hflt ..)

/-- Each element lands once, on what the row held if it continues the chain. -/
theorem elemOf_rowLand {col : Nat} (hcol : col < f.nc) : ∃ e, elemOf (rowLand s n f r) n f.plane r col = elemNext f p r col e ∧
    (f.start = false → e = elemOf s n f.plane r col) := by
  obtain ⟨t, ht, ⟨-, hlen, -⟩, hwf', hold⟩ := rowLand_opens hp hint hr hnc hn hwf
  refine ⟨elemOf t n f.plane r col, ?_, fun hst => hold hst col⟩
  rw [ht]
  exact elemOf_foldS_intElem hflt (upto f.nc) List.nodup_range (hlen ▸ hn) hwf' (List.mem_range.mpr hcol)

/-- An element of a row that starts the chain, whatever the row held. -/
theorem elemOf_rowLand_start (hst : f.start = true) {col : Nat} (hcol : col < f.nc) :
    elemOf (rowLand s n f r) n f.plane r col = (BitVec.ofInt 32 (intSum p f.afmt (f.a.getD r []) f.b col),
      mod7 (intSum p f.afmt (f.a.getD r []) f.b col)) := by
  obtain ⟨e, he, -⟩ := elemOf_rowLand hp hint hr hnc hflt hn hwf hcol
  rw [he]
  simp only [elemNext, elemSum, hst, if_true, numRun_pure, Nat.zero_add, mod7_mod]

/-- An element of a row that continues the chain, from what the row held. -/
theorem elemOf_rowLand_continue (hst : f.start = false) {col : Nat} (hcol : col < f.nc) :
    elemOf (rowLand s n f r) n f.plane r col = (BitVec.ofInt 32 (max (-2147483648) (min 2147483647
        ((accGet (coreOf s n) f.plane r col).toInt + intSum p f.afmt (f.a.getD r []) f.b col))),
      (shGet (coreOf s n) f.plane r col + mod7 (intSum p f.afmt (f.a.getD r []) f.b col)) % 7) := by
  obtain ⟨e, he, hold⟩ := elemOf_rowLand hp hint hr hnc hflt hn hwf hcol
  rw [he, hold hst]
  simp only [elemNext, elemSum, elemOf, hst, Bool.false_eq_true, if_false, numRun_satAdd]

end Land

/-- An integer in the range of INT32 reads back as itself. -/
theorem toInt_ofInt_of_range {x : Int} (hlo : -2147483648 ≤ x) (hhi : x ≤ 2147483647) : (BitVec.ofInt 32 x).toInt = x :=
  BitVec.toInt_ofInt_eq_self (by decide) hlo (by omega)

/-- The registers of residue mismatches are not those of arithmetic events. -/
theorem residue_registers_are_not_arith (n : Nat) : rNcResStatus n ∉ arithRegs n ∧ rNcResCnt n ∉ arithRegs n := by
  simp [arithRegs, rNcResStatus, rNcResCnt, rNcArithStatus, rNcAccSatCnt, rNcCvtSatCnt]

/-- Settles O29: the residue follows the sum term by term; a row lands element by element, and no element of it looks at
another. -/
theorem integerRowsLandExactly : Obligations.IntegerRowsLandExactly := by
  unfold Obligations.IntegerRowsLandExactly
  refine ⟨fun p afmt row rows c _ => residue_eq_mod7_intSum p afmt row rows c, ?_⟩
  intro s n r f p hinv hn hp hint hr _ hnc _ _ hflt hacc hsh
  have hn : n < s.cores.length := hinv.units.cores ▸ hn
  obtain ⟨hframe, -, hcores, hregs⟩ := rowLand_coreOnly hp hint hr hnc hflt hn ⟨hacc, hsh⟩
  obtain ⟨hstat, hcnt⟩ := residue_registers_are_not_arith n
  refine ⟨fun col hcol => ⟨fun hst => ?_, fun hst => ?_⟩, hregs _ hstat, hregs _ hcnt, by rw [hframe], hcores, by rw [hframe]⟩
  · exact Prod.ext_iff.mp (elemOf_rowLand_start hp hint hr hnc hflt hn ⟨hacc, hsh⟩ hst hcol)
  · obtain ⟨hval, hshadow⟩ := Prod.ext_iff.mp (elemOf_rowLand_continue hp hint hr hnc hflt hn ⟨hacc, hsh⟩ hst hcol)
    refine ⟨hval, fun hold hlo hhi => ?_⟩
    refine hshadow.trans ?_
    change _ = mod7 (elemOf (rowLand s n f r) n f.plane r col).1.toInt
    rw [hval]
    simp only [Int.min_eq_right hhi, Int.max_eq_right hlo, toInt_ofInt_of_range hlo hhi, hold, mod7_add]

end Sys2Proof.Machine
end

section
/-! PROOFS. Chapter 02: the drain of a plane row (R69 to R73, R138, R141 to R144). -/

namespace Sys2Proof.Machine
open Sys2Proof

/-! ### Computations whose value ignores the events before them -/

/-- The value of x does not depend on the events that were recorded before it. -/
structure Steady {α : Type} (x : Num α) : Prop where
  value : ∀ fl, (x.run fl).1 = (numRun x).1

section Steady
variable {α β : Type}

theorem steady_pure (a : α) : Steady (pure a : Num α) := ⟨fun _ => rfl⟩

theorem steady_modify (g : Fl → Fl) : Steady (modify g : Num PUnit) := ⟨fun _ => rfl⟩

/-- A computation goes on with the value of its first part, whatever events that part recorded. -/
theorem numRun_bind (x : Num α) {g : α → Num β} (hg : ∀ a, Steady (g a)) :
    (numRun (x >>= g)).1 = (numRun (g (numRun x).1)).1 := (hg _).value _

theorem steady_bind {x : Num α} {g : α → Num β} (hx : Steady x) (hg : ∀ a, Steady (g a)) : Steady (x >>= g) := by
  refine ⟨fun fl => ?_⟩
  rw [numRun_bind x hg, ← hx.value fl]
  exact (hg _).value _

/-- A computation whose value is put to use once more. -/
theorem steady_last {x : Num α} (hx : Steady x) (g : α → β) : Steady (x >>= fun a => pure (g a)) :=
  steady_bind hx fun _ => steady_pure _

theorem steady_ite {c : Prop} [Decidable c] {x y : Num α} (hx : Steady x) (hy : Steady y) : Steady (if c then x else y) := by
  split
  · exact hx
  · exact hy

theorem steady_mapM {g : α → Num β} (hg : ∀ a, Steady (g a)) (l : List α) : Steady (l.mapM g) := by
  induction l with
  | nil => exact steady_pure []
  | cons a l ih =>
    rw [List.mapM_cons]
    exact steady_bind (hg a) fun _ => steady_bind ih fun _ => steady_pure _

/-- The values of a list of computations are those of each alone. -/
theorem numRun_mapM {g : α → Num β} (hg : ∀ a, Steady (g a)) (l : List α) :
    (numRun (l.mapM g)).1 = l.map fun a => (numRun (g a)).1 := by
  induction l with
  | nil => rfl
  | cons a l ih =>
    have hrest : ∀ b, Steady (l.mapM g >>= fun bs => pure (b :: bs)) := fun _ =>
      steady_bind (steady_mapM hg l) fun _ => steady_pure _
    rw [List.mapM_cons, numRun_bind _ hrest, numRun_bind _ fun _ => steady_pure _, ih]
    rfl

end Steady

/-! ### The arithmetic of the drain is steady -/

theorem steady_step32 (ops : List FVal) (x : FVal) : Steady (step32 ops x) := by
  have hnan : ∀ c : Bool, Steady (if c then (do modify fun f : Fl => { f with fpNan := true }; pure (rne32 x)) else pure (rne32 x)) :=
    fun _ => steady_ite (steady_last (steady_modify _) _) (steady_pure _)
  exact steady_ite (steady_bind (steady_modify _) fun _ => hnan _) (hnan _)

theorem steady_mul32 (a b : FVal) : Steady (mul32 a b) := steady_step32 _ _

theorem steady_clampEvent : Steady clampEvent := steady_modify _

theorem steady_clampI (lo hi i : Int) : Steady (clampI lo hi i) :=
  steady_ite (steady_last steady_clampEvent _) (steady_ite (steady_last steady_clampEvent _) (steady_pure _))

theorem steady_cvtInt (lo hi : Int) (md : Rnd) (x : FVal) : Steady (cvtInt lo hi md x) := by
  cases x with
  | nan => exact steady_last (steady_modify _) _
  | inf n => exact steady_last steady_clampEvent _
  | fin n m e => exact steady_clampI ..

theorem steady_cvtUe (md : Rnd) (x : FVal) : Steady (cvtUe md x) := by
  cases x with
  | nan => exact steady_last (steady_modify _) _
  | inf n => exact steady_last steady_clampEvent _
  | fin n m e =>
    exact steady_ite (steady_ite (steady_pure _) (steady_last steady_clampEvent _))
      (steady_ite (steady_last steady_clampEvent _) (steady_pure _))

theorem steady_cvtFp (f : FpFmt) (md : Rnd) (sat : Bool) (x : FVal) : Steady (cvtFp f md sat x) := by
  unfold cvtFp
  split
  · exact steady_pure _
  · exact steady_last steady_clampEvent _
  · exact steady_ite (steady_last steady_clampEvent _) (steady_pure _)
  · refine steady_ite (steady_ite (steady_last steady_clampEvent _) (steady_pure _)) ?_
    split
    · exact steady_last steady_clampEvent _
    · exact steady_ite (steady_last steady_clampEvent _) (steady_last (steady_modify _) _)

theorem steady_convert (fmt : Nat) (md : Rnd) (sat : Bool) (x : FVal) : Steady (convert fmt md sat x) := by
  unfold convert
  split
  iterate 4 exact steady_last (steady_cvtInt ..) _
  · exact steady_cvtUe ..
  · split
    · exact steady_cvtFp ..
    · exact steady_pure _

theorem steady_vlut (c : Core) (t : Nat) (x : FVal) : Steady (vlut c t x) :=
  steady_ite (steady_pure _) (steady_bind (steady_step32 ..) fun _ => steady_bind (steady_mul32 ..) fun _ =>
    steady_ite (steady_pure _) (steady_step32 ..))

theorem steady_drainAct (c : Core) (y : FVal) : Steady (drainAct c y) := by
  unfold drainAct
  split
  iterate 3 exact steady_pure _
  exact steady_vlut ..

theorem steady_drainY (c : Core) (plane q col : Nat) (srow : FVal) : Steady (drainY c plane q col srow) := by
  have hbias : ∀ y, Steady (if bitN (drecFlags c) 3 then add32 y (drecF c (0x200 + 4 * col)) >>= drainAct c
      else pure y >>= drainAct c) :=
    fun _ => steady_ite (steady_bind (steady_step32 ..) (steady_drainAct c)) (steady_bind (steady_pure _) (steady_drainAct c))
  exact steady_ite (steady_bind (steady_mul32 ..) fun _ => steady_bind (steady_mul32 ..) fun _ =>
      steady_bind (steady_mul32 ..) hbias)
    (steady_bind (steady_mul32 ..) fun _ => steady_bind (steady_mul32 ..) hbias)

theorem steady_drainOut (c : Core) (md : Rnd) (y : FVal) : Steady (drainOut c md y) := by
  refine steady_bind (steady_mul32 ..) fun u => ?_
  split
  · split
    · exact steady_bind (steady_modify _) fun _ => steady_last (steady_clampI ..) _
    · exact steady_last steady_clampEvent _
    · exact steady_last (steady_clampI ..) _
  · exact steady_convert ..

end Sys2Proof.Machine
end

section
/-! PROOFS. Chapters 02 and 04: what a vector operation does around its results, and its reads of undamaged memories. -/

namespace Sys2Proof.Machine
open Sys2Proof

/-! ### Runs of values -/

theorem mgetRun_eq_map {α : Type} (d : Nat → α) (m : Sparse α) (k n : Nat) :
    mgetRun d m k n = (upto n).map fun i => mget d m (k + i) := by
  induction n generalizing k with
  | zero => rfl
  | succ n ih =>
    rw [mgetRun, ih, upto, upto, List.range_succ_eq_map, List.map_cons, List.map_map]
    simp [Function.comp_def, Nat.add_comm, Nat.add_left_comm]

/-- A run of values is one of them, then the rest. -/
theorem map_upto_add {α : Type} (g : Nat → α) (m n : Nat) :
    (upto (m + n)).map g = (upto m).map g ++ (upto n).map fun i => g (m + i) := by
  simp [upto, List.range_add, Function.comp_def]

/-- A run within a run. -/
theorem slice_map_upto {α : Type} (g : Nat → α) {a n m : Nat} (h : a + n ≤ m) :
    slice ((upto m).map g) a n = (upto n).map fun i => g (a + i) := by
  apply List.ext_getElem
  · simp [slice, upto]
    omega
  · intro i _ _
    simp [slice, upto]

/-! ### Reads of undamaged memories (R166) -/

/-- The poison flags of the words that the bytes of a run lie in. -/
def runPois (s : State) (a n : Nat) : List Bool := (upto n).map fun i => poisGet s ((a + i) / 32)

section Clean
variable {s : State} (h : s.mem.ecc = [])
include h

theorem eccGet_clean (w : Nat) : eccGet s w = 0 := by simp [eccGet, h, mget, nat0]

theorem wordRead_clean (w : Nat) : wordRead s w = ((ramGet s (32 * w) 32, poisGet s w), s) := by
  simp [wordRead, eccGet_clean h]

theorem wordsRead_clean (w k : Nat) :
    wordsRead s w k = ((ramGet s (32 * w) (32 * k), runPois s (32 * w) (32 * k), false), s) := by
  induction k generalizing w with
  | zero => rfl
  | succ k ih =>
    have hce : wordCe s w = false := by simp [wordCe, eccGet_clean h]
    have hpois : runPois s (32 * w) 32 = List.replicate 32 (poisGet s w) := by
      refine List.eq_replicate_iff.mpr ⟨by simp [runPois, upto], fun b hb => ?_⟩
      simp only [runPois, upto, List.mem_map, List.mem_range] at hb
      obtain ⟨i, hi, rfl⟩ := hb
      congr 1
      omega
    simp only [wordsRead, wordRead_clean h, ih, hce, Bool.or_self, ramGet, mgetRun_eq_map, Prod.mk.injEq, and_true, ← hpois, runPois]
    rw [show 32 * (k + 1) = 32 + 32 * k by omega, show 32 * (w + 1) = 32 * w + 32 by omega, map_upto_add, map_upto_add]
    simp only [Nat.add_assoc, and_self]

theorem sramRead_clean (a n : Nat) : sramRead s a n = ((ramGet s a n, runPois s a n, false), s) := by
  unfold sramRead
  split
  · next hn =>
    subst hn
    rfl
  · have hin : a % 32 + n ≤ 32 * ((a + n - 1) / 32 + 1 - a / 32) := by omega
    have hbase : ∀ i, 32 * (a / 32) + (a % 32 + i) = a + i := by omega
    simp only [wordsRead_clean h, ramGet, mgetRun_eq_map, runPois, slice_map_upto _ hin, hbase]

/-- A bar-driven read delivers what is stored, and is counted. -/
theorem barRead_clean (n a len : Nat) : barRead s n a len =
    ((ramGet s a len, runPois s a len), useWords (actMem s (n / 4) (wordsIn a len)) n (runWords (a, len))) := by
  have h' : (useWords (actMem s (n / 4) (wordsIn a len)) n (runWords (a, len))).mem.ecc = [] := h
  simp only [barRead, sramRead_clean h']
  rfl

theorem length_barRead (n a len : Nat) : (barRead s n a len).2.cores.length = s.cores.length := by
  rw [barRead_clean h]
  simp [useWords, updCore, setCore, actMem, incrBy]

end Clean

/-- A run is poisoned where one of its words is. -/
theorem any_runPois (s : State) {a n : Nat} (hn : 0 < n) : (runPois s a n).any id = (runWords (a, n)).any (poisGet s) := by
  rw [Bool.eq_iff_iff]
  simp only [runPois, runWords, upto, wordsIn, List.any_map, List.any_eq_true, List.mem_range, Function.comp_apply, id_eq,
    Nat.ne_of_gt hn, if_false]
  constructor
  · rintro ⟨i, hi, hp⟩
    refine ⟨(a + i) / 32 - a / 32, by omega, ?_⟩
    rwa [Nat.add_sub_cancel' (by omega)]
  · rintro ⟨j, hj, hp⟩
    refine ⟨32 * (a / 32 + j) - a, by omega, ?_⟩
    rwa [show (a + (32 * (a / 32 + j) - a)) / 32 = a / 32 + j by omega]

end Sys2Proof.Machine
end

section
/-! PROOFS. Chapters 02 and 04: the frame of a vector operation (R83, R147, R148). -/

namespace Sys2Proof.Machine
open Sys2Proof

/-! ### What a result on its way leaves alone -/

/-- The registers that the cores' mapping and the chip's number are read from. -/
def placeRegs : List Nat := [rRasRetireCores, rRasRetireCstore, rEngStatus, rDdlChip]

/-- The address of a stream depends on the nest, the bar store, and the mapping of the cores. -/
theorem coreAddr_congr {s t : State} {n : Nat} (hnest : (clu t (n / 4)).nest = (clu s (n / 4)).nest)
    (hmem : t.mem.sram = s.mem.sram) (heng : t.eng = s.eng) (hrd : ∀ a ∈ placeRegs, rd t a = rd s a) (st j len : Nat) :
    coreAddr t n st j len = coreAddr s n st j len := by
  have hcores : rd t rRasRetireCores = rd s rRasRetireCores := hrd _ (by simp [placeRegs])
  have hstore : rd t rRasRetireCstore = rd s rRasRetireCstore := hrd _ (by simp [placeRegs])
  have hstat : rd t rEngStatus = rd s rEngStatus := hrd _ (by simp [placeRegs])
  have hchip : rd t rDdlChip = rd s rDdlChip := hrd _ (by simp [placeRegs])
  have hbase : ∀ k rec i, baseReg t k rec i = baseReg s k rec i := by simp [baseReg, ramNat, ramGet, hmem]
  have hhealthy : ∀ m, healthy t m = healthy s m := fun m => by rw [healthy, healthy, hcores, hstore]
  have hlist : ∀ k, healthyPos t k = healthyPos s k := fun k => by simp only [healthyPos, hhealthy]
  have hon : rdB t rEngStatus 0 = rdB s rEngStatus 0 := by rw [rdB, rdB, hstat]
  have hpos : ∀ k, progPos t k = progPos s k := fun k => by rw [progPos, progPos, hon, heng, hlist]
  have hrec : recOf t n = recOf s n := by rw [recOf, recOf, logPos, logPos, hpos]
  have hown : ownChip t = ownChip s := by rw [ownChip, ownChip, rdF, rdF, hchip]
  have hloc : ∀ g, localOf t g = localOf s g := fun g => by rw [localOf, localOf, hown]
  have hstrm : ∀ ns idx, strmBase t (n / 4) (recOf s n) ns idx st = strmBase s (n / 4) (recOf s n) ns idx st := by
    intro ns idx
    simp only [strmBase, hbase]
  have hok : strmOk t (n / 4) st = strmOk s (n / 4) st := by rw [strmOk, strmOk, hnest]
  simp only [coreAddr, coreGlob, hok, hrec, hstrm, hloc]

/-- An action that acts only notes so in its cluster. -/
theorem acted_eq (s : State) (k key : Nat) : ∃ cs, acted s k key = { s with clus := cs } := by
  unfold acted
  split
  · exact ⟨_, rfl⟩
  · exact ⟨s.clus, rfl⟩

/-- A change of a cluster that leaves a part of it alone leaves that part of every cluster alone. -/
theorem clu_updClu_keeps {α : Type} (s : State) (k m : Nat) (g : Cluster → Cluster) (part : Cluster → α)
    (hg : ∀ c, part (g c) = part c) : part (clu (updClu s k g) m) = part (clu s m) := by
  by_cases hm : m = k
  · subst hm
    by_cases hk : m < s.clus.length
    · rw [clu_updClu _ hk, hg]
    · rw [updClu, setClu, List.set_eq_of_length_le (by omega)]
  · rw [clu_updClu_ne _ _ hm]

theorem clu_acted (s : State) (k key m : Nat) :
    (clu (acted s k key) m).nest = (clu s m).nest ∧ (clu (acted s k key) m).beat = (clu s m).beat := by
  unfold acted
  split
  · exact ⟨clu_updClu_keeps s k m _ Cluster.nest fun _ => rfl, clu_updClu_keeps s k m _ Cluster.beat fun _ => rfl⟩
  · exact ⟨rfl, rfl⟩

theorem coreOf_useWords {s : State} {n : Nat} (ws : List Nat) (hn : n < s.cores.length) :
    coreOf (useWords s n ws) n = { coreOf s n with used := (coreOf s n).used ++ ws } := coreOf_updCore _ hn

theorem coreOf_actMem (s : State) (k c m : Nat) : coreOf (actMem s k c) m = coreOf s m := rfl

/-- R83, R478: the machine in which the operation of a VX field begins: the field has acted, and one vector operation is
counted. -/
def vxBegin (u : State) (n : Nat) : State := act (acted u (n / 4) (actKey n 2)) (n / 4) 3 1

theorem vxBegin_cores (u : State) (n : Nat) : (vxBegin u n).cores = u.cores := by
  obtain ⟨cs, hcs⟩ := acted_eq u (n / 4) (actKey n 2)
  rw [vxBegin, hcs]
  rfl

theorem coreOf_vxBegin (u : State) (n m : Nat) : coreOf (vxBegin u n) m = coreOf u m := by
  rw [coreOf, vxBegin_cores, coreOf]

/-- Where a vector operation acts, it acts on that machine. -/
theorem vxDo_acts {op : Nat} {a : At} {x : VxArgs} {s : State} (hok : vxOk op x = true)
    (hturn : vxTurn (adv s (a.core / 4) a.dt) a = true) (g : State → Out) :
    vxDo op a x s g = g (vxBegin (adv s (a.core / 4) a.dt) a.core) := by
  simp only [vxDo, hok, hturn]
  rfl

/-- An operation that begins has put no result on its way. -/
theorem vecDone_vxBegin (u : State) (n lat : Nat) : VecDone u (vxBegin u n) n 2 lat [] := by
  obtain ⟨cs, hcs⟩ := acted_eq u (n / 4) (actKey n 2)
  refine ⟨?_, fun m _ => coreOf_vxBegin u n m, ?_, fun a ha => ?_⟩
  · rw [coreOf_vxBegin, List.map_nil, List.append_nil]
  · rw [vxBegin, hcs]
    rfl
  · rw [vxBegin, act, rd_incrBy_ne _ _ fun e => ha (by simp only [e, List.mem_cons, true_or, or_true]), hcs]
    rfl

section Frame
variable {u t : State} {n f lat : Nat} {ws : List PendW}

theorem vecDone_clu (h : VecDone u t n f lat ws) (k : Nat) :
    (clu t k).nest = (clu u k).nest ∧ (clu t k).beat = (clu u k).beat := by
  obtain ⟨-, -, hframe, -⟩ := h
  have : clu t k = clu (acted u (n / 4) (actKey n f)) k := by rw [hframe]; rfl
  rw [this]
  exact clu_acted ..

theorem vecDone_mem (h : VecDone u t n f lat ws) : t.mem = u.mem := by
  obtain ⟨cs, hcs⟩ := acted_eq u (n / 4) (actKey n f)
  obtain ⟨-, -, hframe, -⟩ := h
  rw [hframe, hcs]

theorem vecDone_eng (h : VecDone u t n f lat ws) : t.eng = u.eng := by
  obtain ⟨cs, hcs⟩ := acted_eq u (n / 4) (actKey n f)
  obtain ⟨-, -, hframe, -⟩ := h
  rw [hframe, hcs]

/-- What else changes of cores, register values and free values stays within the frame. -/
theorem vecDone_frame (h : VecDone u t n f lat ws) (cs : List Core) (v : Sparse Word) (k : Nat) :
    { t with cores := cs, rf := { t.rf with val := v }, free := k } =
      { acted u (n / 4) (actKey n f) with cores := cs, rf := { u.rf with val := v }, free := k } := by
  obtain ⟨-, -, hframe, -⟩ := h
  rw [hframe]

/-- A result goes on its way behind those that wait. -/
theorem vecDone_pend (h : VecDone u t n f lat ws) (hn : n < t.cores.length) (w : PendW) :
    VecDone u (pend t n lat w) n f lat (ws ++ [w]) := by
  have hbeat := (vecDone_clu h (n / 4)).2
  have hframe := vecDone_frame h (pend t n lat w).cores t.rf.val t.free
  obtain ⟨hcore, hcores, -, hregs⟩ := h
  refine ⟨?_, fun m hm => (coreOf_updCore_ne t _ hm).trans (hcores m hm), hframe, hregs⟩
  rw [pend, coreOf_updCore _ hn, hcore, hbeat]
  simp

/-- Arithmetic events reach registers that a vector operation may change. -/
theorem vecDone_applyFl (h : VecDone u t n f lat ws) (fl : Fl) : VecDone u (applyFl t n fl) n f lat ws := by
  obtain ⟨hflags, hkept⟩ := applyFl_valsOnly t n fl
  obtain ⟨hcore, hcores, hframe, hregs⟩ := h
  refine ⟨?_, fun m hm => (coreOf_applyFl t n fl m).trans (hcores m hm), ?_, fun a ha => (hkept a ?_).trans (hregs a ha)⟩
  · rw [coreOf_applyFl]
    exact hcore
  · rw [hflags, hframe]
  · simp only [List.mem_cons, not_or] at ha
    simp [arithRegs, ha]

/-- A bar-driven read of undamaged words is counted, and its words are in use. -/
theorem vecDone_barRead (h : VecDone u t n f lat ws) (hn : n < t.cores.length) (hecc : u.mem.ecc = []) (a len : Nat) :
    VecDone u (barRead t n a len).2 n f lat ws := by
  rw [barRead_clean (by rw [vecDone_mem h]; exact hecc)]
  have hframe := vecDone_frame h (useWords t n (runWords (a, len))).cores (actMem t (n / 4) (wordsIn a len)).rf.val t.free
  obtain ⟨hcore, hcores, -, hregs⟩ := h
  refine ⟨?_, fun m hm => (coreOf_updCore_ne _ _ hm).trans (hcores m hm), hframe, fun r hr => ?_⟩
  · have hused := coreOf_useWords (s := actMem t (n / 4) (wordsIn a len)) (runWords (a, len)) hn
    rw [hused, coreOf_actMem, hcore]
  · rw [useWords, rd_updCore, actMem, rd_incrBy_ne _ _ fun e => hr (by simp only [e, List.mem_cons, true_or, or_true])]
    exact hregs r hr

/-- The mapping of the cores and the chip's number are read from none of the registers that a vector operation changes. -/
theorem vecDone_placeRegs (h : VecDone u t n f lat ws) : ∀ a ∈ placeRegs, rd t a = rd u a := by
  intro a ha
  obtain ⟨-, -, -, hregs⟩ := h
  refine hregs a fun hin => ?_
  simp only [placeRegs, List.mem_cons, List.not_mem_nil, or_false, rRasRetireCores, rRasRetireCstore, rEngStatus, rDdlChip,
    rNcArithStatus, rNcAccSatCnt, rNcCvtSatCnt, rNcVecStatus, rNcVecOobCnt, rNcWinStatus, rNcPadTapCnt, rNcWinMissCnt,
    rPwrAct] at ha hin
  omega

/-- A stream has the same address as when the operation began. -/
theorem vecDone_coreAddr (h : VecDone u t n f lat ws) (st j len : Nat) :
    coreAddr t n st j len = coreAddr u n st j len :=
  coreAddr_congr (vecDone_clu h _).1 (by rw [vecDone_mem h]) (vecDone_eng h) (vecDone_placeRegs h) st j len

end Frame
end Sys2Proof.Machine
end

section
/-! PROOFS. Chapter 02: DRAIN (R72, R73, R138, R142, R144). -/

namespace Sys2Proof.Machine
open Sys2Proof

/-- What the drain of element (q, col) gives as FP32. -/
def drainVal (c : Core) (plane q : Nat) (srow : FVal) (col : Nat) : FVal := (numRun (drainY c plane q col srow)).1

/-- What it gives in the output format. -/
def drainCode (c : Core) (plane q jj : Nat) (srow : FVal) (col : Nat) : Nat :=
  (numRun (do
    let y ← drainY c plane q col srow
    drainOut c (mdOf c (bitsN (drecFlags c) 8 2) col jj) y)).1

/-- A row that is converted for a vector register. -/
theorem numRun_mapM_drainVal (c : Core) (plane q : Nat) (srow : FVal) (v : Nat → Nat) (p : Bool) (cols : List Nat) :
    (numRun (cols.mapM fun col => do return (v col, fw (← drainY c plane q col srow), p))).1 =
      cols.map fun col => (v col, fw (drainVal c plane q srow col), p) := by
  rw [numRun_mapM fun col => steady_last (steady_drainY c plane q col srow) _]
  refine List.map_congr_left fun col _ => ?_
  rw [numRun_bind _ fun _ => steady_pure _]
  rfl

/-- A row that is converted for the SPM. -/
theorem numRun_mapM_drainCode (c : Core) (plane q jj : Nat) (srow : FVal) (cols : List Nat) :
    (numRun (cols.mapM fun col => do
      let y ← drainY c plane q col srow
      return (col, ← drainOut c (mdOf c (bitsN (drecFlags c) 8 2) col jj) y))).1 =
      cols.map fun col => (col, drainCode c plane q jj srow col) := by
  have hout : ∀ col y, Steady (drainOut c (mdOf c (bitsN (drecFlags c) 8 2) col jj) y >>= fun z => pure (col, z)) :=
    fun _ _ => steady_last (steady_drainOut ..) _
  rw [numRun_mapM fun col => steady_bind (steady_drainY c plane q col srow) (hout col)]
  refine List.map_congr_left fun col _ => ?_
  rw [numRun_bind _ (hout col), numRun_bind _ fun _ => steady_pure _, drainCode, numRun_bind _ fun _ => steady_drainOut ..]
  rfl

/-- A row for VD is one result, with the events of its conversions. -/
theorem drainRow_eq_toVd {t : State} {n : Nat} {x : VxArgs} (hvd : bitN x.arg 4 = true) (plane q jj : Nat) (cols : List Nat)
    (srow : FVal) (p : Bool) : ∃ fl, drainRow t n x plane q jj cols srow p =
      .next (applyFl (pend t n 6 (.lanes (cols.map fun col => (x.vd * 64 + col,
        fw (drainVal (coreOf t n) plane q srow col), p || (rowGet (coreOf t n) plane q).pois)))) n fl) := by
  rw [drainRow, if_pos hvd, ← numRun_mapM_drainVal (coreOf t n) plane q srow (fun col => x.vd * 64 + col)]
  exact ⟨_, rfl⟩

/-- So is a row for stream OUT; with no column to write, the address is not looked at. -/
theorem drainRow_eq_toMem {t : State} {n : Nat} {x : VxArgs} (hvd : bitN x.arg 4 = false) {plane q jj : Nat} (cols : List Nat)
    (srow : FVal) (p : Bool) {ad : Nat} (had : coreAddr t n 2 jj (8 * fmtBits (bitsN (drecFlags (coreOf t n)) 4 4)) = .ok ad) :
    ∃ fl, drainRow t n x plane q jj cols srow p = .next (applyFl (pend t n 6 (.mem 0 (drainBytes ad
      (fmtBits (bitsN (drecFlags (coreOf t n)) 4 4)) (cols.map fun col => (col, drainCode (coreOf t n) plane q jj srow col))
      (p || (rowGet (coreOf t n) plane q).pois)))) n fl) := by
  rw [drainRow, hvd, if_neg nofun, ← numRun_mapM_drainCode (coreOf t n) plane q jj srow]
  dsimp only
  rw [had]
  cases cols with
  | nil => exact ⟨_, rfl⟩
  | cons col cols => exact ⟨_, rfl⟩

section Drain
variable {u t : State} {n : Nat} (h : VecDone u t n 2 6 []) (hlen : n < t.cores.length) {x : VxArgs}
  {plane q jj : Nat} {cols : List Nat}
include h hlen

/-- R144: without a valid record, zeros with poison go to VD. -/
theorem drainNone_toVd (hvd : bitN x.arg 4 = true) : ∃ t', drainNone t n x jj cols = .next t' ∧
    VecDone u t' n 2 6 [.lanes (cols.map fun col => (x.vd * 64 + col, (0 : Word), true))] := by
  refine ⟨_, ?_, vecDone_pend h hlen _⟩
  rw [drainNone, if_pos hvd]

/-- R144: or to stream OUT. -/
theorem drainNone_toMem (hvd : bitN x.arg 4 = false) {ad : Nat} (had : coreAddr u n 2 jj 256 = .ok ad) :
    ∃ t', drainNone t n x jj cols = .next t' ∧
      VecDone u t' n 2 6 [.mem 0 (cols.flatMap fun col => laneBytes (ad + 4 * col) 4 0 true)] := by
  refine ⟨_, ?_, vecDone_pend h hlen _⟩
  rw [drainNone, hvd, if_neg nofun, vecDone_coreAddr h, had]
  cases cols <;> rfl

omit hlen

/-- What the drain reads of its core is as it was when the operation began. -/
theorem vecDone_drainReads : drecFlags (coreOf t n) = drecFlags (coreOf u n) ∧
    rowGet (coreOf t n) plane q = rowGet (coreOf u n) plane q ∧
    drainVal (coreOf t n) plane q = drainVal (coreOf u n) plane q ∧
    drainCode (coreOf t n) plane q jj = drainCode (coreOf u n) plane q jj := by
  obtain ⟨hcore, -⟩ := h
  rw [hcore]
  exact ⟨rfl, rfl, rfl, rfl⟩

include hlen

/-- R142: the row goes to VD as FP32. -/
theorem drainRow_toVd (hvd : bitN x.arg 4 = true) (srow : FVal) (p : Bool) :
    ∃ t', drainRow t n x plane q jj cols srow p = .next t' ∧ VecDone u t' n 2 6 [.lanes (cols.map fun col =>
      (x.vd * 64 + col, fw (drainVal (coreOf u n) plane q srow col), p || (rowGet (coreOf u n) plane q).pois))] := by
  obtain ⟨fl, hrow⟩ := drainRow_eq_toVd (t := t) (n := n) hvd plane q jj cols srow p
  obtain ⟨-, hmarks, hval, -⟩ := vecDone_drainReads h (plane := plane) (q := q) (jj := jj)
  rw [hrow, hval, hmarks]
  exact ⟨_, rfl, vecDone_applyFl (vecDone_pend h hlen _) fl⟩

/-- R73: the row goes to stream OUT in the output format. -/
theorem drainRow_toMem (hvd : bitN x.arg 4 = false) (srow : FVal) (p : Bool) {ad : Nat}
    (had : coreAddr u n 2 jj (8 * fmtBits (bitsN (drecFlags (coreOf u n)) 4 4)) = .ok ad) :
    ∃ t', drainRow t n x plane q jj cols srow p = .next t' ∧ VecDone u t' n 2 6 [.mem 0 (drainBytes ad
      (fmtBits (bitsN (drecFlags (coreOf u n)) 4 4)) (cols.map fun col => (col, drainCode (coreOf u n) plane q jj srow col))
      (p || (rowGet (coreOf u n) plane q).pois))] := by
  obtain ⟨hflags, hmarks, -, hcode⟩ := vecDone_drainReads h (plane := plane) (q := q) (jj := jj)
  rw [← vecDone_coreAddr h, ← hflags] at had
  obtain ⟨fl, hrow⟩ := drainRow_eq_toMem hvd (plane := plane) (q := q) cols srow p had
  rw [hrow, hflags, hcode, hmarks]
  exact ⟨_, rfl, vecDone_applyFl (vecDone_pend h hlen _) fl⟩

/-- A row goes where its operand says. -/
theorem drainRow_done (hout : bitN x.arg 4 = false →
      ∃ ad, coreAddr u n 2 jj (8 * fmtBits (bitsN (drecFlags (coreOf u n)) 4 4)) = .ok ad) (srow : FVal) (p : Bool) :
    ∃ t', drainRow t n x plane q jj cols srow p = .next t' ∧
      (bitN x.arg 4 = true → VecDone u t' n 2 6 [.lanes (cols.map fun col =>
        (x.vd * 64 + col, fw (drainVal (coreOf u n) plane q srow col), p || (rowGet (coreOf u n) plane q).pois))]) ∧
      (bitN x.arg 4 = false → ∀ ad, coreAddr u n 2 jj (8 * fmtBits (bitsN (drecFlags (coreOf u n)) 4 4)) = .ok ad →
        VecDone u t' n 2 6 [.mem 0 (drainBytes ad (fmtBits (bitsN (drecFlags (coreOf u n)) 4 4))
          (cols.map fun col => (col, drainCode (coreOf u n) plane q jj srow col)) (p || (rowGet (coreOf u n) plane q).pois))]) := by
  cases hvd : bitN x.arg 4 with
  | true =>
    obtain ⟨t', ht, hdone⟩ := drainRow_toVd h hlen (jj := jj) (plane := plane) (q := q) (cols := cols) hvd srow p
    exact ⟨t', ht, fun _ => hdone, nofun⟩
  | false =>
    obtain ⟨ad, had⟩ := hout hvd
    obtain ⟨t', ht, hdone⟩ := drainRow_toMem h hlen (plane := plane) (q := q) (cols := cols) hvd srow p had
    refine ⟨t', ht, nofun, fun _ ad' had' => ?_⟩
    cases had.symm.trans had'
    exact hdone

end Drain

/-! ### The comparison with the residue shadows (R138) -/

/-- A row without a mismatch passes. -/
theorem drainCheck_of_match {s : State} {n plane q : Nat}
    (h : ∀ col, col < 64 → mod7 (accGet (coreOf s n) plane q col).toInt = shGet (coreOf s n) plane q col) :
    drainCheck s n plane q = s := by
  have hbad : ((upto 64).filter fun col =>
      mod7 (accGet (coreOf s n) plane q col).toInt != shGet (coreOf s n) plane q col) = [] := by
    simpa [upto] using h
  unfold drainCheck
  simp only [hbad]
  rfl

/-! ### DRAIN -/

/-- R142: the columns of a row that DRAIN writes. -/
def drainCols (c : Core) (m plane q : Nat) : List Nat := (govLanes c m).filter (· < (rowGet c plane q).nc)

/-- What DRAIN does of the row of beat offset jj from the machine on in which it begins, without an upset. -/
def drainFrom (t : State) (n : Nat) (x : VxArgs) (plane jj : Nat) : Out :=
  let c := coreOf t n
  let mk := rowGet c plane (jj % 64)
  let cols := drainCols c x.mask plane (jj % 64)
  if !mk.valid then .next t
  else if !c.drecOk then drainNone t n x jj cols
  else if bitsN (drecFlags c) 0 2 = 0 then
    onOk (coreAddr t n 3 jj 4) fun sd =>
      let r := barRead t n sd 4
      drainRow (if mk.shValid && !mk.sat then drainCheck r.2 n plane (jj % 64) else r.2) n x plane (jj % 64) jj cols
        (dec32 (BitVec.ofNat 32 (leNat r.1.1))) (r.1.2.any id)
  else drainRow t n x plane (jj % 64) jj cols fZero false

/-- Where DRAIN acts, that is what it does. -/
theorem exec_drain_acts {s : State} {a : At} {x : VxArgs} (hok : vxOk 0x0B x = true)
    (hturn : vxTurn (adv s (a.core / 4) a.dt) a = true) : exec (.drain a x []) s =
      drainFrom (vxBegin (adv s (a.core / 4) a.dt) a.core) a.core x (x.arg % 16) (x.arg / 32 % 64 + a.j) := by
  change execDrain a x [] s = _
  rw [execDrain, vxDo_acts hok hturn]
  rfl

section From
variable {t : State} {n : Nat} {x : VxArgs} {plane jj : Nat}

/-- A row that is not valid is not written. -/
theorem drainFrom_invalid (hv : (rowGet (coreOf t n) plane (jj % 64)).valid = false) : drainFrom t n x plane jj = .next t := by
  simp [drainFrom, hv]

variable (hv : (rowGet (coreOf t n) plane (jj % 64)).valid = true)
include hv

theorem drainFrom_noRecord (hrec : (coreOf t n).drecOk = false) :
    drainFrom t n x plane jj = drainNone t n x jj (drainCols (coreOf t n) x.mask plane (jj % 64)) := by
  simp [drainFrom, hv, hrec]

variable (hrec : (coreOf t n).drecOk = true)
include hrec

theorem drainFrom_float (hpath : bitsN (drecFlags (coreOf t n)) 0 2 ≠ 0) : drainFrom t n x plane jj =
    drainRow t n x plane (jj % 64) jj (drainCols (coreOf t n) x.mask plane (jj % 64)) fZero false := by
  simp [drainFrom, hv, hrec, hpath]

/-- On the integer path, a row without a residue mismatch is converted with its row scale. -/
theorem drainFrom_int (hpath : bitsN (drecFlags (coreOf t n)) 0 2 = 0) {sd : Nat} (hsd : coreAddr t n 3 jj 4 = .ok sd)
    (hecc : t.mem.ecc = []) (hlen : n < t.cores.length)
    (hmatch : ∀ col, col < 64 → mod7 (accGet (coreOf t n) plane (jj % 64) col).toInt = shGet (coreOf t n) plane (jj % 64) col) :
    drainFrom t n x plane jj = drainRow (barRead t n sd 4).2 n x plane (jj % 64) jj
      (drainCols (coreOf t n) x.mask plane (jj % 64)) (dec32 (BitVec.ofNat 32 (ramNat t sd 4)))
      ((runWords (sd, 4)).any (poisGet t)) := by
  have hread := barRead_clean hecc n sd 4
  have hcheck : drainCheck (barRead t n sd 4).2 n plane (jj % 64) = (barRead t n sd 4).2 := by
    have hused := coreOf_useWords (s := actMem t (n / 4) (wordsIn sd 4)) (runWords (sd, 4)) hlen
    refine drainCheck_of_match ?_
    rw [hread, hused, coreOf_actMem]
    exact hmatch
  rw [hread] at hcheck
  simp only [drainFrom, hv, hrec, hpath, hsd, onOk, hread, hcheck, ite_self, any_runPois t (by decide : 0 < 4), ramNat]
  rfl

end From

/-- Settles O30: DRAIN begins as every vector operation does, and each of its paths puts one result on its way. -/
theorem drainConvertsOneRow : Obligations.DrainConvertsOneRow := by
  unfold Obligations.DrainConvertsOneRow
  intro s a x hinv hn n u c plane jj q cols f toVd rowDone hok hturn
  have hbegin := vecDone_vxBegin u n 6
  have hlen : n < (vxBegin u n).cores.length := by
    rw [vxBegin_cores, ((adv_orderly s (n / 4) a.dt).2.2 hinv).units.cores]
    exact hn
  have hmem : (vxBegin u n).mem = u.mem := vecDone_mem hbegin
  have hcore : coreOf (vxBegin u n) n = c := coreOf_vxBegin u n n
  have hexec : exec (.drain a x []) s = drainFrom (vxBegin u n) n x plane jj := exec_drain_acts hok hturn
  simp only [Gives, hexec]
  rw [← hcore]
  refine ⟨fun hv => ⟨_, drainFrom_invalid hv, hbegin⟩, fun hv hrec => ?_, fun hv hrec hout => ⟨fun hpath => ?_,
    fun hpath sd hsd hecc hmatch => ?_⟩⟩
  · rw [drainFrom_noRecord hv hrec, hcore]
    exact ⟨drainNone_toVd hbegin hlen, fun hvd ad had => drainNone_toMem hbegin hlen hvd had⟩
  · rw [drainFrom_float hv hrec (by rw [hcore]; exact hpath), hcore]
    exact drainRow_done hbegin hlen hout fZero false
  · have hecc' : (vxBegin u n).mem.ecc = [] := by rw [hmem, hecc]
    have hscale : ramNat (vxBegin u n) sd 4 = ramNat u sd 4 := by rw [ramNat, ramNat, ramGet, ramGet, hmem]
    have hpois : poisGet (vxBegin u n) = poisGet u := funext fun w => by rw [poisGet, poisGet, hmem]
    rw [drainFrom_int hv hrec (by rw [hcore]; exact hpath) ((vecDone_coreAddr hbegin 3 jj 4).trans hsd) hecc' hlen hmatch, hcore,
      hscale, hpois]
    exact drainRow_done (vecDone_barRead hbegin hlen hecc sd 4) (by rwa [length_barRead hecc']) hout _ _

end Sys2Proof.Machine
end
